-- ==== Sys2Proof/Word.lean ====
section
/-! DEFINITION. The word, half-word and byte of the spec (spec/00, "Numbers, units and names") and nothing else. -/

namespace Sys2Proof

/-- A word: 32 bits. -/
abbrev Word := BitVec 32

/-- A byte: 8 bits. -/
abbrev Byte := BitVec 8

end Sys2Proof
end

