-- ==== Sys2Proof/Syntax.lean ====
section
/-! DEFINITION. The commands of the block: one constructor of `Instr` for every row of spec/opcode_table.json, and
before it the shapes of their operands. The operation rows of the Drunus instruction set (spec/04) take the fields of
one syllable; an event row takes what the world outside the block decides about the event. -/

namespace Sys2Proof

/-- M operations of R82. -/
inductive MOp where
  | mpy | mac | msu | mpyn | addp
  deriving DecidableEq, Repr

/-- A operations of R84. -/
inductive AOp where
  | add | sub | addi | neg | abs | and | or | xor | andi | ori | xori | not | shl | shr | sra | ror | shi | min | max
  | clz | cmp | cmpi | sel | mov | movi | movhi | rnd | ash | adda | suba | ext
  deriving DecidableEq, Repr

/-- L operations of R93. -/
inductive LOp where
  | ldw | ldh | ldhu | ldb | ldbu | stw | sth | stb | sta | addr | addri | lmov | segrd | segwr | ptradd
  deriving DecidableEq, Repr

/-- X operations of R95 to R98. -/
inductive XOp where
  | log2 | exp2 | sincos | tanh | idiv | irem | udiv | urem | fdiv | noise | rand | seed | getstate | interp4 | interp6
  deriving DecidableEq, Repr

/-- C operations of R100; REP has its immediate and its register form. -/
inductive COp where
  | nop | win | call | ret | rep | repg | tickwait
  deriving DecidableEq, Repr

/-- Conditions of the compact branches (R105). -/
inductive BCond where
  | b | beqz | bnez | bltz | bgez | bgtz | blez | jr | jal
  deriving DecidableEq, Repr

/-- The operand forms of an M syllable (R81): a register specifier, a memory word at an offset in a segment, or a
memory word at offset 0 whose segment then advances by a step. -/
inductive MOpd where
  | reg (spec : BitVec 6)
  | mem (seg : BitVec 4) (imm : BitVec 4)
  | step (seg : BitVec 4) (by_ : BitVec 4)
  deriving DecidableEq, Repr

/-- The operand fields of an M syllable (R80). -/
structure MArgs where
  /-- UNIT: false for M0, true for M1. -/
  unit : Bool
  /-- DST. -/
  dst : BitVec 3
  /-- OPA. -/
  a : MOpd
  /-- OPB. -/
  b : MOpd
  deriving DecidableEq, Repr

/-- The operand fields of an A syllable (R83): RD and the sixteen bits below it, which the three layouts share. -/
structure AArgs where
  /-- RD, bits 21:16. -/
  rd : BitVec 6
  /-- Bits 15:0: RA, RB and MOD, or RA and IMM10, or IMM16. -/
  low : BitVec 16
  deriving DecidableEq, Repr

/-- The operand fields of an L syllable (R90, R104): RT and the seventeen bits below it. -/
structure LArgs where
  /-- RT (RA for PTRADD), bits 22:17. -/
  rt : BitVec 6
  /-- Bits 16:0. -/
  low : BitVec 17
  deriving DecidableEq, Repr

/-- The operand fields of an X syllable (R94). -/
structure XArgs where
  /-- RD. -/
  rd : BitVec 6
  /-- RA. -/
  ra : BitVec 6
  /-- RB. -/
  rb : BitVec 6
  /-- MOD. -/
  md : BitVec 2
  deriving DecidableEq, Repr

/-- The operand fields of a compact branch (R105). -/
structure BArgs where
  /-- RS. -/
  rs : BitVec 6
  /-- OFF17, a signed count of half-words. -/
  off : BitVec 17
  deriving DecidableEq, Repr

/-- The unit classes of R54 that have a destination field (R109). -/
inductive Cls where
  | m | a | l | x | c
  deriving DecidableEq, Repr

/-- One decoded syllable. An undefined one keeps its class and its destination field (R56, R109); a reserved CLASS has
none (R55). -/
inductive Syl where
  | m (op : MOp) (x : MArgs)
  | a (op : AOp) (x : AArgs)
  | l (op : LOp) (x : LArgs)
  | x (op : XOp) (x : XArgs)
  | c (op : COp) (arg : BitVec 24)
  | undef (cls : Cls) (unit : Bool) (dst : BitVec 6)
  | reserved
  deriving DecidableEq, Repr

/-- One compact instruction (R102, R105, R106). -/
inductive Compact where
  | syl (s : Syl)
  | branch (cond : BCond) (rs : BitVec 6) (off : Int)
  | resume
  | evwait
  | undef
  deriving DecidableEq, Repr

/-- The twelve programmable cores by CORE_ID (R17): SE0 to SE9, CP, SECP. -/
abbrev CoreId := Fin 12


/-- A ledger entry (R210): target address, data and stamp. `id` tells resent copies of one entry from two equal entries
(log entry 24). -/
structure LdgEntry where
  /-- Address. -/
  addr : Nat
  /-- Data. -/
  data : Word
  /-- Stamp T'. -/
  stamp : Nat
  /-- The model's number of the entry. -/
  id : Nat
  deriving DecidableEq, Repr

/-- The core of a tick frame (R199). -/
structure TFrame where
  /-- TICK. -/
  tick : Word
  /-- STATE of the sender. -/
  state : BitVec 4
  /-- TOKEN. -/
  token : Bool
  /-- LATCHED. -/
  latched : Bool
  /-- STANDIN. -/
  standIn : Bool
  /-- ARMED. -/
  armed : Bool
  /-- FSEQ. -/
  fseq : Byte
  /-- ACK. -/
  ack : Byte
  /-- DIGEST. -/
  digest : Word
  /-- DIV. -/
  div : Bool
  /-- Ledger entries; NLDG is their number. -/
  entries : List LdgEntry
  /-- Forwarded words; NFWD is their number. -/
  fwd : List Word
  deriving DecidableEq, Repr

/-- A negotiation frame (R203). -/
structure NegFrame where
  /-- Silicon revision code. -/
  rev : Byte
  /-- Highest minor of link major 1, if it is supported. -/
  minor1 : Option Nat
  /-- Highest minor of link major 2, if it is supported. -/
  minor2 : Option Nat
  /-- Bits for other supported majors. -/
  others : Byte
  /-- ROLE: true for follower. -/
  role : Bool
  /-- TOKEN_INIT. -/
  token : Bool
  /-- MODE_REQ: true for lockstep. -/
  lockstep : Bool
  /-- Program image digest. -/
  image : List Byte
  /-- CP firmware build. -/
  build : Word
  /-- LPDDR capacity in bytes. -/
  capacity : Nat
  /-- TLK_FWD. -/
  fwd : Word
  /-- STC. -/
  stc : BitVec 64
  deriving DecidableEq, Repr

/-- What a mirror, transfer or ledger-replay segment carries (R200, R213, R225, R335). How the items are laid out in
blocks the spec does not give (log entry 24). -/
inductive SegItem where
  /-- A word of the memory map. -/
  | word (addr : Nat) (w : Word) (tag : Bool)
  /-- A word of external memory. -/
  | ext (addr : Nat) (w : Word)
  /-- A register. -/
  | reg (addr : Nat) (w : Word)
  /-- A word of an engine's register file, by its offset in the register-file window. -/
  | file (eng : Nat) (off : Nat) (w : Word)
  /-- The source's STC. -/
  | stc (v : BitVec 64)
  /-- A stream's descriptor, head, position, and whether a playback has started. -/
  | stream (k : Nat) (d : List Word) (head : Int) (pos : Int) (started : Bool)
  /-- A glide channel's adopted setting, value and remaining steps. -/
  | glide (k : Nat) (ctrl target rate : Word) (v : Word) (rem : Nat)
  /-- The ledger record of a tick: input relay words, sense relay words, entries. -/
  | record (tick : Nat) (inputs sense : List Word) (entries : List LdgEntry)
  /-- The source's ledger ring holds no record of a tick that is needed: a gap (R213, R227). -/
  | gap (tick : Nat)
  /-- A tick's mirror blocks exceeded the room the link left (R227). -/
  | mirrorOverflow
  /-- A word of a frozen relay-out image. -/
  | image (eng : Nat) (off : Nat) (w : Word)
  /-- A swap slot's captured target and whether it was late. -/
  | swap (k : Nat) (target : Nat) (late : Bool)
  /-- A route entry's gains. -/
  | route (k : Nat) (cur old tgt : Int)
  /-- The fade: step, length, law. -/
  | fade (j n : Nat) (law : Bool)
  /-- Output protection of a SAP output channel. -/
  | prot (code : Nat) (dc : Int) (cnt m : Nat)
  /-- A message for mailbox 14 or 15, with the epoch of the partner's CP. -/
  | post (mb : Nat) (epoch : Byte) (data : List Word)
  /-- The epoch of the partner's CP (R328). -/
  | epoch (n : Byte)
  /-- The partner's acknowledge of mailbox 12 or 13. -/
  | ack (mb : Nat) (rc : Nat)
  /-- The partner refused the message of mailbox 12 or 13: MB_GORES code. -/
  | refused (mb : Nat) (code : Nat)
  deriving DecidableEq, Repr

/-- A standard or clock-source request on the USB control endpoint (R353, R354). The descriptors' places in the table at
USB_DESC.BASE are the firmware's: GET_DESCRIPTOR names where in it the bytes lie (log entry 40). -/
inductive UsbReq where
  | setAddress (a : Nat)
  | setConfiguration (v : Nat)
  | getConfiguration
  | setAltOut (a : Nat)
  | setAltIn (a : Nat)
  | setMidiAlt (a : Nat)
  | getAltOut
  | getAltIn
  | getMidiAlt
  | getStatus
  | setRemoteWakeup (on : Bool)
  | getDescriptor (off len : Nat)
  | getRate
  | getRateRange
  | setRate (hz : Nat)
  deriving DecidableEq, Repr

/-- An instruction of the JTAG port (R408). -/
inductive Jtag where
  | bypass | idcode | samplePreload | extest | clamp | highz
  deriving DecidableEq, Repr

/-- When a wake falls (R421): while no entry runs, in an entry before its window, or in the entry window. -/
inductive WakeAt where
  | asleep | entering | window
  deriving DecidableEq, Repr

/-- A master that reaches registers by a command of its own (R328): the two cores, the three host ports, the debug port. -/
inductive Master where
  | secp | cp | spi | i2c | usb | debug
  deriving DecidableEq, Repr

/-- What an Arsic program image holds for one logical engine (R373). The layout of the image's words is not in the spec:
the command that loads its last words says what the check found in it (log entry 60). -/
structure ArsicEng where
  /-- Logical engine. -/
  eng : Nat
  /-- Program memory from word 0 on. -/
  prog : List Word
  /-- ENG_ENC. -/
  enc : Word
  /-- ENG_SETUP_PC. -/
  setup : Word
  /-- ENG_TICK_ENTRY. -/
  entry : Word
  /-- ENG_MODE. -/
  mode : Word
  /-- Front role from word 0 on. -/
  front : List Word
  /-- Pannier role from word 0 on. -/
  pannier : List Word
  /-- Segment descriptors from number 0 on, four words each. -/
  segs : List (List Word)
  /-- REPLAY_CONE. -/
  cone : Word
  deriving DecidableEq, Repr

/-- The commands: one constructor for each row of spec/opcode_table.json. -/
inductive Instr where
  /-- PHASE_0 (R37): At the resynchronised tick edge E(n), phase 0 of a tick begins and performs its ordered
  32-cycle operations. -/
  | phase0 (deferred driveIn : Bool)
  /-- PHASE_1 (R39): After the 32 phase-0 cycles phase 1 begins in the same cycle for every running engine, which
  then issues PLEN bundles. -/
  | phase1
  /-- PHASE_2 (R40): At phase-1 cycle B phase 2 begins: relay-out freezes, journals commit, router pass B, digest
  and streamer planning run. -/
  | phase2
  /-- TICK_RUN (R50): Writing TICK_CTRL.RUN = 1 starts the tick at the first tick-divider edge at least 8 bus-clock
  cycles later. -/
  | tickRun (m : Master) (v : Word)
  /-- TICK_STOP (R50): Writing TICK_CTRL.RUN = 0 lets the current tick complete through phase 2, after which no
  tick begins. -/
  | tickStop (m : Master) (v : Word)
  /-- STC_LOAD (R43): Writing TICK_CTRL.STC_LOAD arms a load of the 64-bit staged value, applied at the next phase
  0 or at once while stopped. -/
  | stcLoad (m : Master) (v : Word)
  /-- STC_LO_READ (R42): A read of STC_LO returns bits 31:0 and latches bits 63:32 into the reading master's
  shadow. -/
  | stcLoRead (m : Master)
  /-- ALARM_EN (R44): A 0-to-1 write of TICK_CTRL.ALARM_EN latches the STC alarm target. -/
  | alarmEn (m : Master) (v : Word)
  /-- STC_ALARM (R44): The STC reaches the alarm target, raising event 54, clearing ALARM_EN and setting ALARM_LATE
  when late. -/
  | stcAlarm
  /-- CADENCE_COMMIT (R48): Writing TICK_CADENCE.COMMIT commits RATE_NEXT for tick T, now or at TICK_CHANGE_AT. -/
  | cadenceCommit (m : Master) (v : Word)
  /-- CADENCE_CANCEL (R48): Writing TICK_CADENCE.CANCEL withdraws a pending cadence change. -/
  | cadenceCancel (m : Master) (v : Word)
  /-- CADENCE_CHANGE (R48): A committed cadence change takes effect at tick T, or pauses the tick for a family
  change. -/
  | cadenceChange
  /-- HOLD_RELEASE (R47): A W1C write to a TICK_HOLD bit releases a held engine once PLEN is within the budget. -/
  | holdRelease (m : Master) (v : Word)
  /-- SOFT_RESET (R453): Writing ENG_CTRL.SOFT_RESET in HALTED or RESET clears the engine registers and enters
  RESET. -/
  | softReset (m : Master) (p : Fin 10) (v : Word)
  /-- HALT (R71): Writing ENG_CTRL.HALT stops setup code, abandons a scan, or ends tick mode after the current
  phase 2. -/
  | halt (m : Master) (p : Fin 10) (v : Word)
  /-- SETUP_GO (R71): Writing ENG_CTRL.SETUP_GO in RESET or HALTED starts setup execution at ENG_SETUP_PC. -/
  | setupGo (m : Master) (p : Fin 10) (v : Word)
  /-- TICK_EN (R71): Writing ENG_CTRL.TICK_EN requests tick mode, or when 0 abandons a scan or ends tick mode. -/
  | tickEn (m : Master) (p : Fin 10) (v : Word)
  /-- SCAN_COMPLETE (R72): The install scan ends, recording PLEN and STORES on success or REASON, ENG_FAULT_PC and
  event 32+n on failure. -/
  | scanComplete (p : Fin 10)
  /-- REGFILE_WINDOW_WRITE (R73): A bus write to the register-file window is accepted only in states that permit it
  and otherwise returns a bus error. -/
  | regfileWindowWrite (m : Master) (p : Fin 10) (w : Fin 1024) (v : Word)
  /-- BUNDLE_ISSUE (R54): An engine issues one bundle of up to five syllables to its units in one ECLK cycle. -/
  | bundleIssue (core : CoreId) (wait : Nat)
  /-- MPY (R82): M operation: the exact Q2.46 product is written to an accumulator or p register. -/
  | mpy (core : CoreId) (x : MArgs)
  /-- MAC (R82): M operation: the product is added to an accumulator modulo 2^56. -/
  | mac (core : CoreId) (x : MArgs)
  /-- MSU (R82): M operation: the product is subtracted from an accumulator modulo 2^56. -/
  | msu (core : CoreId) (x : MArgs)
  /-- MPYN (R82): M operation: the negated product is written to an accumulator or p register. -/
  | mpyn (core : CoreId) (x : MArgs)
  /-- ADDP (R82): M operation: a p register, sign-extended, is added to an accumulator. -/
  | addp (core : CoreId) (x : MArgs)
  /-- ADD (R84): A operation: rd = ra + rb with saturation selected by MOD. -/
  | add (core : CoreId) (x : AArgs)
  /-- SUB (R84): A operation: rd = ra - rb with saturation selected by MOD. -/
  | sub (core : CoreId) (x : AArgs)
  /-- ADDI (R84): A operation: rd = ra + a sign-extended 10-bit immediate under MODE.ASAT. -/
  | addi (core : CoreId) (x : AArgs)
  /-- NEG (R84): A operation: rd = -ra with saturation selected by MOD. -/
  | neg (core : CoreId) (x : AArgs)
  /-- ABS (R84): A operation: rd = |ra| with saturation selected by MOD. -/
  | abs (core : CoreId) (x : AArgs)
  /-- AND (R84): A operation: bitwise AND of two registers. -/
  | and (core : CoreId) (x : AArgs)
  /-- OR (R84): A operation: bitwise OR of two registers. -/
  | or (core : CoreId) (x : AArgs)
  /-- XOR (R84): A operation: bitwise XOR of two registers. -/
  | xor (core : CoreId) (x : AArgs)
  /-- ANDI (R84): A operation: bitwise AND with a zero-extended immediate. -/
  | andi (core : CoreId) (x : AArgs)
  /-- ORI (R84): A operation: bitwise OR with a zero-extended immediate. -/
  | ori (core : CoreId) (x : AArgs)
  /-- XORI (R84): A operation: bitwise XOR with a zero-extended immediate. -/
  | xori (core : CoreId) (x : AArgs)
  /-- NOT (R84): A operation: bitwise complement of ra. -/
  | not (core : CoreId) (x : AArgs)
  /-- SHL (R87): A operation: logical left shift by rb mod 64, giving 0 for counts of 32 or more. -/
  | shl (core : CoreId) (x : AArgs)
  /-- SHR (R87): A operation: logical right shift by rb mod 64. -/
  | shr (core : CoreId) (x : AArgs)
  /-- SRA (R87): A operation: arithmetic right shift by rb mod 64 with sign fill. -/
  | sra (core : CoreId) (x : AArgs)
  /-- ROR (R87): A operation: rotate right by rb mod 32. -/
  | ror (core : CoreId) (x : AArgs)
  /-- SHI (R84): A operation: shift or rotate by an immediate count selected by IMM10 bits 7:6. -/
  | shi (core : CoreId) (x : AArgs)
  /-- MIN (R84): A operation: signed minimum of two registers. -/
  | min (core : CoreId) (x : AArgs)
  /-- MAX (R84): A operation: signed maximum of two registers. -/
  | max (core : CoreId) (x : AArgs)
  /-- CLZ (R84): A operation: count of leading zero bits of ra. -/
  | clz (core : CoreId) (x : AArgs)
  /-- CMP (R86): A operation: rd = 1 if ra meets condition MOD against rb, else 0. -/
  | cmp (core : CoreId) (x : AArgs)
  /-- CMPI (R86): A operation: compare against a sign-extended 7-bit immediate under a 3-bit condition. -/
  | cmpi (core : CoreId) (x : AArgs)
  /-- SEL (R86): A operation: select ra or rb by a g-register condition and the INV bit. -/
  | sel (core : CoreId) (x : AArgs)
  /-- MOV (R88): A operation: copy or convert between register classes, including special registers. -/
  | mov (core : CoreId) (x : AArgs)
  /-- MOVI (R88): A operation: load a sign-extended 16-bit immediate, as Q1.15 into a or p. -/
  | movi (core : CoreId) (x : AArgs)
  /-- MOVHI (R84): A operation: write the immediate into bits 31:16 of a general register. -/
  | movhi (core : CoreId) (x : AArgs)
  /-- RND (R77): A operation: round an accumulator or p register to Q1.23 with the selected rounding and
  saturation. -/
  | rnd (core : CoreId) (x : AArgs)
  /-- ASH (R89): A operation: shift an accumulator by a signed immediate count, setting GOV outside Q2.46. -/
  | ash (core : CoreId) (x : AArgs)
  /-- ADDA (R84): A operation: add two accumulators or p registers modulo 2^56. -/
  | adda (core : CoreId) (x : AArgs)
  /-- SUBA (R84): A operation: subtract two accumulators or p registers modulo 2^56. -/
  | suba (core : CoreId) (x : AArgs)
  /-- EXT (R84): A operation: sign- or zero-extend a byte or half-word of ra. -/
  | ext (core : CoreId) (x : AArgs)
  /-- LDW (R93): L operation: load a word through a segment with latency 3. -/
  | ldw (core : CoreId) (x : LArgs)
  /-- LDH (R92): L operation: load a sign-extended half-word at a lane. -/
  | ldh (core : CoreId) (x : LArgs)
  /-- LDHU (R92): L operation: load a zero-extended half-word at a lane. -/
  | ldhu (core : CoreId) (x : LArgs)
  /-- LDB (R92): L operation: load a sign-extended byte at a lane. -/
  | ldb (core : CoreId) (x : LArgs)
  /-- LDBU (R92): L operation: load a zero-extended byte at a lane. -/
  | ldbu (core : CoreId) (x : LArgs)
  /-- STW (R93): L operation: store a word through a segment, journaled in tick mode for delay memory. -/
  | stw (core : CoreId) (x : LArgs)
  /-- STH (R92): L operation: store bits 15:0 at a half-word lane. -/
  | sth (core : CoreId) (x : LArgs)
  /-- STB (R92): L operation: store bits 7:0 at a byte lane. -/
  | stb (core : CoreId) (x : LArgs)
  /-- STA (R93): L operation: store an accumulator or p register rounded to Q1.23 under MODE. -/
  | sta (core : CoreId) (x : LArgs)
  /-- ADDR (R93): L operation: rt = ra + (rb << SC), modular. -/
  | addr (core : CoreId) (x : LArgs)
  /-- ADDRI (R93): L operation: rt = ra + a signed 11-bit immediate, modular. -/
  | addri (core : CoreId) (x : LArgs)
  /-- LMOV (R93): L operation: register-to-register move for g, w and x. -/
  | lmov (core : CoreId) (x : LArgs)
  /-- SEGRD (R93): L operation: read one word of a segment descriptor. -/
  | segrd (core : CoreId) (x : LArgs)
  /-- SEGWR (R93): L operation: write one word of a segment descriptor with latency 2; word 1 sets a pending
  length. -/
  | segwr (core : CoreId) (x : LArgs)
  /-- PTRADD (R93): L operation: add a register to a segment's pointer or head as a post-modification. -/
  | ptradd (core : CoreId) (x : LArgs)
  /-- LOG2 (R95): X operation: base-2 logarithm into Q8.24 with latency 8. -/
  | log2 (core : CoreId) (x : XArgs)
  /-- EXP2 (R95): X operation: 2^x into Q8.24 or q31 with saturation, latency 8. -/
  | exp2 (core : CoreId) (x : XArgs)
  /-- SINCOS (R95): X operation: sine and/or cosine of a frac32 phase in q31, latency 10. -/
  | sincos (core : CoreId) (x : XArgs)
  /-- TANH (R95): X operation: hyperbolic tangent in q31, latency 10. -/
  | tanh (core : CoreId) (x : XArgs)
  /-- IDIV (R96): X operation: signed integer division truncated toward zero, latency 12. -/
  | idiv (core : CoreId) (x : XArgs)
  /-- IREM (R96): X operation: signed remainder with the sign of the dividend. -/
  | irem (core : CoreId) (x : XArgs)
  /-- UDIV (R96): X operation: unsigned integer division. -/
  | udiv (core : CoreId) (x : XArgs)
  /-- UREM (R96): X operation: unsigned remainder. -/
  | urem (core : CoreId) (x : XArgs)
  /-- FDIV (R96): X operation: q31 fractional division truncated toward zero, latency 14. -/
  | fdiv (core : CoreId) (x : XArgs)
  /-- NOISE (R97): X operation: step generator N and return uniform, triangular or Gaussian-like noise. -/
  | noise (core : CoreId) (x : XArgs)
  /-- RAND (R97): X operation: step generator U and scale the result by rb. -/
  | rand (core : CoreId) (x : XArgs)
  /-- SEED (R97): X operation: load generator N, U or both at the end of cycle i+5. -/
  | seed (core : CoreId) (x : XArgs)
  /-- GETSTATE (R97): X operation: read the state of generator N or U. -/
  | getstate (core : CoreId) (x : XArgs)
  /-- INTERP4 (R98): X operation: four-sample Catmull-Rom, Lagrange or linear interpolation from windowed
  registers. -/
  | interp4 (core : CoreId) (x : XArgs)
  /-- INTERP6 (R98): X operation: six-sample Lagrange interpolation from windowed registers. -/
  | interp6 (core : CoreId) (x : XArgs)
  /-- NOP (R100): C operation with no effect. -/
  | nop (core : CoreId) (arg : BitVec 24)
  /-- WIN (R61): C operation: move the register window base by 8n from the next cycle. -/
  | win (core : CoreId) (arg : BitVec 24)
  /-- CALL (R61): C operation: push the return address and WB, advance the window by the frame and branch after one
  delay bundle. -/
  | call (core : CoreId) (arg : BitVec 24)
  /-- RET (R61): C operation: pop the return stack and restore WB after one delay bundle. -/
  | ret (core : CoreId) (arg : BitVec 24)
  /-- REP (R69): C operation: the following bundle issues n times, n from the immediate or from a g register. -/
  | rep (core : CoreId) (g : Bool) (arg : BitVec 24)
  /-- TICKWAIT (R101): In setup mode moves the engine to SETUP_WAIT; at depth 0 in tick mode marks the tick's last
  bundle. -/
  | tickwait (core : CoreId) (arg : BitVec 24)
  /-- B (R105): Compact branch always taken to the OFF17 target. -/
  | b (core : CoreId) (x : BArgs)
  /-- BEQZ (R105): Compact branch taken when rs is zero. -/
  | beqz (core : CoreId) (x : BArgs)
  /-- BNEZ (R105): Compact branch taken when rs is nonzero. -/
  | bnez (core : CoreId) (x : BArgs)
  /-- BLTZ (R105): Compact branch taken when rs is negative. -/
  | bltz (core : CoreId) (x : BArgs)
  /-- BGEZ (R105): Compact branch taken when rs is zero or positive. -/
  | bgez (core : CoreId) (x : BArgs)
  /-- BGTZ (R105): Compact branch taken when rs is positive. -/
  | bgtz (core : CoreId) (x : BArgs)
  /-- BLEZ (R105): Compact branch taken when rs is zero or negative. -/
  | blez (core : CoreId) (x : BArgs)
  /-- JR (R105): Compact jump to the address in rs with bit 0 cleared. -/
  | jr (core : CoreId) (x : BArgs)
  /-- JAL (R105): Compact jump to the OFF17 target, writing the next instruction address into rs. -/
  | jal (core : CoreId) (x : BArgs)
  /-- RESUME (R322): Return from a trap, restoring PC, WB, REPCNT, IE and RUNLVL from the current level's frame. -/
  | resume (core : CoreId)
  /-- EVWAIT (R324): Stop issue until an event above the current level is pending. -/
  | evwait (core : CoreId)
  /-- INTERRUPT (R320): A pending event routed to a core above its level is taken as an interrupt through the trap
  frame. -/
  | interrupt (core : CoreId)
  /-- BUS_MEMORY_ACCESS (R450): A CP, SECP or host access to a memory region completes on one aligned word, waiting
  for a free engine-memory slot if needed. -/
  | busMemoryAccess (m : Master) (a : BitVec 32) (size : Fin 3) (data : Option Word) (same : Bool)
  /-- EXT_WINDOW_ACCESS (R28): A CP or SECP access in the external memory window reaches LPDDR after outstanding
  near-term bursts, or returns a bus error. -/
  | extWindowAccess (m : Master) (off : BitVec 31) (size : Fin 3) (data : Option Word) (link : Fin 3)
  /-- FRONT_ROLE_WRITE (R157): A bus write to an engine's front coefficient role is refused while the engine runs
  or the word is glide-owned. -/
  | frontRoleWrite (m : Master) (p : Fin 10) (w : BitVec 15) (v : Word)
  /-- PANNIER_ROLE_WRITE (R158): A bus write to the pannier role is refused while an armed slot names the engine,
  and otherwise sets the word's dirty bit. -/
  | pannierRoleWrite (m : Master) (p : Fin 10) (w : BitVec 15) (v : Word)
  /-- REGISTER_WRITE (R11): A write to a register without a row of its own updates its fields under their access
  codes. -/
  | registerWrite (m : Master) (a : BitVec 32) (v : Word)
  /-- CLEAR_ON_READ (R11): A read of an RC field returns its value and clears it. -/
  | clearOnRead (m : Master) (a : BitVec 32)
  /-- SEG_LEN_NEXT_WRITE (R122): A bus write of ENG_SEG_LEN_NEXTk sets the segment's pending length and PEND. -/
  | segLenNextWrite (m : Master) (p : Fin 10) (i : Fin 16) (v : Word)
  /-- ECC_WRITE_BACK (R128): A corrected word is written back in the next free slot of its interleave bank unless
  overwritten first. -/
  | eccWriteBack (a : BitVec 32)
  /-- SCRUB_READ (R129): The engine scrubber reads the next word of an interleave bank after its interval and
  treats errors under R128. -/
  | scrubRead (p : Fin 10) (bank : Fin 25)
  /-- SERAI_SCRUB_READ (R133): The serai scrubber reads the next word of an accessible serai bank after its
  interval. -/
  | seraiScrubRead (bank : Fin 32)
  /-- SERAI_WRITE_BUFFER_DRAIN (R132): An engine's serai write-buffer entry drains into serai no sooner than 8
  cycles after its store. -/
  | seraiWriteBufferDrain (p : Fin 10)
  /-- DDR_INIT (R136): Writing DDR_CTRL.INIT runs LPDDR5 power-up and the five training steps. -/
  | ddrInit (m : Master) (v : Word)
  /-- DDR_TRAINING_COMPLETE (R136): LPDDR training ends, setting READY or TRAIN_FAIL with FAIL_STEP and raising
  event 96. -/
  | ddrTrainingComplete (fail : Fin 7)
  /-- DDR_REFRESH (R137): The controller performs a scheduled refresh or ZQ calibration, taking the bus for at most
  1 us. -/
  | ddrRefresh
  /-- DDR_RETRAIN (R137): Periodic retraining runs every 2^RETRAIN ms. -/
  | ddrRetrain
  /-- MR4_POLL (R137): Every 16 ms MR4 is polled, setting DERATE or HOT and raising event 97. -/
  | mr4Poll (code : BitVec 4) (above hot : Bool)
  /-- BURST_COMPLETE (R149): A queued 64-byte LPDDR burst completes, landing words or reporting link ECC errors. -/
  | burstComplete (link : Fin 3)
  /-- STRM_LOAD (R142): The LOAD command validates the staged descriptor and installs it, or rejects it with a
  reason. -/
  | strmLoad (m : Master) (v : Word)
  /-- STRM_READ (R141): The READ command copies the stored descriptor into the staging registers. -/
  | strmRead (m : Master) (v : Word)
  /-- STRM_START (R152): The START command starts a primed playback stream at tick AT. -/
  | strmStart (m : Master) (v : Word)
  /-- STRM_STOP (R152): The STOP command returns a playback stream to PRIMED from tick AT. -/
  | strmStop (m : Master) (v : Word)
  /-- CLEAR_MISS (R141): The CLEAR_MISS command clears a stream's MISS_CNT. -/
  | clearMiss (m : Master) (v : Word)
  /-- SWAP_SLOT_ARM (R159): Writing SWAP_CTRLk.ARM arms a swap slot with its mask, options and target, or rejects
  it. -/
  | swapSlotArm (m : Master) (k : Fin 4) (v : Word)
  /-- SWAP_SLOT_DISARM (R162): Writing SWAP_CTRLk.DISARM clears an armed slot unless it is executing. -/
  | swapSlotDisarm (m : Master) (k : Fin 4) (v : Word)
  /-- SWAP_EXECUTE (R163): An armed slot reaches its tick and inverts the front roles of its engines in phase-0
  cycle 2. -/
  | swapExecute (k : Fin 4)
  /-- COPY_FORWARD_DONE (R164): Copy-forward finishes on every named engine, setting DONE and raising event 55. -/
  | copyForwardDone (l : Fin 10)
  /-- GLIDE_GO (R167): Writing GLD_CTRLk.GO makes the staged glide settings pending, or rejects them. -/
  | glideGo (m : Master) (ch : Fin 1024) (v : Word)
  /-- GLIDE_ADOPT (R168): A pending glide setting is adopted in phase-0 cycle 3, setting its start value. -/
  | glideAdopt (ch : Fin 1024)
  /-- DETECTION (R181): An engine detector fires and the hardware decides replay or stand-in for the effective
  cone. -/
  | detection (p : Fin 10) (code : BitVec 4) (late : Option (Fin 6))
  /-- MIGRATION_START (R189): Writing MIG_CTRL.START begins migrating a logical engine onto the spare, or is
  rejected. -/
  | migrationStart (m : Master) (v : Word)
  /-- MIGRATION_ABORT (R191): A migration aborts by user request or a fault condition, returning the spare to
  HALTED. -/
  | migrationAbort (m : Master) (v : Word)
  /-- MIGRATION_SHADOW (R190): After the copy completes, the spare starts shadowing the source from the next phase
  0. -/
  | migrationShadow
  /-- MIGRATION_SWAP (R190): After enough clean shadow ticks the spare takes the source's logical number and
  publishes. -/
  | migrationSwap
  /-- BIST_START (R192): Writing BIST_CTRL.START runs memory and logic tests on an idle engine. -/
  | bistStart (m : Master) (v : Word)
  /-- BIST_DONE (R192): An online BIST ends, reporting its result and raising event 52. -/
  | bistDone (at_ : BitVec 3) (addr : BitVec 18)
  /-- LOOP_START (R193): Writing LOOP_CTRL.START loops one SAP at its pads with PRBS-23 data. -/
  | loopStart (m : Master) (v : Word)
  /-- LOOP_STOP (R193): Writing LOOP_CTRL.STOP ends the loop test at the next frame boundary. -/
  | loopStop (m : Master) (v : Word)
  /-- LOOP_DONE (R193): The loop test ends after FRAMES frames and sets DONE. -/
  | loopDone
  /-- TANDEM_ENABLE (R203): Writing TLK_CFG.EN = 1 begins link training and pairing. -/
  | tandemEnable (m : Master) (v : Word)
  /-- LINK_TRAINED (R197): Link training completes, LINK_UP sets and event 100 is raised. -/
  | linkTrained
  /-- NEGOTIATION_FRAME (R205): An intact negotiation frame is received and the pair's version and mode are
  decided. -/
  | negotiationFrame (f : NegFrame) (acked : Bool)
  /-- MARKER_STC_LOAD (R202): The follower loads the leader's STC at the next TLK_TICK marker edge. -/
  | markerStcLoad
  /-- TICK_FRAME_RECEIVE (R200): A partner tick frame arrives; the first intact core copy is used or the frame is
  lost. -/
  | tickFrameReceive (f : TFrame) (ok1 ok2 : Bool)
  /-- SEGMENT_RECEIVE (R200): A 32-block mirror, transfer or ledger-replay segment arrives and is checked by CRC. -/
  | segmentReceive (n : BitVec 32) (items : List SegItem) (ok : Bool)
  /-- EXPRESS_GROUP_RECEIVE (R201): An express sense group from the leader arrives and is checked. -/
  | expressGroupReceive (tick : BitVec 32) (first : Byte) (words : List Word) (ok1 ok2 : Bool)
  /-- LINK_LOSS (R223): Four ticks without an intact core or a TICK mismatch end the pairing to SOLO. -/
  | linkLoss
  /-- LEDGER_SUBMIT (R210): Writing TLK_LDG_CMD.SUBMIT stamps and queues a ledger entry, or rejects it. -/
  | ledgerSubmit (m : Master) (v : Word)
  /-- TLK_KILL_IN (R215): TLK_KILL_IN high for two bus-clock samples sets the latch. -/
  | tlkKillIn (level : Bool)
  /-- FORCE (R215): Writing TLK_LATCH.FORCE sets the latch with CAUSE 5. -/
  | force (m : Master) (v : Word)
  /-- KILL_PARTNER (R215): Writing TLK_LATCH.KILL_PARTNER drives TLK_KILL_OUT high for one tick. -/
  | killPartner (m : Master) (v : Word)
  /-- LATCH_CLEAR (R221): Writing TLK_LATCH.CLEAR clears the latch when the token is not held, leaving the device
  SOLO. -/
  | latchClear (m : Master) (v : Word)
  /-- CLOCK_FAILURE_RELEASE (R217): A token holder whose tick stalls for 2 tick periods releases every shared pad
  and latches with CAUSE 6. -/
  | clockFailureRelease
  /-- TLK_TICK_LOSS (R222): A follower sees no TLK_TICK_IN edge for 1.5 periods and freewheels, promoting if it
  holds the token. -/
  | tlkTickLoss
  /-- REJOIN_START (R226): Writing TLK_REJOIN_CTRL.START begins the COPY phase of a rejoin, or aborts with
  NOTREADY. -/
  | rejoinStart (m : Master) (v : Word)
  /-- REJOIN_ABORT (R227): A rejoin aborts on request or a fault, returning the device to SOLO and raising event
  104. -/
  | rejoinAbort (m : Master) (v : Word)
  /-- REJOIN_SNAP (R226): After COPY completes the source sends the SNAP state of phase 0 of tick Q. -/
  | rejoinSnap
  /-- REJOIN_CATCHUP (R226): Once reader windows have landed the recovering device runs catch-up ticks from the
  ledger. -/
  | rejoinCatchup
  /-- REJOIN_SHADOW (R226): When catch-up reaches the real tick the device joins the tick edges in SHADOW. -/
  | rejoinShadow
  /-- REJOIN_DONE (R226): After CLEAN x 1024 matching ticks the device enters LOCKSTEP, arms itself and raises
  event 104. -/
  | rejoinDone
  /-- SAP_START (R242): Writing SAP_CTRL.EN = 1 starts a port at the next tick edge or first FSYNC, after the
  format check. -/
  | sapStart (m : Master) (k : Fin 8) (v : Word)
  /-- SAP_STOP (R242): Writing SAP_CTRL.EN = 0 stops the port at the end of its current frame. -/
  | sapStop (m : Master) (k : Fin 8) (v : Word)
  /-- RESTART (R238): Writing SAP_CTRL.RESTART realigns the counters at the next FSYNC leading edge. -/
  | restart (m : Master) (k : Fin 8) (v : Word)
  /-- SAP_FRAME_RECEIVE (R236): An input frame completes and is assigned to a tick, checked for bit count and
  slips. -/
  | sapFrameReceive (k : Fin 8) (words : List Word) (count phase : Nat)
  /-- SAP_FRAME_TRANSMIT (R233): An output frame starts carrying a tick's outputs, with slips and fast-lane gain
  steps. -/
  | sapFrameTransmit (k : Fin 8) (lane : List Word)
  /-- SAP_CLOCK_LOST (R241): A follower sees no BCLK or FSYNC for its detection time, sets LOST and substitutes its
  inputs. -/
  | sapClockLost (k : Fin 8)
  /-- SAP_RATE_MEASURED (R241): After 16 frames a returned clock's rate is judged and the port resumes or reports
  RATE_CHANGE. -/
  | sapRateMeasured (k : Fin 8) (dev : Int)
  /-- ASRC_SETTLE (R246): An ASRC group's ratio settles and its channels begin their ramp. -/
  | asrcSettle (g : Fin 4) (rho : Word)
  /-- ASRC_UNSETTLE (R247): An ASRC group unsettles on a ratio step, loss, range or FIFO fault and ramps its
  channels to 0. -/
  | asrcUnsettle (g : Fin 4) (why : Fin 4)
  /-- MCLK_CHANGE (R248): A change of MCLK source or divider stops the output at its period end and restarts it at
  the next E(n). -/
  | mclkChange (m : Master) (k : Fin 4) (v : Word)
  /-- ROUTE_ENDPOINT_WRITE (R254): A write to RT_EPk is accepted only while the entry's gains are zero. -/
  | routeEndpointWrite (m : Master) (k : Fin 4096) (v : Word)
  /-- ROUTE_COMMIT (R255): Writing RTR_COMMIT.COMMIT makes a route commit pending with its fade and law. -/
  | routeCommit (m : Master) (v : Word)
  /-- ROUTE_CANCEL (R255): Writing RTR_COMMIT.CANCEL withdraws a pending commit. -/
  | routeCancel (m : Master) (v : Word)
  /-- ROUTE_COMMIT_EFFECT (R256): A pending commit takes effect, capturing staged gains and starting the derailleur
  fade. -/
  | routeCommitEffect
  /-- FADE_DONE (R258): The fade counter reaches N, setting DONE and raising event 72. -/
  | fadeDone
  /-- DC_TRIP (R261): A DC detector's count reaches HOLD x 16, tripping the channel and starting its mute fade. -/
  | dcTrip (code : Byte)
  /-- FAST_LANE_ACTIVATE (R262): A requested fast-lane route becomes active or faults at a frame start. -/
  | fastLaneActivate (j : Fin 16)
  /-- METER_CONFIG_WRITE (R267): Enabling or reconfiguring a meter point restarts its measurements. -/
  | meterConfigWrite (m : Master) (k : Byte) (v : Word)
  /-- SILENCE_ENTER (R269): A meter point becomes silent after HOLD x 64 quiet ticks, setting SIL_CHG. -/
  | silenceEnter (k : Byte)
  /-- CLK_ECLK_COMMIT (R275): Writing CLK_ECLK.COMMIT commits an ECLK divider change for tick T. -/
  | clkEclkCommit (m : Master) (v : Word)
  /-- CLK_ECLK_CANCEL (R275): Writing CLK_ECLK.CANCEL withdraws a pending ECLK change. -/
  | clkEclkCancel (m : Master) (v : Word)
  /-- ECLK_CHANGE (R275): A committed ECLK divider takes effect at tick T or while stopped, and PLEN is rechecked. -/
  | eclkChange
  /-- SEED_LOAD (R274): Writing AUD_CFG.SEED_LOAD loads SEED into the AUDPLL dither LFSR. -/
  | seedLoad (m : Master) (v : Word)
  /-- TRK_SOURCE_WRITE (R285): A write of TRK_CTRL SRC, NUM or DEN is a loss with cause SOURCE, or turns tracking
  off. -/
  | trkSourceWrite (m : Master) (v : Word)
  /-- TRK_ACQUIRE (R278): After 16 reference edges c is set to the frequency estimate and phase is aligned. -/
  | trkAcquire (cRef perr : Int)
  /-- TRK_LOCK (R278): After 64 accepted edges within bound TRKPLL becomes LOCKED and gated outputs restart. -/
  | trkLock (perr : Int)
  /-- TRK_REFERENCE_LOSS (R279): The reference is lost and TRKPLL freewheels on C_HOLD, raising event 78. -/
  | trkReferenceLoss (why : BitVec 2)
  /-- TRK_REF_BACK (R281): Sixteen good edges in freewheel set REF_BACK and start slew or snap return. -/
  | trkRefBack (cRef perr : Int)
  /-- SLEW_COMPLETE (R281): The slewed phase error falls within 256 units and c returns to the reference estimate. -/
  | slewComplete
  /-- SNAP (R282): At the chosen tick E(T+1) is delayed by the phase error, lengthening tick T. -/
  | snap
  /-- SNAP_CMD (R282): Writing TRK_CTRL.SNAP requests a snap at the next tick in SNAP_CMD mode. -/
  | snapCmd (m : Master) (v : Word)
  /-- TRK_C_DECAY (R285): With SRC = 0, c moves one unit toward 0 every 1024 ticks. -/
  | trkCDecay
  /-- SYS_RESTART (R286): Writing CLK_CFG.SYS_RESTART starts a SYSPLL relock on the safe clock. -/
  | sysRestart (m : Master) (v : Word)
  /-- SYSPLL_UNLOCK (R286): SYSPLL loses lock; its clocks switch to SAFECLK and ticks are skipped. -/
  | syspllUnlock
  /-- SYSPLL_LOCK (R286): SYSPLL locks and the clocks switch back in the next idle gap. -/
  | syspllLock
  /-- SYSPLL_TIMEOUT (R286): SYSPLL fails to lock within 200 us and restarts once, or sets SYS_FAIL. -/
  | syspllTimeout
  /-- AUDPLL_UNLOCK (R287): AUDPLL loses lock and the tick pauses. -/
  | audpllUnlock
  /-- AUDPLL_LOCK (R273): AUDPLL achieves lock, setting AUD_LOCKED and resuming a paused tick. -/
  | audpllLock
  /-- AUDPLL_TIMEOUT (R287): AUDPLL fails to relock in time and retries once, or sets AUD_FAIL. -/
  | audpllTimeout
  /-- XTAL_FAIL (R288): No reference edge for 1 us switches the clocks to the RC oscillator and pauses the tick. -/
  | xtalFail
  /-- XTAL_OK (R288): After 1024 good reference edges the PLLs relock and the tick resumes. -/
  | xtalOk
  /-- SENSE_SCAN_START (R294): The keybed scan starts at the first tick edge after SENSE_CTRL.EN is set while the
  tick runs. -/
  | senseScanStart
  /-- SENSE_SCAN_STOP (R294): Writing SENSE_CTRL.EN = 0 stops the scan at the end of the current tick. -/
  | senseScanStop (m : Master) (v : Word)
  /-- SENSE_CONVERSION (R296): At each slot all 16 ADCs convert one multiplexer address and the extractor processes
  each point. -/
  | senseConversion (codes : BitVec 256)
  /-- ADC_MONITOR_FAULT (R299): An ADC reference monitor leaves or returns within tolerance, faulting or clearing
  its 16 points. -/
  | adcMonitorFault (k : Fin 16) (bad : Bool)
  /-- SENSE_READY (R305): Four ticks after the scan starts READY sets and event 87 is raised. -/
  | senseReady
  /-- SENSE_CAL (R301): Writing SENSE_CTRL.CAL while stopped calibrates all 16 ADCs. -/
  | senseCal (m : Master) (v : Word)
  /-- SENSE_CAL_DONE (R301): ADC calibration ends, setting CAL_DONE and possibly CAL_FAIL. -/
  | senseCalDone (fail : BitVec 16)
  /-- SENSE_FIFO_POP (R304): A read of SENSE_FIFOk_B returns word B of the head entry and removes it. -/
  | senseFifoPop (m : Master) (k : Fin 2)
  /-- AUX_CMP_CHANGE (R306): The AUX comparator output changes, setting CHG and acting as a level wake source. -/
  | auxCmpChange (level : Bool)
  /-- ACT_ENABLE (R308): Writing ACT_CTRL.EN = 1 restarts the channel's period counter at the next E(n). -/
  | actEnable (m : Master) (k : Fin 32) (v : Word)
  /-- ACT_DISABLE (R308): Writing ACT_CTRL.EN = 0 places the channel in the off state at the end of its period. -/
  | actDisable (m : Master) (k : Fin 32) (v : Word)
  /-- ACT_PERIOD (R312): An actuator period ends, updating the energy accumulator and adopting the next duty. -/
  | actPeriod (k : Fin 32)
  /-- ACT_DRIVER_FAULT (R314): ACT_FLT_N low for 256 bus cycles trips every channel of its group with cause DRIVER. -/
  | actDriverFault (g : Fin 4) (low : Bool)
  /-- KILL (R314): Writing ACT_STATUS.KILL trips every actuator channel. -/
  | kill (m : Master) (v : Word)
  /-- ACT_TRIP_CLEAR (R315): A W1C clear of an ACT_TRIP bit holds only when energy, current and driver conditions
  allow. -/
  | actTripClear (m : Master) (v : Word)
  /-- ACT_LIMIT_WRITE (R316): A write of an actuator limit is capped at its fused ceiling and sets CEIL. -/
  | actLimitWrite (m : Master) (k : Fin 32) (which : Fin 3) (v : Word)
  /-- HOST_IRQ_UPDATE (R326): HOST_IRQ changes level 1 to 4 bus-clock cycles after the host-routed pending state
  changes. -/
  | hostIrqUpdate
  /-- CP_RESET (R328): An SECP write of CP_CTRL.RESET resets the CP core and increments its epoch. -/
  | cpReset (m : Master) (v : Word)
  /-- MB_DATA_WRITE (R330): A listed sender's write to MB_DATAk stores the word in IDLE or ACKED. -/
  | mbDataWrite (m : Master) (mb : Fin 24) (k : Fin 16) (v : Word)
  /-- GO (R330): Writing MB_CTRL.GO posts the message with its stamp, or records NACK or BUSY. -/
  | go (m : Master) (mb : Fin 24)
  /-- ACK (R330): The receiver's write of MB_ACK moves a posted mailbox to ACKED with its return code. -/
  | ack (m : Master) (mb : Fin 24) (rc : BitVec 16)
  /-- WITHDRAW (R330): The sender's write of MB_CTRL.WITHDRAW returns a posted mailbox to IDLE. -/
  | withdraw (m : Master) (mb : Fin 24)
  /-- CLEAR (R330): A listed sender's write of MB_CTRL.CLEAR returns an ACKED mailbox to IDLE. -/
  | clear (m : Master) (mb : Fin 24)
  /-- EPOCH_INC (R328): A host port's write of MB_CTRL.EPOCH_INC increments its epoch and releases its semaphores. -/
  | epochInc (m : Master) (mb : Fin 24)
  /-- MB_TIMEOUT (R332): A posted mailbox's timeout count reaches UNITS, setting TIMEOUT and raising its event. -/
  | mbTimeout (mb : Fin 24)
  /-- BELL_RING (R337): Writing BELL_RINGg sets bells and raises event 24+g for masked-in bells. -/
  | bellRing (m : Master) (g : Fin 8) (mask : Byte)
  /-- BELL_CLEAR (R337): A W1C write to BELLg clears bells, losing to a same-cycle set. -/
  | bellClear (m : Master) (g : Fin 8) (v : Word)
  /-- SEM_ACQUIRE (R338): A read of SEMk acquires a free semaphore or returns BUSY with the owner. -/
  | semAcquire (m : Master) (k : BitVec 6)
  /-- SEM_RELEASE (R339): The owner's write of SEM_REL.RELEASE releases semaphore k. -/
  | semRelease (m : Master) (k : BitVec 6)
  /-- SEM_FORCE_RELEASE (R339): An SECP write of SEM_REL.FORCE releases semaphore k whatever its owner. -/
  | semForceRelease (m : Master) (k : BitVec 6)
  /-- SPI_FRAME (R346): A host SPI frame between CS_N edges is checked and its window words read or written. -/
  | spiFrame (b : List Byte)
  /-- I2C_WRITE (R350): An I2C write transaction applies each complete word to the host window. -/
  | i2cWrite (addr : BitVec 7) (b : List Byte)
  /-- I2C_READ (R350): An I2C read transaction returns window words until the host NACKs. -/
  | i2cRead (addr : BitVec 7) (i0 i1 : Byte) (n : Nat)
  /-- I2C_STUCK_BUS (R350): SCL held low for 25 ms abandons the transaction and sets I2C_PROTO. -/
  | i2cStuckBus
  /-- I2C_ADDRESS_MATCH (R351): With WAKE_EN the clockless comparator matches the address, holds SCL and asserts a
  level wake. -/
  | i2cAddressMatch (addr : BitVec 7) (at_ : WakeAt)
  /-- USB_BUS_RESET (R353): A USB bus reset sets BUSRESET, increments the vendor epoch and raises event 108. -/
  | usbBusReset (hs : Bool)
  /-- USB_SUSPEND (R353): The USB bus suspends, setting SUSPEND and raising event 108. -/
  | usbSuspend
  /-- USB_RESUME (R423): A K state on the bus resumes USB and, when armed, wakes the wake set and PD_USB. -/
  | usbResume (at_ : WakeAt)
  /-- USB_STANDARD_REQUEST (R353): A standard or clock-source request is answered by hardware from the descriptors. -/
  | usbStandardRequest (q : UsbReq)
  /-- USB_OUT_PACKET (R355): An isochronous OUT packet enters the FIFO, dropping old frames on overrun. -/
  | usbOutPacket (b : List Byte)
  /-- USB_IN_PACKET (R355): An isochronous IN packet carries all frames accumulated since the previous packet. -/
  | usbInPacket (collected : Bool)
  /-- USB_FEEDBACK (R355): The feedback endpoint reports averaged ticks per microframe. -/
  | usbFeedback (ticks : Nat)
  /-- USB_MIDI_OUT_PACKET (R356): A USB MIDI OUT packet enters the receive ring, or is NAKed while the ring is
  full. -/
  | usbMidiOutPacket (b : List Byte)
  /-- USB_MIDI_IN_PACKET (R356): A queued MIDI packet is sent from the transmit ring on the bulk IN endpoint. -/
  | usbMidiInPacket
  /-- USB_VENDOR_REQUEST (R357): A vendor bulk request reaches the host window and its response is returned on bulk
  IN. -/
  | usbVendorRequest (b : List Byte)
  /-- USB_INTERRUPT_POLL (R357): The interrupt IN endpoint sends EVT_SUM0-3 at the first poll after a summary bit
  sets. -/
  | usbInterruptPoll (clock : Bool)
  /-- RWAKE (R353): Writing USB_CTRL.RWAKE signals remote wakeup if the host enabled it. -/
  | rwake (m : Master) (v : Word)
  /-- MIDI_RX_BYTE (R359): A DIN MIDI byte is received, stamped and pushed into the receive FIFO. -/
  | midiRxByte (k : Fin 4) (b : Byte) (ferr : Bool) (time : BitVec 5)
  /-- MIDI_RX_POP (R359): A read of MIDI_RX_B returns the entry's STC and removes it. -/
  | midiRxPop (m : Master) (k : Fin 4)
  /-- MIDI_TX_WRITE (R360): A write to MIDI_TXk queues a byte, or sets TXOVF when full. -/
  | midiTxWrite (m : Master) (k : Fin 4) (v : Word)
  /-- MIDI_TX_BYTE_SENT (R360): A byte finishes transmitting and the next queued byte starts. -/
  | midiTxByteSent (k : Fin 4)
  /-- HELLO (R368): Ndomus command that negotiates the interface version for a sender. -/
  | hello (mb : Fin 24)
  /-- READY_QUERY (R371): Ndomus command that returns READY, failures, image information and the STC. -/
  | readyQuery (mb : Fin 24)
  /-- PROGRAM_LOAD (R372): Ndomus command that delivers image words into a load buffer and checks the image on
  LAST. -/
  | programLoad (mb : Fin 24) (img : Option (List ArsicEng))
  /-- PROGRAM_INSTALL (R373): Deferred Ndomus command that fades routes, installs engines from an image and rescans
  them. -/
  | programInstall (mb : Fin 24)
  /-- PARAM_WRITE (R374): Ndomus command that writes coefficient words into the front or pannier role. -/
  | paramWrite (mb : Fin 24)
  /-- SWAP_ARM (R375): Ndomus command that arms the lowest free swap slot. -/
  | swapArm (mb : Fin 24)
  /-- SWAP_DISARM (R375): Ndomus SWAP_ARM with DISARM set disarms a slot. -/
  | swapDisarm (mb : Fin 24)
  /-- GLIDE_SET (R376): Ndomus command that stages and starts up to three glide channels. -/
  | glideSet (mb : Fin 24)
  /-- ROUTE_SET (R377): Ndomus command that stages routes per sender and commits them on COMMIT. -/
  | routeSet (mb : Fin 24)
  /-- PORT_CONFIG (R378): Ndomus command that configures a SAP, ASRC group or channel, or MCLK output. -/
  | portConfig (mb : Fin 24)
  /-- CLOCK_CONFIG (R379): Ndomus command that sets tracking and commits cadence and ECLK changes. -/
  | clockConfig (mb : Fin 24)
  /-- SENSE_CONFIG (R380): Ndomus command that configures the scan, points, tables and calibration. -/
  | senseConfig (mb : Fin 24)
  /-- ACT_CONFIG (R381): Ndomus command that configures an actuator channel and reports its capped limits. -/
  | actConfig (mb : Fin 24)
  /-- CLEAR_TRIP (R381): ACT_CONFIG with CLEAR_TRIP clears a channel's trip if it holds. -/
  | clearTrip (mb : Fin 24)
  /-- METER_READ (R382): Ndomus command that reads or configures meter points. -/
  | meterRead (mb : Fin 24)
  /-- EVENT_SUBSCRIBE (R383): Ndomus command that replaces a sender's event subscription. -/
  | eventSubscribe (mb : Fin 24)
  /-- NOTIFICATION (R384): Ndomus posts a notification for a subscribed event in the reply mailbox. -/
  | notification (e : BitVec 7)
  /-- DEFERRED_COMPLETION (R364): A deferred Ndomus command finishes and posts its completion message. -/
  | deferredCompletion (j : Nat) (bad : Bool)
  /-- POWER_STATE (R385): Deferred Ndomus command that changes domain power states in payload order. -/
  | powerState (mb : Fin 24)
  /-- TANDEM_PAIR (R386): Ndomus command that writes the tandem configuration and starts pairing. -/
  | tandemPair (mb : Fin 24)
  /-- REJOIN (R386): TANDEM_PAIR with REJOIN starts a deferred rejoin. -/
  | rejoin (mb : Fin 24)
  /-- ABORT_REJOIN (R386): TANDEM_PAIR with ABORT_REJOIN aborts a rejoin. -/
  | abortRejoin (mb : Fin 24)
  /-- CLEAR_LATCH (R386): TANDEM_PAIR with CLEAR_LATCH clears the fail-silent latch. -/
  | clearLatch (mb : Fin 24)
  /-- MOVE (R386): TANDEM_PAIR with MOVE submits a token move as a ledger entry. -/
  | move (mb : Fin 24)
  /-- TANDEM_KILL_PARTNER (R386): TANDEM_PAIR with KILL_PARTNER drives TLK_KILL_OUT. -/
  | tandemKillPartner (mb : Fin 24)
  /-- FORCE_LATCH (R386): TANDEM_PAIR with FORCE_LATCH sets the device's own latch. -/
  | forceLatch (mb : Fin 24)
  /-- TANDEM_STATUS (R386): Ndomus command that returns the tandem status registers. -/
  | tandemStatus (mb : Fin 24)
  /-- UPDATE_STAGE (R387): Ndomus command that programs an update into the inactive slot and marks it pending. -/
  | updateStage (mb : Fin 24) (bad : Bool)
  /-- COUNTER_ADVANCE (R388): Deferred Ndomus command that confirms the image and advances the anti-rollback
  counter. -/
  | counterAdvance (mb : Fin 24)
  /-- REG_READ (R371): DIAG sub-operation that reads consecutive registers. -/
  | regRead (mb : Fin 24)
  /-- REG_WRITE (R371): DIAG sub-operation that writes consecutive registers. -/
  | regWrite (mb : Fin 24)
  /-- MIGRATE (R371): DIAG sub-operation that runs a spare migration. -/
  | migrate (mb : Fin 24)
  /-- BIST (R371): DIAG sub-operation that runs online BIST. -/
  | bist (mb : Fin 24)
  /-- LOOP (R371): DIAG sub-operation that runs a port loop test. -/
  | loop (mb : Fin 24)
  /-- COUNTERS (R371): DIAG sub-operation that reads and clears the diagnostic counters. -/
  | counters (mb : Fin 24)
  /-- RECOVERY_HELLO (R404): Recovery request that returns fuse state, slot states and boot status. -/
  | recoveryHello
  /-- RECOVERY_LOAD (R404): Recovery request that stores image words into the recovery buffer. -/
  | recoveryLoad
  /-- RECOVERY_CHECK (R404): Recovery request that checks the buffered image's format, rollback value and tag. -/
  | recoveryCheck
  /-- RECOVERY_WRITE (R404): Recovery request that programs a checked image into a slot as PENDING. -/
  | recoveryWrite (bad : Bool)
  /-- RECOVERY_BOOT (R404): Recovery request that boots the checked image from the buffer. -/
  | recoveryBoot
  /-- ENROL (R404): Recovery request that programs slots, CIK and DUK and advances to Customer. -/
  | enrol
  /-- LIFECYCLE (R404): Recovery request that advances the lifecycle. -/
  | lifecycle
  /-- RECOVERY_REBOOT (R404): Recovery request that reboots through SEC_CTRL.REBOOT. -/
  | recoveryReboot
  /-- BOOT_ROM_START (R396): The SECP boot ROM runs, classifying and loading slots, fast-waking or entering
  recovery. -/
  | bootRomStart (bootsel : BitVec 2) (late : BitVec 2)
  /-- KEY_LOCK (R395): Setting SEC_CTRL.KEY_LOCK hides the keys and restricts hash operations. -/
  | keyLock (m : Master) (v : Word)
  /-- REBOOT (R389): Writing SEC_CTRL.REBOOT resets every domain except PD_AON and restarts the ROM. -/
  | reboot (m : Master) (v : Word)
  /-- ARB_SET (R402): Fuse operation that blows anti-rollback bits up to v. -/
  | arbSet (m : Master) (v : Word)
  /-- LC_ADVANCE (R409): Fuse operation that moves the lifecycle forward. -/
  | lcAdvance (m : Master) (v : Word)
  /-- SLOT_PROG (R409): Fuse operation that programs the slot offsets. -/
  | slotProg (m : Master) (v : Word)
  /-- CIK_PROG (R409): Fuse operation that programs the Customer Image Key. -/
  | cikProg (m : Master) (v : Word)
  /-- DUK_GEN (R409): Fuse operation that generates the Device Unique Key from the internal random source. -/
  | dukGen (m : Master) (v : Word)
  /-- CEIL_PROG (R410): Fuse operation that lowers a fused protection or actuator ceiling. -/
  | ceilProg (m : Master) (v : Word)
  /-- FUSE_OP_DONE (R409): A fuse operation ends, setting DONE or FAIL and raising event 125. -/
  | fuseOpDone (bad : BitVec 256)
  /-- SEAL (R406): Writing SEC_REC_CTRL.SEAL hashes the named regions and seals the boot record, or sets FAIL. -/
  | seal (m : Master) (v : Word)
  /-- SEAL_DONE (R406): The boot-record seal completes and VALID sets. -/
  | sealDone
  /-- OSPI_READ (R390): OSPI operation that reads flash bytes into the buffer. -/
  | ospiRead (m : Master) (v : Word)
  /-- OSPI_PROGRAM (R390): OSPI operation that programs a flash page unless write-protected. -/
  | ospiProgram (m : Master) (v : Word)
  /-- OSPI_ERASE_4K (R390): OSPI operation that erases a 4 KiB sector. -/
  | ospiErase4k (m : Master) (v : Word)
  /-- OSPI_ERASE_64K (R390): OSPI operation that erases a 64 KiB block. -/
  | ospiErase64k (m : Master) (v : Word)
  /-- OSPI_DONE (R390): An OSPI operation ends, setting DONE or FAIL. -/
  | ospiDone (timeout : Bool)
  /-- DEBUG_ACCESS (R408): A debug access port access is served or refused by lifecycle, raising event 126 when
  refused. -/
  | debugAccess (a : BitVec 32) (data : Option Word)
  /-- JTAG_INSTRUCTION (R408): An IEEE 1149.1 instruction is executed through the JTAG port. -/
  | jtagInstruction (i : Jtag)
  /-- SET (R415): PMU operation that moves one domain to a state after its checks. -/
  | set (m : Master) (v : Word)
  /-- STANDBY (R415): PMU operation that moves every domain except PD_AON to retention or off. -/
  | standby (m : Master) (v : Word)
  /-- WAKE (R415): PMU operation that runs the wake sequence for the wake set. -/
  | wake (m : Master) (v : Word)
  /-- PREP_COMPLETE (R417): Both cores halt in EVWAIT with no seal running and the entry proceeds. -/
  | prepComplete
  /-- PREP_TIMEOUT (R417): The cores do not quiesce within 10 ms and the operation ends with QUIESCE. -/
  | prepTimeout
  /-- WAKE_PIN (R423): An armed WAKE pin level or edge requests a wake of the wake set. -/
  | wakePin (level : Bool) (at_ : WakeAt)
  /-- RTC_ALARM (R426): The RTC count equals RTC_ALARM, setting ALARM, raising event 123 and requesting an edge
  wake. -/
  | rtcAlarm (at_ : WakeAt)
  /-- RTC_XTAL_FAIL (R426): XTAL32K stops for four RC periods and the RTC switches to the RC oscillator. -/
  | rtcXtalFail
  /-- WAKE_SEQUENCE (R424): A wake request starts the regulator, oscillator, memory and logic steps for the wake
  set. -/
  | wakeSequence
  /-- WAKE_STEP_READY (R424): A wake step reports ready and the next step starts, domains reaching on with
  DOM_READY. -/
  | wakeStepReady (dt : Nat)
  /-- WAKE_STEP_TIMEOUT (R424): A wake step times out and is repeated once, or fails with WAKEFAIL, DEGRADED or
  MEMFAIL. -/
  | wakeStepTimeout
  /-- PAD_HOLD_RELEASE (R419): Writing a PMU_PAD_HOLD bit while its domain is on releases the domain's held pads. -/
  | padHoldRelease (m : Master) (v : Word)
  /-- BROWN_OUT (R422): VIN_AON browns out, resetting PD_AON and raising event 121 afterwards. -/
  | brownOut (sel : Bool)
  /-- POWER_ON (R422): VIN_AON rises and the power-on reset releases after 2 ms. -/
  | powerOn (sel : Bool)
  /-- PIN_RESET (R432): SYS_RESET_N held low resets the device. -/
  | pinReset
  deriving DecidableEq, Repr

end Sys2Proof
end

