-- ==== Sys2Proof/Decode.lean ====
section
/-! DEFINITION. Reading encodings: the syllables of the bundle encoding (spec/03, spec/04 R80 to R100) and the compact
instructions (R102 to R106), total on every word, with reserved and undefined encodings named as such. The rows of
spec/opcode_table.json give no bits, so `decodeTableWord` spells no command. -/

namespace Sys2Proof

/-- The unsigned value of bits hi down to lo (R16). -/
def bits (w hi lo : Nat) : Nat := (w >>> lo) % 2 ^ (hi + 1 - lo)

/-- `sext(x, w)` of R16 on a number. -/
def sext (x w : Nat) : Int := (BitVec.ofNat w x).toInt

/-- One M operand field (R81). -/
def decodeMOpd (f : Nat) : MOpd :=
  if bits f 9 9 = 0 then .reg (BitVec.ofNat 6 f)
  else if bits f 4 4 = 0 then .mem (BitVec.ofNat 4 (bits f 8 5)) (BitVec.ofNat 4 f)
  else .step (BitVec.ofNat 4 (bits f 8 5)) (BitVec.ofNat 4 f)

/-- M operation codes (R82). -/
def decodeMOp : Nat → Option MOp
  | 0 => some .mpy | 1 => some .mac | 2 => some .msu | 3 => some .mpyn | 4 => some .addp
  | _ => none

/-- A operation codes (R84). -/
def decodeAOp : Nat → Option AOp
  | 0 => some .add | 1 => some .sub | 2 => some .addi | 3 => some .neg | 4 => some .abs | 5 => some .and
  | 6 => some .or | 7 => some .xor | 8 => some .andi | 9 => some .ori | 10 => some .xori | 11 => some .not
  | 12 => some .shl | 13 => some .shr | 14 => some .sra | 15 => some .ror | 16 => some .shi | 17 => some .min
  | 18 => some .max | 19 => some .clz | 20 => some .cmp | 21 => some .cmpi | 22 => some .sel | 23 => some .mov
  | 24 => some .movi | 25 => some .movhi | 26 => some .rnd | 27 => some .ash | 28 => some .adda | 29 => some .suba
  | 30 => some .ext
  | _ => none

/-- L operation codes (R93). -/
def decodeLOp : Nat → Option LOp
  | 0 => some .ldw | 1 => some .ldh | 2 => some .ldhu | 3 => some .ldb | 4 => some .ldbu | 5 => some .stw
  | 6 => some .sth | 7 => some .stb | 8 => some .sta | 9 => some .addr | 10 => some .addri | 11 => some .lmov
  | 12 => some .segrd | 13 => some .segwr | 14 => some .ptradd
  | _ => none

/-- X operations by MAJOR and MINOR (R95 to R98). -/
def decodeXOp : Nat → Nat → Option XOp
  | 0, 0 => some .log2 | 0, 1 => some .exp2 | 0, 2 => some .sincos | 0, 3 => some .tanh
  | 1, 0 => some .idiv | 1, 1 => some .irem | 1, 2 => some .udiv | 1, 3 => some .urem | 1, 4 => some .fdiv
  | 2, 0 => some .noise | 2, 1 => some .rand | 2, 2 => some .seed | 2, 3 => some .getstate
  | 3, 0 => some .interp4 | 3, 1 => some .interp6
  | _, _ => none

/-- C operation codes (R100). -/
def decodeCOp : Nat → Option COp
  | 0 => some .nop | 1 => some .win | 2 => some .call | 3 => some .ret | 4 => some .rep | 5 => some .repg
  | 6 => some .tickwait
  | _ => none

/-- The class-specific part of a syllable, bits 27:0, of a given class. -/
def decodeBody (cls : Cls) (w : Nat) : Syl :=
  match cls with
  | .m =>
    match decodeMOp (bits w 26 23) with
    | some op => .m op ⟨bits w 27 27 = 1, BitVec.ofNat 3 (bits w 22 20), decodeMOpd (bits w 19 10), decodeMOpd (bits w 9 0)⟩
    | none => .undef .m (bits w 27 27 = 1) (BitVec.ofNat 6 (bits w 22 20))
  | .a =>
    match decodeAOp (bits w 26 22) with
    | some op => .a op ⟨BitVec.ofNat 6 (bits w 21 16), BitVec.ofNat 16 w⟩
    | none => .undef .a false (BitVec.ofNat 6 (bits w 21 16))
  | .l =>
    match decodeLOp (bits w 26 23) with
    | some op => .l op ⟨BitVec.ofNat 6 (bits w 22 17), BitVec.ofNat 17 w⟩
    | none => .undef .l false (BitVec.ofNat 6 (bits w 22 17))
  | .x =>
    match decodeXOp (bits w 27 24) (bits w 23 20) with
    | some op =>
      .x op ⟨BitVec.ofNat 6 (bits w 19 14), BitVec.ofNat 6 (bits w 13 8), BitVec.ofNat 6 (bits w 7 2), BitVec.ofNat 2 w⟩
    | none => .undef .x false (BitVec.ofNat 6 (bits w 19 14))
  | .c =>
    match decodeCOp (bits w 26 24) with
    | some op => .c op (BitVec.ofNat 24 w)
    | none => .undef .c false 0

/-- One syllable of the bundle encoding. -/
def decodeSyl (w : Word) : Syl :=
  match bits w.toNat 30 28 with
  | 0 => decodeBody .m w.toNat
  | 1 => decodeBody .a w.toNat
  | 2 => decodeBody .l w.toNat
  | 3 => decodeBody .x w.toNat
  | 4 => decodeBody .c w.toNat
  | _ => .reserved

/-- STOP, bit 31 of a syllable. -/
def sylStop (w : Word) : Bool := bits w.toNat 31 31 = 1

/-- Branch conditions (R105). -/
def decodeBCond : Nat → Option BCond
  | 0 => some .b | 1 => some .beqz | 2 => some .bnez | 3 => some .bltz | 4 => some .bgez | 5 => some .bgtz
  | 6 => some .blez | 7 => some .jr | 8 => some .jal
  | _ => none

/-- Of a syllable in compact code an undefined encoding is an undefined instruction (R109). -/
def compactOf (s : Syl) : Compact :=
  match s with
  | .undef _ _ _ => .undef
  | .reserved => .undef
  | s => .syl s

/-- One 32-bit compact instruction, bits 1:0 being 0b11 (R102, R105). BODY is bits 28:2, and bit 27 of the syllable
is 0. -/
def decode32 (w : Word) : Compact :=
  let body := bits w.toNat 28 2
  match bits w.toNat 31 29 with
  | 0 => compactOf (decodeBody .a body)
  | 1 => compactOf (decodeBody .l body)
  | 2 => compactOf (decodeBody .x body)
  | 3 => compactOf (decodeBody .c body)
  | 4 => compactOf (decodeBody .m body)
  | 5 =>
    match decodeBCond (bits w.toNat 28 25) with
    | some c => .branch c (BitVec.ofNat 6 (bits w.toNat 24 19)) (sext (bits w.toNat 18 2) 17)
    | none => .undef
  | _ => .undef

/-- A 4-bit D or S field (R106): 0 to 7 name g0 to g7, 8 to 15 name w0 to w7; in specifiers these are the same numbers. -/
def spec4 (f : Nat) : BitVec 6 := BitVec.ofNat 6 f

/-- An A syllable of layout RR with MOD `md`. -/
def mkRR (op : AOp) (rd ra rb : BitVec 6) (md : BitVec 4) : Compact := .syl (.a op ⟨rd, (ra ++ rb) ++ md⟩)

/-- An A syllable of layout RI. -/
def mkRI (op : AOp) (rd ra : BitVec 6) (imm : Nat) : Compact := .syl (.a op ⟨rd, ra ++ BitVec.ofNat 10 imm⟩)

/-- The two-register forms, bits 1:0 = 0b00 (R106). -/
def decode16RR (f : Nat) (d s : BitVec 6) : Compact :=
  match f with
  | 0 => mkRR .add d d s 0 | 1 => mkRR .sub d d s 0 | 2 => mkRR .and d d s 0 | 3 => mkRR .or d d s 0
  | 4 => mkRR .xor d d s 0 | 5 => mkRR .shl d d s 0 | 6 => mkRR .shr d d s 0 | 7 => mkRR .sra d d s 0
  | 8 => mkRR .mov d s 0 0 | 9 => mkRR .cmp d d s 0 | 10 => mkRR .cmp d d s 2 | 11 => mkRR .cmp d d s 6
  | 12 => mkRR .min d d s 0 | 13 => mkRR .max d d s 0 | 14 => mkRR .not d s 0 0 | _ => mkRR .neg d s 0 0

/-- A 7-bit immediate sign-extended into IMM10. -/
def imm7s (i : Nat) : Nat := (BitVec.ofInt 10 (sext i 7)).toNat

/-- The immediate forms, bits 1:0 = 0b01 (R106). -/
def decode16Imm (f : Nat) (d : BitVec 6) (i : Nat) : Compact :=
  match f with
  | 0 => mkRI .addi d d (imm7s i)
  | 1 => .syl (.a .movi ⟨d, BitVec.ofInt 16 (sext i 7)⟩)
  | 2 => mkRI .shi d d (bits i 5 0)
  | 3 => mkRI .shi d d (64 + bits i 5 0)
  | 4 => mkRI .shi d d (128 + bits i 5 0)
  | 5 => mkRI .cmpi d d i
  | 6 => mkRI .cmpi d d (2 * 128 + i)
  | _ => mkRI .andi d d i

/-- One 16-bit compact instruction, bits 1:0 not 0b11 (R106). Half-word 0x0000 is undefined. The register-base memory
form exists on the CP and SECP only; `regBase` says whether the core has it. -/
def decode16 (regBase : Bool) (h : Nat) : Compact :=
  if h = 0 then .undef
  else
    match bits h 1 0 with
    | 0 => decode16RR (bits h 15 12) (spec4 (bits h 11 8)) (spec4 (bits h 7 4))
    | 1 => decode16Imm (bits h 15 13) (spec4 (bits h 12 9)) (bits h 8 2)
    | _ =>
      match bits h 15 14 with
      | 0 => .branch .b 0 (sext (bits h 13 2) 12)
      | 1 => .branch (if bits h 13 13 = 0 then .beqz else .bnez) (BitVec.ofNat 6 (bits h 12 10)) (sext (bits h 9 2) 8)
      | 2 =>
        if regBase then
          .syl (.l (if bits h 13 13 = 0 then .ldw else .stw)
            ⟨BitVec.ofNat 6 (bits h 12 10), BitVec.ofNat 17 (bits h 9 7 * 2048 + 4 * bits h 6 2)⟩)
        else .undef
      | _ =>
        match bits h 13 10 with
        | 0 => .syl (.c .nop 0)
        | 1 => .syl (.c .ret 0)
        | 2 => .syl (.c .tickwait 0)
        | 3 => .branch .jr (BitVec.ofNat 6 (bits h 9 7)) 0
        | 4 => .resume
        | 5 => .evwait
        | _ => .undef

/-- A half-word opens a 32-bit compact instruction when its bits 1:0 are 0b11 (spec/03, Compact encoding). -/
def isWide (h : Nat) : Bool := bits h 1 0 = 3

/-- The command a word spells by the bits of spec/opcode_table.json. No row of the table gives bits: none. -/
def decodeTableWord (_nbits _w : Nat) : Option Instr := none

end Sys2Proof
end

