-- ==== Sys2Proof/Config.lean ====
section
/-! DEFINITION. What an implementation fixes and what the spec leaves open: free values, each an opaque constant with no
body, so that no proof can lean on a value of it. The assumption log names each. -/

namespace Sys2Proof

/-- The byte a memory cell holds after its array has lost its content for the n-th time (R133, R134, R414: undefined
data). -/
opaque Config.lostByte : Nat → Nat → Byte

/-- The bytes of the SECP's boot ROM (R25, spec/17), which the spec does not list. -/
opaque Config.romByte : Nat → Byte

/-- The check-bit state of a word whose array has lost its content (R133): 0 good, 1 correctable, 2 uncorrectable. -/
opaque Config.lostEcc : Nat → Nat → Nat

/-- Deviations of the major-0 tables from the exact result (R99), which the Arsic reference model holds: which of the
results inside the stated bound the tables give. The arguments are the operation (0 LOG2, 1 EXP2, 2 sine, 3 cosine,
4 TANH), MOD and the operand. -/
opaque Config.tableDelta : Nat → Nat → Word → Int

/-- Values fixed by an implementation and read through ID_PART.GRADE and ID_UIDi (spec/15): part grade. -/
opaque Config.grade : BitVec 16

/-- The 128-bit unique device number (spec/15). -/
opaque Config.uid : BitVec 128

/-- Whether a result that the spec gives as an exact quotient, and that does not fit its format, is rounded up: the
arguments are the dividend and the divisor. -/
opaque Config.roundUp : Int → Nat → Bool

/-- A value the spec leaves open: the n-th one drawn. -/
opaque Config.free : Nat → Word

end Sys2Proof
end

