-- ==== Sys2Proof/Machine/RegMap.lean ====
section
/-! DEFINITION. The address of every register and the place of every field, one definition each, from the register
tables of spec/01 to spec/18. A register of which there are several takes its index. `Field` is one field of one
register: its register's address and its highest and lowest bit (R4). -/

namespace Sys2Proof.Machine

/-- One field of one register (R4): the register's address, the field's highest and its lowest bit. -/
structure Field where
  /-- Byte address of the register in the map of R24. -/
  reg : Nat
  /-- Highest bit of the field. -/
  hi : Nat
  /-- Lowest bit of the field. -/
  lo : Nat
  deriving DecidableEq, Repr

namespace Reg

/-- EXT_WINDOW: external memory window base (spec/01). -/
def EXT_WINDOW : Nat := 0x40000040
/-- TICK_CTRL: tick control (spec/02). -/
def TICK_CTRL : Nat := 0x40030000
/-- TICK_CADENCE: cadence selection (spec/02). -/
def TICK_CADENCE : Nat := 0x40030004
/-- TICK_CHANGE_AT_LO: cadence change target (spec/02). -/
def TICK_CHANGE_AT_LO : Nat := 0x40030008
/-- TICK_CHANGE_AT_HI: cadence change target (spec/02). -/
def TICK_CHANGE_AT_HI : Nat := 0x4003000C
/-- TICK_BUDGET: usable budget (spec/02). -/
def TICK_BUDGET : Nat := 0x40030010
/-- TICK_STATUS: tick status (spec/02). -/
def TICK_STATUS : Nat := 0x40030014
/-- TICK_HOLD: engine hold (spec/02). -/
def TICK_HOLD : Nat := 0x40030018
/-- TICK_PERIOD: cycles per tick (spec/02). -/
def TICK_PERIOD : Nat := 0x4003001C
/-- STC_LO: Sample Time Counter (spec/02). -/
def STC_LO : Nat := 0x40030020
/-- STC_HI: Sample Time Counter (spec/02). -/
def STC_HI : Nat := 0x40030024
/-- STC_LOAD_LO: STC load value (spec/02). -/
def STC_LOAD_LO : Nat := 0x40030028
/-- STC_LOAD_HI: STC load value (spec/02). -/
def STC_LOAD_HI : Nat := 0x4003002C
/-- STC_ALARM_LO: STC alarm target (spec/02). -/
def STC_ALARM_LO : Nat := 0x40030030
/-- STC_ALARM_HI: STC alarm target (spec/02). -/
def STC_ALARM_HI : Nat := 0x40030034
/-- ENG_CTRL: engine control (spec/03). -/
def ENG_CTRL (n : Nat) : Nat := 0x30180000 + n * 0x400000
/-- ENG_STATUS: engine status (spec/03). -/
def ENG_STATUS (n : Nat) : Nat := 0x30180004 + n * 0x400000
/-- ENG_SETUP_PC: setup program counter (spec/03). -/
def ENG_SETUP_PC (n : Nat) : Nat := 0x30180008 + n * 0x400000
/-- ENG_TICK_ENTRY: tick entry point (spec/03). -/
def ENG_TICK_ENTRY (n : Nat) : Nat := 0x3018000C + n * 0x400000
/-- ENG_PLEN: installed program length (spec/03). -/
def ENG_PLEN (n : Nat) : Nat := 0x30180010 + n * 0x400000
/-- ENG_ENC: code region encodings (spec/03). -/
def ENG_ENC (n : Nat) : Nat := 0x30180014 + n * 0x400000
/-- ENG_FLAGS: sticky flags (spec/03). -/
def ENG_FLAGS (n : Nat) : Nat := 0x30180018 + n * 0x400000
/-- ENG_FLAG_MASK: flag event mask (spec/03). -/
def ENG_FLAG_MASK (n : Nat) : Nat := 0x3018001C + n * 0x400000
/-- ENG_FAULT_PC: fault address (spec/03). -/
def ENG_FAULT_PC (n : Nat) : Nat := 0x30180020 + n * 0x400000
/-- ENG_MODE: arithmetic defaults (spec/03). -/
def ENG_MODE (n : Nat) : Nat := 0x30180024 + n * 0x400000
/-- ENG_ISSUE: last tick issue record (spec/03). -/
def ENG_ISSUE (n : Nat) : Nat := 0x30180028 + n * 0x400000
/-- ENG_MEM_STATUS: memory status (spec/05). -/
def ENG_MEM_STATUS (n : Nat) : Nat := 0x30180030 + n * 0x400000
/-- ENG_MEM_MASK: memory event mask (spec/05). -/
def ENG_MEM_MASK (n : Nat) : Nat := 0x30180034 + n * 0x400000
/-- ENG_COLL_CNT: collision counters (spec/05). -/
def ENG_COLL_CNT (n : Nat) : Nat := 0x30180038 + n * 0x400000
/-- ENG_ECC_STATUS: ECC counters (spec/05). -/
def ENG_ECC_STATUS (n : Nat) : Nat := 0x3018003C + n * 0x400000
/-- ENG_ECC_ADDR: uncorrectable error address (spec/05). -/
def ENG_ECC_ADDR (n : Nat) : Nat := 0x30180040 + n * 0x400000
/-- ENG_SCRUB: scrubber control (spec/05). -/
def ENG_SCRUB (n : Nat) : Nat := 0x30180044 + n * 0x400000
/-- ENG_RET: retained memories (spec/05). -/
def ENG_RET (n : Nat) : Nat := 0x30180048 + n * 0x400000
/-- ENG_SEG_LEN_NEXT: pending segment lengths (spec/05). -/
def ENG_SEG_LEN_NEXT (n k : Nat) : Nat := 0x30180100 + n * 0x400000 + k * 0x4
/-- SERAI_SCRUB: serai scrubber control (spec/05). -/
def SERAI_SCRUB : Nat := 0x40000100
/-- SERAI_ECC_STATUS: serai ECC status (spec/05). -/
def SERAI_ECC_STATUS : Nat := 0x40000104
/-- SERAI_ECC_ADDR: serai error address (spec/05). -/
def SERAI_ECC_ADDR : Nat := 0x40000108
/-- SERAI_COLL_CNT: serai collision counter (spec/05). -/
def SERAI_COLL_CNT : Nat := 0x4000010C
/-- STRM_CFG: streamer configuration (spec/06). -/
def STRM_CFG : Nat := 0x400A0000
/-- STRM_STATUS: streamer status (spec/06). -/
def STRM_STATUS : Nat := 0x400A0004
/-- STRM_CAP: fetch capacity (spec/06). -/
def STRM_CAP : Nat := 0x400A0008
/-- STRM_MISS_TOTAL: counters (spec/06). -/
def STRM_MISS_TOTAL : Nat := 0x400A000C
/-- STRM_SQUASH_CNT: counters (spec/06). -/
def STRM_SQUASH_CNT : Nat := 0x400A0010
/-- STRM_LAST_MISS: counters (spec/06). -/
def STRM_LAST_MISS : Nat := 0x400A0018
/-- STRM_REJ: last rejected command (spec/06). -/
def STRM_REJ : Nat := 0x400A0014
/-- STRM_SEL: selection and command queue (spec/06). -/
def STRM_SEL : Nat := 0x400A0020
/-- STRM_CMD: selection and command queue (spec/06). -/
def STRM_CMD : Nat := 0x400A0024
/-- STRM_AT_LO: staging (spec/06). -/
def STRM_AT_LO : Nat := 0x400A0028
/-- STRM_AT_HI: staging (spec/06). -/
def STRM_AT_HI : Nat := 0x400A002C
/-- STRM_D: staging (spec/06). -/
def STRM_D (n : Nat) : Nat := 0x400A0040 + n * 0x4
/-- STRM_STATE: selected stream state (spec/06). -/
def STRM_STATE : Nat := 0x400A0060
/-- STRM_POS_LO: selected stream position (spec/06). -/
def STRM_POS_LO : Nat := 0x400A0064
/-- STRM_POS_HI: selected stream position (spec/06). -/
def STRM_POS_HI : Nat := 0x400A0068
/-- DDR_CFG: LPDDR5 configuration (spec/06). -/
def DDR_CFG : Nat := 0x400B0000
/-- DDR_CTRL: LPDDR5 control (spec/06). -/
def DDR_CTRL : Nat := 0x400B0004
/-- DDR_STATUS: LPDDR5 status (spec/06). -/
def DDR_STATUS : Nat := 0x400B0008
/-- DDR_ECC_CNT: link ECC counters (spec/06). -/
def DDR_ECC_CNT : Nat := 0x400B000C
/-- SWAP_CTRL: swap slot control (spec/07). -/
def SWAP_CTRL (n : Nat) : Nat := 0x40090000 + n * 0x10
/-- SWAP_AT_LO: swap targets (spec/07). -/
def SWAP_AT_LO (n : Nat) : Nat := 0x40090004 + n * 0x10
/-- SWAP_AT_HI: swap targets (spec/07). -/
def SWAP_AT_HI (n : Nat) : Nat := 0x40090008 + n * 0x10
/-- PAN_STATUS: pannier status (spec/07). -/
def PAN_STATUS : Nat := 0x40090040
/-- PAN_ROLE: coefficient bank roles (spec/07). -/
def PAN_ROLE : Nat := 0x40090044
/-- GLD_STATUS: glide status (spec/07). -/
def GLD_STATUS : Nat := 0x40090048
/-- GLD_CTRL: glide channel control (spec/07). -/
def GLD_CTRL (n : Nat) : Nat := 0x40098000 + n * 0x20
/-- GLD_TARGET: glide target and rate (spec/07). -/
def GLD_TARGET (n : Nat) : Nat := 0x40098004 + n * 0x20
/-- GLD_RATE: glide target and rate (spec/07). -/
def GLD_RATE (n : Nat) : Nat := 0x40098008 + n * 0x20
/-- GLD_STATE: glide channel state (spec/07). -/
def GLD_STATE (n : Nat) : Nat := 0x4009800C + n * 0x20
/-- GLD_VALUE: glide channel state (spec/07). -/
def GLD_VALUE (n : Nat) : Nat := 0x40098010 + n * 0x20
/-- REPLAY_CFG: replay configuration (spec/08). -/
def REPLAY_CFG : Nat := 0x40130000
/-- REPLAY_STATUS: replay status (spec/08). -/
def REPLAY_STATUS : Nat := 0x40130004
/-- REPLAY_CNT: replay counters (spec/08). -/
def REPLAY_CNT : Nat := 0x40130008
/-- REPLAY_CONE: recorded cones (spec/08). -/
def REPLAY_CONE (n : Nat) : Nat := 0x40130010 + n * 0x4
/-- REPLAY_REC: last detection record (spec/08). -/
def REPLAY_REC (n : Nat) : Nat := 0x40130040 + n * 0x4
/-- SPARE_CFG: spare engine (spec/08). -/
def SPARE_CFG : Nat := 0x40130080
/-- ENG_MAP_LO: logical engine map (spec/08). -/
def ENG_MAP_LO : Nat := 0x40130084
/-- ENG_MAP_HI: logical engine map (spec/08). -/
def ENG_MAP_HI : Nat := 0x40130088
/-- MIG_CTRL: migration control (spec/08). -/
def MIG_CTRL : Nat := 0x40130090
/-- MIG_AT_LO: earliest swap tick (spec/08). -/
def MIG_AT_LO : Nat := 0x40130094
/-- MIG_AT_HI: earliest swap tick (spec/08). -/
def MIG_AT_HI : Nat := 0x40130098
/-- MIG_STATUS: migration status (spec/08). -/
def MIG_STATUS : Nat := 0x4013009C
/-- BIST_CTRL: online self-test (spec/08). -/
def BIST_CTRL : Nat := 0x401300A0
/-- BIST_STATUS: online self-test (spec/08). -/
def BIST_STATUS : Nat := 0x401300A4
/-- LOOP_CTRL: port loop test (spec/08). -/
def LOOP_CTRL : Nat := 0x401300C0
/-- LOOP_STATUS: port loop test (spec/08). -/
def LOOP_STATUS : Nat := 0x401300C4
/-- TLK_CFG: tandem configuration (spec/09). -/
def TLK_CFG : Nat := 0x400E0000
/-- TLK_FWD: forwarding (spec/09). -/
def TLK_FWD : Nat := 0x400E0004
/-- TLK_STATUS: tandem status (spec/09). -/
def TLK_STATUS : Nat := 0x400E0008
/-- TLK_EVT: tandem events (spec/09). -/
def TLK_EVT : Nat := 0x400E000C
/-- TLK_LATCH: fail-silent latch (spec/09). -/
def TLK_LATCH : Nat := 0x400E0010
/-- TLK_TOKEN_MOVE: planned token move (spec/09). -/
def TLK_TOKEN_MOVE : Nat := 0x400E0014
/-- TLK_PART_INFO: partner identity (spec/09). -/
def TLK_PART_INFO : Nat := 0x400E0018
/-- TLK_PART_BUILD: partner identity (spec/09). -/
def TLK_PART_BUILD : Nat := 0x400E001C
/-- TLK_LDG_ADDR: ledger staging (spec/09). -/
def TLK_LDG_ADDR : Nat := 0x400E0020
/-- TLK_LDG_DATA: ledger staging (spec/09). -/
def TLK_LDG_DATA : Nat := 0x400E0024
/-- TLK_LDG_AT_LO: ledger staging (spec/09). -/
def TLK_LDG_AT_LO : Nat := 0x400E0028
/-- TLK_LDG_AT_HI: ledger staging (spec/09). -/
def TLK_LDG_AT_HI : Nat := 0x400E002C
/-- TLK_LDG_CMD: ledger submission (spec/09). -/
def TLK_LDG_CMD : Nat := 0x400E0030
/-- TLK_LDG_STAMP_LO: assigned stamp (spec/09). -/
def TLK_LDG_STAMP_LO : Nat := 0x400E0034
/-- TLK_LDG_STAMP_HI: assigned stamp (spec/09). -/
def TLK_LDG_STAMP_HI : Nat := 0x400E0038
/-- TLK_LDG_BASE_LO: ledger ring (spec/09). -/
def TLK_LDG_BASE_LO : Nat := 0x400E0040
/-- TLK_LDG_BASE_HI: ledger ring (spec/09). -/
def TLK_LDG_BASE_HI : Nat := 0x400E0044
/-- TLK_DIGEST_OWN: digests (spec/09). -/
def TLK_DIGEST_OWN : Nat := 0x400E0050
/-- TLK_DIGEST_PART: digests (spec/09). -/
def TLK_DIGEST_PART : Nat := 0x400E0054
/-- TLK_DIV_TICK_LO: digests (spec/09). -/
def TLK_DIV_TICK_LO : Nat := 0x400E0058
/-- TLK_DIV_CNT: digests (spec/09). -/
def TLK_DIV_CNT : Nat := 0x400E005C
/-- TLK_REJOIN_CTRL: rejoin (spec/09). -/
def TLK_REJOIN_CTRL : Nat := 0x400E0060
/-- TLK_REJOIN_STATUS: rejoin (spec/09). -/
def TLK_REJOIN_STATUS : Nat := 0x400E0064
/-- TLK_LINK_CNT: link errors (spec/09). -/
def TLK_LINK_CNT : Nat := 0x400E0070
/-- SAP_CTRL: port control (spec/10). -/
def SAP_CTRL (n : Nat) : Nat := 0x40060000 + n * 0x1000
/-- SAP_FMT: frame format (spec/10). -/
def SAP_FMT (n : Nat) : Nat := 0x40060004 + n * 0x1000
/-- SAP_FMT_NEXT: frame format (spec/10). -/
def SAP_FMT_NEXT (n : Nat) : Nat := 0x40060008 + n * 0x1000
/-- SAP_TXSLOT: driven slots (spec/10). -/
def SAP_TXSLOT (n : Nat) : Nat := 0x4006000C + n * 0x1000
/-- SAP_STATUS: port status (spec/10). -/
def SAP_STATUS (n : Nat) : Nat := 0x40060010 + n * 0x1000
/-- SAP_MASK: port event mask (spec/10). -/
def SAP_MASK (n : Nat) : Nat := 0x40060014 + n * 0x1000
/-- SAP_CNT: port counters (spec/10). -/
def SAP_CNT (n : Nat) : Nat := 0x40060018 + n * 0x1000
/-- SAP_MEAS: follower measurement (spec/10). -/
def SAP_MEAS (n : Nat) : Nat := 0x4006001C + n * 0x1000
/-- ASRC_GCTRL: ASRC group control (spec/10). -/
def ASRC_GCTRL (n : Nat) : Nat := 0x40070000 + n * 0x10
/-- ASRC_GSTATUS: ASRC group status (spec/10). -/
def ASRC_GSTATUS (n : Nat) : Nat := 0x40070004 + n * 0x10
/-- ASRC_RATIO: ASRC group ratio (spec/10). -/
def ASRC_RATIO (n : Nat) : Nat := 0x40070008 + n * 0x10
/-- ASRC_CH: ASRC channel (spec/10). -/
def ASRC_CH (n : Nat) : Nat := 0x40070100 + n * 0x4
/-- MCLK_CTRL: MCLK outputs (spec/10). -/
def MCLK_CTRL (n : Nat) : Nat := 0x40070F00 + n * 0x4
/-- RTR_COMMIT: route commit (spec/11). -/
def RTR_COMMIT : Nat := 0x40080000
/-- RTR_AT_LO: commit target (spec/11). -/
def RTR_AT_LO : Nat := 0x40080004
/-- RTR_AT_HI: commit target (spec/11). -/
def RTR_AT_HI : Nat := 0x40080008
/-- RTR_STATUS: router status (spec/11). -/
def RTR_STATUS : Nat := 0x4008000C
/-- FL_CTRL: fast-lane routes (spec/11). -/
def FL_CTRL (n : Nat) : Nat := 0x40080100 + n * 0x8
/-- FL_GAIN: fast-lane routes (spec/11). -/
def FL_GAIN (n : Nat) : Nat := 0x40080104 + n * 0x8
/-- FL_STATUS: fast-lane status (spec/11). -/
def FL_STATUS : Nat := 0x40080180
/-- PROT_LIM: output protection (spec/11). -/
def PROT_LIM (n : Nat) : Nat := 0x40080200 + n * 0x10
/-- PROT_DC: output protection (spec/11). -/
def PROT_DC (n : Nat) : Nat := 0x40080204 + n * 0x10
/-- PROT_FUSE: output protection (spec/11). -/
def PROT_FUSE (n : Nat) : Nat := 0x40080208 + n * 0x10
/-- PROT_TRIP: protection status (spec/11). -/
def PROT_TRIP (n : Nat) : Nat := 0x40080280 + n * 0x4
/-- PROT_LIMACT: protection status (spec/11). -/
def PROT_LIMACT (n : Nat) : Nat := 0x400802A0 + n * 0x4
/-- MTR_CFG: meter points (spec/11). -/
def MTR_CFG (n : Nat) : Nat := 0x40081000 + n * 0x4
/-- MTR_THR: meter points (spec/11). -/
def MTR_THR (n : Nat) : Nat := 0x40081400 + n * 0x4
/-- MTR_PEAK: meter readings (spec/11). -/
def MTR_PEAK (n : Nat) : Nat := 0x40081800 + n * 0x4
/-- MTR_MS: meter readings (spec/11). -/
def MTR_MS (n : Nat) : Nat := 0x40081C00 + n * 0x4
/-- MTR_OVER: point bitmaps (spec/11). -/
def MTR_OVER (n : Nat) : Nat := 0x40082000 + n * 0x4
/-- SIL_STATE: point bitmaps (spec/11). -/
def SIL_STATE (n : Nat) : Nat := 0x40082020 + n * 0x4
/-- SIL_CHG: point bitmaps (spec/11). -/
def SIL_CHG (n : Nat) : Nat := 0x40082040 + n * 0x4
/-- RT_CUR: gains in force (spec/11). -/
def RT_CUR (n : Nat) : Nat := 0x40084000 + n * 0x4
/-- RT_EP: route entries (spec/11). -/
def RT_EP (n : Nat) : Nat := 0x40088000 + n * 0x8
/-- RT_GAIN: route entries (spec/11). -/
def RT_GAIN (n : Nat) : Nat := 0x40088004 + n * 0x8
/-- CLK_CFG: clock configuration (spec/12). -/
def CLK_CFG : Nat := 0x40020000
/-- CLK_STATUS: PLL status (spec/12). -/
def CLK_STATUS : Nat := 0x40020004
/-- CLK_ECLK: ECLK selection (spec/12). -/
def CLK_ECLK : Nat := 0x40020008
/-- CLK_ECLK_AT_LO: ECLK change target (spec/12). -/
def CLK_ECLK_AT_LO : Nat := 0x4002000C
/-- CLK_ECLK_AT_HI: ECLK change target (spec/12). -/
def CLK_ECLK_AT_HI : Nat := 0x40020010
/-- AUD_CFG: AUDPLL modulator (spec/12). -/
def AUD_CFG : Nat := 0x40020014
/-- AUD_FRAC: fraction words (spec/12). -/
def AUD_FRAC : Nat := 0x40020018
/-- SYS_FRAC: fraction words (spec/12). -/
def SYS_FRAC : Nat := 0x4002001C
/-- TRK_CTRL: tracking control (spec/12). -/
def TRK_CTRL : Nat := 0x40020020
/-- TRK_PHASE: phase target and silence condition (spec/12). -/
def TRK_PHASE : Nat := 0x40020024
/-- TRK_SIL_MASK: phase target and silence condition (spec/12). -/
def TRK_SIL_MASK : Nat := 0x40020028
/-- TRK_SNAP_AT_LO: snap tick (spec/12). -/
def TRK_SNAP_AT_LO : Nat := 0x4002002C
/-- TRK_SNAP_AT_HI: snap tick (spec/12). -/
def TRK_SNAP_AT_HI : Nat := 0x40020030
/-- TRK_STATUS: tracking status (spec/12). -/
def TRK_STATUS : Nat := 0x40020034
/-- TRK_CVAL: control value (spec/12). -/
def TRK_CVAL : Nat := 0x40020038
/-- WCLK_CTRL: word clock output (spec/12). -/
def WCLK_CTRL : Nat := 0x4002003C
/-- SENSE_CTRL: scan control (spec/13). -/
def SENSE_CTRL : Nat := 0x400C0000
/-- SENSE_STATUS: scan status (spec/13). -/
def SENSE_STATUS : Nat := 0x400C0004
/-- SENSE_ADC_FAULT: converter faults (spec/13). -/
def SENSE_ADC_FAULT : Nat := 0x400C0008
/-- SENSE_SCAN: scan table (spec/13). -/
def SENSE_SCAN (n : Nat) : Nat := 0x400C0010 + n * 0x4
/-- SENSE_FIFO_CTRL: event FIFOs (spec/13). -/
def SENSE_FIFO_CTRL (n : Nat) : Nat := 0x400C0020 + n * 0x10
/-- SENSE_FIFO_A: event FIFOs (spec/13). -/
def SENSE_FIFO_A (n : Nat) : Nat := 0x400C0024 + n * 0x10
/-- SENSE_FIFO_B: event FIFOs (spec/13). -/
def SENSE_FIFO_B (n : Nat) : Nat := 0x400C0028 + n * 0x10
/-- SENSE_PTFAULT: point faults (spec/13). -/
def SENSE_PTFAULT (n : Nat) : Nat := 0x400C0080 + n * 0x4
/-- AUX_CMP: AUX comparator (spec/13). -/
def AUX_CMP : Nat := 0x400C00C0
/-- SENSE_PT_CFG: point settings (spec/13). -/
def SENSE_PT_CFG (n : Nat) : Nat := 0x400C1000 + n * 0x10
/-- SENSE_PT_CAL: point settings (spec/13). -/
def SENSE_PT_CAL (n : Nat) : Nat := 0x400C1004 + n * 0x10
/-- SENSE_PT_THR: point settings (spec/13). -/
def SENSE_PT_THR (n : Nat) : Nat := 0x400C1008 + n * 0x10
/-- SENSE_PT_STAT: point settings (spec/13). -/
def SENSE_PT_STAT (n : Nat) : Nat := 0x400C100C + n * 0x10
/-- SENSE_LIN: linearisation tables (spec/13). -/
def SENSE_LIN (n k : Nat) : Nat := 0x400C8000 + n * 0x80 + k * 0x4
/-- ACT_CTRL: channel settings (spec/13). -/
def ACT_CTRL (n : Nat) : Nat := 0x400D0000 + n * 0x20
/-- ACT_PER: channel settings (spec/13). -/
def ACT_PER (n : Nat) : Nat := 0x400D0004 + n * 0x20
/-- ACT_VAL: channel settings (spec/13). -/
def ACT_VAL (n : Nat) : Nat := 0x400D0008 + n * 0x20
/-- ACT_LIM: channel limits (spec/13). -/
def ACT_LIM (n : Nat) : Nat := 0x400D000C + n * 0x20
/-- ACT_EMAX: channel limits (spec/13). -/
def ACT_EMAX (n : Nat) : Nat := 0x400D0010 + n * 0x20
/-- ACT_CS: channel limits (spec/13). -/
def ACT_CS (n : Nat) : Nat := 0x400D0014 + n * 0x20
/-- ACT_ACC: channel state (spec/13). -/
def ACT_ACC (n : Nat) : Nat := 0x400D0018 + n * 0x20
/-- ACT_OUT: channel state (spec/13). -/
def ACT_OUT (n : Nat) : Nat := 0x400D001C + n * 0x20
/-- ACT_TRIP: trips (spec/13). -/
def ACT_TRIP : Nat := 0x400D0400
/-- ACT_STATUS: trips (spec/13). -/
def ACT_STATUS : Nat := 0x400D0404
/-- ACT_CAUSE: trips (spec/13). -/
def ACT_CAUSE (n : Nat) : Nat := 0x400D0410 + n * 0x4
/-- ACT_FUSE_A: fused ceilings (spec/13). -/
def ACT_FUSE_A (n : Nat) : Nat := 0x400D0500 + n * 0x10
/-- ACT_FUSE_B: fused ceilings (spec/13). -/
def ACT_FUSE_B (n : Nat) : Nat := 0x400D0504 + n * 0x10
/-- ACT_FUSE_C: fused ceilings (spec/13). -/
def ACT_FUSE_C (n : Nat) : Nat := 0x400D0508 + n * 0x10
/-- CORE_ESTAT: exception status (spec/14). -/
def CORE_ESTAT : Nat := 0x40000200
/-- CORE_EPC: exception state (spec/14). -/
def CORE_EPC : Nat := 0x40000204
/-- CORE_ECAUSE: exception state (spec/14). -/
def CORE_ECAUSE : Nat := 0x40000208
/-- CORE_EADDR: exception state (spec/14). -/
def CORE_EADDR : Nat := 0x4000020C
/-- CORE_VBASE: exception state (spec/14). -/
def CORE_VBASE : Nat := 0x40000210
/-- CORE_RPC: trap frames (spec/14). -/
def CORE_RPC (n : Nat) : Nat := 0x4000023C + n * 0x4
/-- CORE_RSAVE: trap frames (spec/14). -/
def CORE_RSAVE (n : Nat) : Nat := 0x4000026C + n * 0x4
/-- CP_CTRL: CP reset (spec/14). -/
def CP_CTRL : Nat := 0x40000220
/-- CPMEM_ECC_STATUS: CP SRAM ECC (spec/14). -/
def CPMEM_ECC_STATUS : Nat := 0x40000110
/-- CPMEM_ECC_ADDR: CP SRAM ECC (spec/14). -/
def CPMEM_ECC_ADDR : Nat := 0x40000114
/-- EVT_PEND: pending events (spec/14). -/
def EVT_PEND (n : Nat) : Nat := 0x40040000 + n * 0x4
/-- EVT_CLAIM: claim and host interrupt (spec/14). -/
def EVT_CLAIM : Nat := 0x40040010
/-- EVT_HOST_CTRL: claim and host interrupt (spec/14). -/
def EVT_HOST_CTRL : Nat := 0x40040014
/-- EVT_CFG: event routing (spec/14). -/
def EVT_CFG (n : Nat) : Nat := 0x40040100 + n * 0x4
/-- MB_DATA: message data (spec/14). -/
def MB_DATA (n k : Nat) : Nat := 0x40050000 + n * 0x80 + k * 0x4
/-- MB_CTRL: post and acknowledge (spec/14). -/
def MB_CTRL (n : Nat) : Nat := 0x40050040 + n * 0x80
/-- MB_ACK: post and acknowledge (spec/14). -/
def MB_ACK (n : Nat) : Nat := 0x40050044 + n * 0x80
/-- MB_STATUS: state and stamp (spec/14). -/
def MB_STATUS (n : Nat) : Nat := 0x40050048 + n * 0x80
/-- MB_STAMP: state and stamp (spec/14). -/
def MB_STAMP (n : Nat) : Nat := 0x4005004C + n * 0x80
/-- MB_POST_TICK: state and stamp (spec/14). -/
def MB_POST_TICK (n : Nat) : Nat := 0x40050050 + n * 0x80
/-- MB_GORES: result, timeout and access list (spec/14). -/
def MB_GORES (n : Nat) : Nat := 0x40050054 + n * 0x80
/-- MB_TIMEOUT: result, timeout and access list (spec/14). -/
def MB_TIMEOUT (n : Nat) : Nat := 0x40050058 + n * 0x80
/-- MB_ACL: result, timeout and access list (spec/14). -/
def MB_ACL (n : Nat) : Nat := 0x4005005C + n * 0x80
/-- MB_LOCK: lock and engine posting (spec/14). -/
def MB_LOCK : Nat := 0x40050C00
/-- MB_DIAG_CFG: lock and engine posting (spec/14). -/
def MB_DIAG_CFG (n : Nat) : Nat := 0x40050C10 + n * 0x4
/-- BELL: bells (spec/14). -/
def BELL (n : Nat) : Nat := 0x40051000 + n * 0x4
/-- BELL_RING: bells (spec/14). -/
def BELL_RING (n : Nat) : Nat := 0x40051020 + n * 0x4
/-- SEM: semaphores (spec/14). -/
def SEM (n : Nat) : Nat := 0x40052000 + n * 0x4
/-- SEM_REL: semaphores (spec/14). -/
def SEM_REL : Nat := 0x40052100
/-- SEM_STATUS: semaphores (spec/14). -/
def SEM_STATUS : Nat := 0x40052104
/-- EPOCH: master epochs (spec/14). -/
def EPOCH (n : Nat) : Nat := 0x40053000 + n * 0x4
/-- READY: function readiness (spec/15). -/
def READY : Nat := 0x40000300
/-- ID_PART: identity (spec/15). -/
def ID_PART : Nat := 0x40000000
/-- ID_REV: identity (spec/15). -/
def ID_REV : Nat := 0x40000004
/-- ID_LIFECYCLE: identity (spec/15). -/
def ID_LIFECYCLE : Nat := 0x40000008
/-- ID_UID: identity (spec/15). -/
def ID_UID (n : Nat) : Nat := 0x40000010 + n * 0x4
/-- HPORT_CFG: host ports (spec/15). -/
def HPORT_CFG : Nat := 0x400F0000
/-- HPORT_STATUS: host ports (spec/15). -/
def HPORT_STATUS : Nat := 0x400F0004
/-- HPORT_ERR: host ports (spec/15). -/
def HPORT_ERR : Nat := 0x400F0008
/-- HPORT_CNT: host ports (spec/15). -/
def HPORT_CNT : Nat := 0x400F000C
/-- USB_CTRL: USB device (spec/15). -/
def USB_CTRL : Nat := 0x40100000
/-- USB_STATUS: USB device (spec/15). -/
def USB_STATUS : Nat := 0x40100004
/-- USB_DESC: descriptors, feedback and counters (spec/15). -/
def USB_DESC : Nat := 0x40100008
/-- USB_FB: descriptors, feedback and counters (spec/15). -/
def USB_FB : Nat := 0x40100010
/-- USB_AS_CNT: descriptors, feedback and counters (spec/15). -/
def USB_AS_CNT : Nat := 0x40100014
/-- USB_MIDI_RX_BASE: MIDI rings (spec/15). -/
def USB_MIDI_RX_BASE : Nat := 0x40100020
/-- USB_MIDI_RX_PTR: MIDI rings (spec/15). -/
def USB_MIDI_RX_PTR : Nat := 0x40100024
/-- USB_MIDI_TX_BASE: MIDI rings (spec/15). -/
def USB_MIDI_TX_BASE : Nat := 0x40100028
/-- USB_MIDI_TX_PTR: MIDI rings (spec/15). -/
def USB_MIDI_TX_PTR : Nat := 0x4010002C
/-- MIDI_CFG: DIN MIDI (spec/15). -/
def MIDI_CFG (n : Nat) : Nat := 0x40110000 + n * 0x20
/-- MIDI_STATUS: DIN MIDI (spec/15). -/
def MIDI_STATUS (n : Nat) : Nat := 0x40110004 + n * 0x20
/-- MIDI_RX_A: DIN MIDI (spec/15). -/
def MIDI_RX_A (n : Nat) : Nat := 0x40110008 + n * 0x20
/-- MIDI_RX_B: DIN MIDI (spec/15). -/
def MIDI_RX_B (n : Nat) : Nat := 0x4011000C + n * 0x20
/-- MIDI_TX: DIN MIDI (spec/15). -/
def MIDI_TX (n : Nat) : Nat := 0x40110010 + n * 0x20
/-- SEC_BOOT_STATUS: boot outcome (spec/17). -/
def SEC_BOOT_STATUS : Nat := 0x40120000
/-- SEC_CTRL: release and key lock (spec/17). -/
def SEC_CTRL : Nat := 0x40120004
/-- SEC_IMG_VERSION: running image (spec/17). -/
def SEC_IMG_VERSION : Nat := 0x40120010
/-- SEC_IMG_SEQ: running image (spec/17). -/
def SEC_IMG_SEQ : Nat := 0x40120014
/-- SEC_IMG_INFO: running image (spec/17). -/
def SEC_IMG_INFO : Nat := 0x40120018
/-- SEC_IMG_BUILD: running image (spec/17). -/
def SEC_IMG_BUILD : Nat := 0x4012001C
/-- SEC_PROG_DIGEST: running image (spec/17). -/
def SEC_PROG_DIGEST (n : Nat) : Nat := 0x40120020 + n * 0x4
/-- FUSE_STATE: fuse contents (spec/17). -/
def FUSE_STATE : Nat := 0x40120040
/-- FUSE_SLOT: fuse contents (spec/17). -/
def FUSE_SLOT : Nat := 0x40120044
/-- FUSE_CMD: fuse programming (spec/17). -/
def FUSE_CMD : Nat := 0x40120048
/-- FUSE_STATUS: fuse programming (spec/17). -/
def FUSE_STATUS : Nat := 0x4012004C
/-- FUSE_DATA: fuse programming (spec/17). -/
def FUSE_DATA (n : Nat) : Nat := 0x40120050 + n * 0x4
/-- SEC_REC_CTRL: boot record (spec/17). -/
def SEC_REC_CTRL : Nat := 0x40120074
/-- SEC_EVT: security events (spec/17). -/
def SEC_EVT : Nat := 0x40120070
/-- SEC_OSPI_WP: flash access (spec/17). -/
def SEC_OSPI_WP : Nat := 0x40120080
/-- OSPI_CMD: flash access (spec/17). -/
def OSPI_CMD : Nat := 0x40120090
/-- OSPI_ADDR: flash access (spec/17). -/
def OSPI_ADDR : Nat := 0x40120094
/-- OSPI_BUF: flash access (spec/17). -/
def OSPI_BUF (n : Nat) : Nat := 0x40120400 + n * 0x4
/-- PMU_CMD: power command (spec/18). -/
def PMU_CMD : Nat := 0x40010000
/-- PMU_STATUS: power status (spec/18). -/
def PMU_STATUS : Nat := 0x40010004
/-- PMU_DSTATE0: domain states (spec/18). -/
def PMU_DSTATE0 : Nat := 0x40010008
/-- PMU_DSTATE1: domain states (spec/18). -/
def PMU_DSTATE1 : Nat := 0x4001000C
/-- PMU_SSTATE0: domain states (spec/18). -/
def PMU_SSTATE0 : Nat := 0x40010010
/-- PMU_SSTATE1: domain states (spec/18). -/
def PMU_SSTATE1 : Nat := 0x40010014
/-- PMU_STBY_CFG: standby and wake sets (spec/18). -/
def PMU_STBY_CFG : Nat := 0x40010020
/-- PMU_STBY_SERAI: standby and wake sets (spec/18). -/
def PMU_STBY_SERAI : Nat := 0x40010024
/-- PMU_WAKE_SET: standby and wake sets (spec/18). -/
def PMU_WAKE_SET : Nat := 0x40010028
/-- PMU_WAKE_SERAI: standby and wake sets (spec/18). -/
def PMU_WAKE_SERAI : Nat := 0x4001002C
/-- PMU_WAKE_EN: wake sources (spec/18). -/
def PMU_WAKE_EN : Nat := 0x40010030
/-- PMU_WAKE_SRC: wake sources (spec/18). -/
def PMU_WAKE_SRC : Nat := 0x40010034
/-- PMU_PAD_HOLD: pads and retention (spec/18). -/
def PMU_PAD_HOLD : Nat := 0x40010038
/-- PMU_RETLOST: pads and retention (spec/18). -/
def PMU_RETLOST : Nat := 0x4001003C
/-- PMU_RET_LOAD: pads and retention (spec/18). -/
def PMU_RET_LOAD : Nat := 0x40010044
/-- PMU_RST_CAUSE: reset cause (spec/18). -/
def PMU_RST_CAUSE : Nat := 0x40010040
/-- RTC_CTRL: real-time counter (spec/18). -/
def RTC_CTRL : Nat := 0x40010050
/-- RTC_CNT_LO: real-time counter (spec/18). -/
def RTC_CNT_LO : Nat := 0x40010054
/-- RTC_CNT_HI: real-time counter (spec/18). -/
def RTC_CNT_HI : Nat := 0x40010058
/-- RTC_ALARM_LO: real-time counter (spec/18). -/
def RTC_ALARM_LO : Nat := 0x4001005C
/-- RTC_ALARM_HI: real-time counter (spec/18). -/
def RTC_ALARM_HI : Nat := 0x40010060
/-- SLP_RTC_IN_LO: sleep ledger (spec/18). -/
def SLP_RTC_IN_LO : Nat := 0x40010070
/-- SLP_RTC_IN_HI: sleep ledger (spec/18). -/
def SLP_RTC_IN_HI : Nat := 0x40010074
/-- SLP_RTC_OUT_LO: sleep ledger (spec/18). -/
def SLP_RTC_OUT_LO : Nat := 0x40010078
/-- SLP_RTC_OUT_HI: sleep ledger (spec/18). -/
def SLP_RTC_OUT_HI : Nat := 0x4001007C
/-- SLP_ADV_LO: sleep ledger (spec/18). -/
def SLP_ADV_LO : Nat := 0x40010080
/-- SLP_ADV_HI: sleep ledger (spec/18). -/
def SLP_ADV_HI : Nat := 0x40010084
/-- SLP_STATUS: sleep ledger (spec/18). -/
def SLP_STATUS : Nat := 0x40010088

end Reg

namespace F

/-- EXT_WINDOW.SECP_BASE, RW. -/
def EXT_WINDOW_SECP_BASE : Field := ⟨Reg.EXT_WINDOW, 9, 8⟩
/-- EXT_WINDOW.CP_BASE, RW. -/
def EXT_WINDOW_CP_BASE : Field := ⟨Reg.EXT_WINDOW, 1, 0⟩
/-- TICK_CTRL.STC_LOAD, WO. -/
def TICK_CTRL_STC_LOAD : Field := ⟨Reg.TICK_CTRL, 3, 3⟩
/-- TICK_CTRL.ALARM_EN, RW. -/
def TICK_CTRL_ALARM_EN : Field := ⟨Reg.TICK_CTRL, 2, 2⟩
/-- TICK_CTRL.RUN, RW. -/
def TICK_CTRL_RUN : Field := ⟨Reg.TICK_CTRL, 0, 0⟩
/-- TICK_CADENCE.PENDING, RO. -/
def TICK_CADENCE_PENDING : Field := ⟨Reg.TICK_CADENCE, 31, 31⟩
/-- TICK_CADENCE.AT_MODE, RW. -/
def TICK_CADENCE_AT_MODE : Field := ⟨Reg.TICK_CADENCE, 30, 30⟩
/-- TICK_CADENCE.COMMIT, WO. -/
def TICK_CADENCE_COMMIT : Field := ⟨Reg.TICK_CADENCE, 29, 29⟩
/-- TICK_CADENCE.CANCEL, WO. -/
def TICK_CADENCE_CANCEL : Field := ⟨Reg.TICK_CADENCE, 28, 28⟩
/-- TICK_CADENCE.RATE, RO. -/
def TICK_CADENCE_RATE : Field := ⟨Reg.TICK_CADENCE, 10, 8⟩
/-- TICK_CADENCE.RATE_NEXT, RW. -/
def TICK_CADENCE_RATE_NEXT : Field := ⟨Reg.TICK_CADENCE, 2, 0⟩
/-- TICK_CHANGE_AT_LO.AT, RW. -/
def TICK_CHANGE_AT_LO_AT : Field := ⟨Reg.TICK_CHANGE_AT_LO, 31, 0⟩
/-- TICK_CHANGE_AT_HI.AT, RW. -/
def TICK_CHANGE_AT_HI_AT : Field := ⟨Reg.TICK_CHANGE_AT_HI, 31, 0⟩
/-- TICK_BUDGET.BUDGET_NEXT, RO. -/
def TICK_BUDGET_BUDGET_NEXT : Field := ⟨Reg.TICK_BUDGET, 31, 16⟩
/-- TICK_BUDGET.BUDGET, RO. -/
def TICK_BUDGET_BUDGET : Field := ⟨Reg.TICK_BUDGET, 15, 0⟩
/-- TICK_STATUS.DEFER_CNT, RC. -/
def TICK_STATUS_DEFER_CNT : Field := ⟨Reg.TICK_STATUS, 15, 8⟩
/-- TICK_STATUS.SKIPPED, W1C. -/
def TICK_STATUS_SKIPPED : Field := ⟨Reg.TICK_STATUS, 7, 7⟩
/-- TICK_STATUS.CHG_LATE, W1C. -/
def TICK_STATUS_CHG_LATE : Field := ⟨Reg.TICK_STATUS, 6, 6⟩
/-- TICK_STATUS.ALARM_LATE, W1C. -/
def TICK_STATUS_ALARM_LATE : Field := ⟨Reg.TICK_STATUS, 5, 5⟩
/-- TICK_STATUS.HOLD_EVT, W1C. -/
def TICK_STATUS_HOLD_EVT : Field := ⟨Reg.TICK_STATUS, 4, 4⟩
/-- TICK_STATUS.SAFE_ECLK, RO. -/
def TICK_STATUS_SAFE_ECLK : Field := ⟨Reg.TICK_STATUS, 2, 2⟩
/-- TICK_STATUS.PAUSED, RO. -/
def TICK_STATUS_PAUSED : Field := ⟨Reg.TICK_STATUS, 1, 1⟩
/-- TICK_STATUS.RUNNING, RO. -/
def TICK_STATUS_RUNNING : Field := ⟨Reg.TICK_STATUS, 0, 0⟩
/-- TICK_HOLD.HELD, W1C. -/
def TICK_HOLD_HELD : Field := ⟨Reg.TICK_HOLD, 9, 0⟩
/-- TICK_PERIOD.PERIOD, RO. -/
def TICK_PERIOD_PERIOD : Field := ⟨Reg.TICK_PERIOD, 15, 0⟩
/-- STC_LO.STC, RO. -/
def STC_LO_STC : Field := ⟨Reg.STC_LO, 31, 0⟩
/-- STC_HI.STC, RO. -/
def STC_HI_STC : Field := ⟨Reg.STC_HI, 31, 0⟩
/-- STC_LOAD_LO.LOAD, RW. -/
def STC_LOAD_LO_LOAD : Field := ⟨Reg.STC_LOAD_LO, 31, 0⟩
/-- STC_LOAD_HI.LOAD, RW. -/
def STC_LOAD_HI_LOAD : Field := ⟨Reg.STC_LOAD_HI, 31, 0⟩
/-- STC_ALARM_LO.ALARM, RW. -/
def STC_ALARM_LO_ALARM : Field := ⟨Reg.STC_ALARM_LO, 31, 0⟩
/-- STC_ALARM_HI.ALARM, RW. -/
def STC_ALARM_HI_ALARM : Field := ⟨Reg.STC_ALARM_HI, 31, 0⟩
/-- ENG_CTRL.SOFT_RESET, WO. -/
def ENG_CTRL_SOFT_RESET (n : Nat) : Field := ⟨Reg.ENG_CTRL n, 4, 4⟩
/-- ENG_CTRL.HALT, WO. -/
def ENG_CTRL_HALT (n : Nat) : Field := ⟨Reg.ENG_CTRL n, 3, 3⟩
/-- ENG_CTRL.SETUP_GO, WO. -/
def ENG_CTRL_SETUP_GO (n : Nat) : Field := ⟨Reg.ENG_CTRL n, 2, 2⟩
/-- ENG_CTRL.TICK_EN, RW. -/
def ENG_CTRL_TICK_EN (n : Nat) : Field := ⟨Reg.ENG_CTRL n, 0, 0⟩
/-- ENG_STATUS.REPLAY_OFF, RO. -/
def ENG_STATUS_REPLAY_OFF (n : Nat) : Field := ⟨Reg.ENG_STATUS n, 15, 15⟩
/-- ENG_STATUS.REASON, RO. -/
def ENG_STATUS_REASON (n : Nat) : Field := ⟨Reg.ENG_STATUS n, 11, 8⟩
/-- ENG_STATUS.STATE, RO. -/
def ENG_STATUS_STATE (n : Nat) : Field := ⟨Reg.ENG_STATUS n, 4, 0⟩
/-- ENG_SETUP_PC.PC, RW. -/
def ENG_SETUP_PC_PC (n : Nat) : Field := ⟨Reg.ENG_SETUP_PC n, 17, 1⟩
/-- ENG_TICK_ENTRY.ENTRY, RW. -/
def ENG_TICK_ENTRY_ENTRY (n : Nat) : Field := ⟨Reg.ENG_TICK_ENTRY n, 17, 2⟩
/-- ENG_PLEN.STORES, RO. -/
def ENG_PLEN_STORES (n : Nat) : Field := ⟨Reg.ENG_PLEN n, 31, 16⟩
/-- ENG_PLEN.PLEN, RO. -/
def ENG_PLEN_PLEN (n : Nat) : Field := ⟨Reg.ENG_PLEN n, 15, 0⟩
/-- ENG_ENC.ENC, RW. -/
def ENG_ENC_ENC (n : Nat) : Field := ⟨Reg.ENG_ENC n, 15, 0⟩
/-- ENG_FLAGS.LATEW, W1C. -/
def ENG_FLAGS_LATEW (n : Nat) : Field := ⟨Reg.ENG_FLAGS n, 8, 8⟩
/-- ENG_FLAGS.RSUNF, W1C. -/
def ENG_FLAGS_RSUNF (n : Nat) : Field := ⟨Reg.ENG_FLAGS n, 7, 7⟩
/-- ENG_FLAGS.RSOVF, W1C. -/
def ENG_FLAGS_RSOVF (n : Nat) : Field := ⟨Reg.ENG_FLAGS n, 6, 6⟩
/-- ENG_FLAGS.WRAP, W1C. -/
def ENG_FLAGS_WRAP (n : Nat) : Field := ⟨Reg.ENG_FLAGS n, 5, 5⟩
/-- ENG_FLAGS.UNDEF, W1C. -/
def ENG_FLAGS_UNDEF (n : Nat) : Field := ⟨Reg.ENG_FLAGS n, 4, 4⟩
/-- ENG_FLAGS.BOUND, W1C. -/
def ENG_FLAGS_BOUND (n : Nat) : Field := ⟨Reg.ENG_FLAGS n, 3, 3⟩
/-- ENG_FLAGS.DZ, W1C. -/
def ENG_FLAGS_DZ (n : Nat) : Field := ⟨Reg.ENG_FLAGS n, 2, 2⟩
/-- ENG_FLAGS.GOV, W1C. -/
def ENG_FLAGS_GOV (n : Nat) : Field := ⟨Reg.ENG_FLAGS n, 1, 1⟩
/-- ENG_FLAGS.OV, W1C. -/
def ENG_FLAGS_OV (n : Nat) : Field := ⟨Reg.ENG_FLAGS n, 0, 0⟩
/-- ENG_FLAG_MASK.MASK, RW. -/
def ENG_FLAG_MASK_MASK (n : Nat) : Field := ⟨Reg.ENG_FLAG_MASK n, 8, 0⟩
/-- ENG_FAULT_PC.ADDR, RO. -/
def ENG_FAULT_PC_ADDR (n : Nat) : Field := ⟨Reg.ENG_FAULT_PC n, 17, 1⟩
/-- ENG_MODE.ASAT, RW. -/
def ENG_MODE_ASAT (n : Nat) : Field := ⟨Reg.ENG_MODE n, 3, 3⟩
/-- ENG_MODE.STW, RW. -/
def ENG_MODE_STW (n : Nat) : Field := ⟨Reg.ENG_MODE n, 2, 2⟩
/-- ENG_MODE.RND, RW. -/
def ENG_MODE_RND (n : Nat) : Field := ⟨Reg.ENG_MODE n, 1, 0⟩
/-- ENG_ISSUE.WB_END, RO. -/
def ENG_ISSUE_WB_END (n : Nat) : Field := ⟨Reg.ENG_ISSUE n, 24, 16⟩
/-- ENG_ISSUE.ISSUED, RO. -/
def ENG_ISSUE_ISSUED (n : Nat) : Field := ⟨Reg.ENG_ISSUE n, 15, 0⟩
/-- ENG_MEM_STATUS.COLL, W1C. -/
def ENG_MEM_STATUS_COLL (n : Nat) : Field := ⟨Reg.ENG_MEM_STATUS n, 5, 5⟩
/-- ENG_MEM_STATUS.ECC_UE, W1C. -/
def ENG_MEM_STATUS_ECC_UE (n : Nat) : Field := ⟨Reg.ENG_MEM_STATUS n, 4, 4⟩
/-- ENG_MEM_STATUS.ECC_CE, W1C. -/
def ENG_MEM_STATUS_ECC_CE (n : Nat) : Field := ⟨Reg.ENG_MEM_STATUS n, 3, 3⟩
/-- ENG_MEM_STATUS.BANKC, W1C. -/
def ENG_MEM_STATUS_BANKC (n : Nat) : Field := ⟨Reg.ENG_MEM_STATUS n, 2, 2⟩
/-- ENG_MEM_STATUS.NOMEM, W1C. -/
def ENG_MEM_STATUS_NOMEM (n : Nat) : Field := ⟨Reg.ENG_MEM_STATUS n, 1, 1⟩
/-- ENG_MEM_STATUS.ROWR, W1C. -/
def ENG_MEM_STATUS_ROWR (n : Nat) : Field := ⟨Reg.ENG_MEM_STATUS n, 0, 0⟩
/-- ENG_MEM_MASK.MASK, RW. -/
def ENG_MEM_MASK_MASK (n : Nat) : Field := ⟨Reg.ENG_MEM_MASK n, 5, 0⟩
/-- ENG_COLL_CNT.BANKC_CNT, RC. -/
def ENG_COLL_CNT_BANKC_CNT (n : Nat) : Field := ⟨Reg.ENG_COLL_CNT n, 31, 16⟩
/-- ENG_COLL_CNT.COLL_CNT, RC. -/
def ENG_COLL_CNT_COLL_CNT (n : Nat) : Field := ⟨Reg.ENG_COLL_CNT n, 15, 0⟩
/-- ENG_ECC_STATUS.CE_CNT, RC. -/
def ENG_ECC_STATUS_CE_CNT (n : Nat) : Field := ⟨Reg.ENG_ECC_STATUS n, 31, 16⟩
/-- ENG_ECC_STATUS.UE_CNT, RC. -/
def ENG_ECC_STATUS_UE_CNT (n : Nat) : Field := ⟨Reg.ENG_ECC_STATUS n, 15, 0⟩
/-- ENG_ECC_ADDR.CBANK, RO. -/
def ENG_ECC_ADDR_CBANK (n : Nat) : Field := ⟨Reg.ENG_ECC_ADDR n, 31, 31⟩
/-- ENG_ECC_ADDR.OFFSET, RO. -/
def ENG_ECC_ADDR_OFFSET (n : Nat) : Field := ⟨Reg.ENG_ECC_ADDR n, 20, 2⟩
/-- ENG_SCRUB.PASS_CNT, RO. -/
def ENG_SCRUB_PASS_CNT (n : Nat) : Field := ⟨Reg.ENG_SCRUB n, 31, 16⟩
/-- ENG_SCRUB.RATE, RW. -/
def ENG_SCRUB_RATE (n : Nat) : Field := ⟨Reg.ENG_SCRUB n, 4, 0⟩
/-- ENG_RET.DELAY, RW. -/
def ENG_RET_DELAY (n : Nat) : Field := ⟨Reg.ENG_RET n, 2, 2⟩
/-- ENG_RET.COEF, RW. -/
def ENG_RET_COEF (n : Nat) : Field := ⟨Reg.ENG_RET n, 1, 1⟩
/-- ENG_RET.PROG, RW. -/
def ENG_RET_PROG (n : Nat) : Field := ⟨Reg.ENG_RET n, 0, 0⟩
/-- ENG_SEG_LEN_NEXT.PEND, RO. -/
def ENG_SEG_LEN_NEXT_PEND (n k : Nat) : Field := ⟨Reg.ENG_SEG_LEN_NEXT n k, 31, 31⟩
/-- ENG_SEG_LEN_NEXT.LEN, RW. -/
def ENG_SEG_LEN_NEXT_LEN (n k : Nat) : Field := ⟨Reg.ENG_SEG_LEN_NEXT n k, 17, 0⟩
/-- SERAI_SCRUB.PASS_CNT, RO. -/
def SERAI_SCRUB_PASS_CNT : Field := ⟨Reg.SERAI_SCRUB, 31, 16⟩
/-- SERAI_SCRUB.RATE, RW. -/
def SERAI_SCRUB_RATE : Field := ⟨Reg.SERAI_SCRUB, 4, 0⟩
/-- SERAI_ECC_STATUS.CE_CNT, RC. -/
def SERAI_ECC_STATUS_CE_CNT : Field := ⟨Reg.SERAI_ECC_STATUS, 31, 16⟩
/-- SERAI_ECC_STATUS.UE, W1C. -/
def SERAI_ECC_STATUS_UE : Field := ⟨Reg.SERAI_ECC_STATUS, 1, 1⟩
/-- SERAI_ECC_STATUS.CE, W1C. -/
def SERAI_ECC_STATUS_CE : Field := ⟨Reg.SERAI_ECC_STATUS, 0, 0⟩
/-- SERAI_ECC_ADDR.OFFSET, RO. -/
def SERAI_ECC_ADDR_OFFSET : Field := ⟨Reg.SERAI_ECC_ADDR, 23, 2⟩
/-- SERAI_COLL_CNT.COLL_CNT, RC. -/
def SERAI_COLL_CNT_COLL_CNT : Field := ⟨Reg.SERAI_COLL_CNT, 15, 0⟩
/-- STRM_CFG.EN, RW. -/
def STRM_CFG_EN : Field := ⟨Reg.STRM_CFG, 31, 31⟩
/-- STRM_CFG.WINDOW, RW. -/
def STRM_CFG_WINDOW : Field := ⟨Reg.STRM_CFG, 10, 0⟩
/-- STRM_STATUS.START_LATE, W1C. -/
def STRM_STATUS_START_LATE : Field := ⟨Reg.STRM_STATUS, 6, 6⟩
/-- STRM_STATUS.WR_OVR, W1C. -/
def STRM_STATUS_WR_OVR : Field := ⟨Reg.STRM_STATUS, 5, 5⟩
/-- STRM_STATUS.OFFCLAMP, W1C. -/
def STRM_STATUS_OFFCLAMP : Field := ⟨Reg.STRM_STATUS, 4, 4⟩
/-- STRM_STATUS.REJECT, W1C. -/
def STRM_STATUS_REJECT : Field := ⟨Reg.STRM_STATUS, 3, 3⟩
/-- STRM_STATUS.CMD_OVF, W1C. -/
def STRM_STATUS_CMD_OVF : Field := ⟨Reg.STRM_STATUS, 2, 2⟩
/-- STRM_STATUS.SQ_OVF, W1C. -/
def STRM_STATUS_SQ_OVF : Field := ⟨Reg.STRM_STATUS, 1, 1⟩
/-- STRM_STATUS.MISS, W1C. -/
def STRM_STATUS_MISS : Field := ⟨Reg.STRM_STATUS, 0, 0⟩
/-- STRM_CAP.PEAK, RC. -/
def STRM_CAP_PEAK : Field := ⟨Reg.STRM_CAP, 31, 16⟩
/-- STRM_CAP.CAP, RO. -/
def STRM_CAP_CAP : Field := ⟨Reg.STRM_CAP, 15, 0⟩
/-- STRM_MISS_TOTAL.COUNT, RC. -/
def STRM_MISS_TOTAL_COUNT : Field := ⟨Reg.STRM_MISS_TOTAL, 31, 0⟩
/-- STRM_SQUASH_CNT.COUNT, RC. -/
def STRM_SQUASH_CNT_COUNT : Field := ⟨Reg.STRM_SQUASH_CNT, 31, 0⟩
/-- STRM_LAST_MISS.STREAM, RO. -/
def STRM_LAST_MISS_STREAM : Field := ⟨Reg.STRM_LAST_MISS, 31, 0⟩
/-- STRM_REJ.REASON, RO. -/
def STRM_REJ_REASON : Field := ⟨Reg.STRM_REJ, 31, 28⟩
/-- STRM_REJ.STREAM, RO. -/
def STRM_REJ_STREAM : Field := ⟨Reg.STRM_REJ, 11, 0⟩
/-- STRM_SEL.STREAM, RW. -/
def STRM_SEL_STREAM : Field := ⟨Reg.STRM_SEL, 11, 0⟩
/-- STRM_CMD.BUSY, RO. -/
def STRM_CMD_BUSY : Field := ⟨Reg.STRM_CMD, 31, 31⟩
/-- STRM_CMD.DEPTH, RO. -/
def STRM_CMD_DEPTH : Field := ⟨Reg.STRM_CMD, 22, 16⟩
/-- STRM_CMD.OP, WO. -/
def STRM_CMD_OP : Field := ⟨Reg.STRM_CMD, 2, 0⟩
/-- STRM_AT_LO.AT, RW. -/
def STRM_AT_LO_AT : Field := ⟨Reg.STRM_AT_LO, 31, 0⟩
/-- STRM_AT_HI.AT, RW. -/
def STRM_AT_HI_AT : Field := ⟨Reg.STRM_AT_HI, 31, 0⟩
/-- STRM_D.D, RW. -/
def STRM_D_D (n : Nat) : Field := ⟨Reg.STRM_D n, 31, 0⟩
/-- STRM_STATE.RUN, RO. -/
def STRM_STATE_RUN : Field := ⟨Reg.STRM_STATE, 31, 31⟩
/-- STRM_STATE.READY, RO. -/
def STRM_STATE_READY : Field := ⟨Reg.STRM_STATE, 30, 30⟩
/-- STRM_STATE.PRIMED, RO. -/
def STRM_STATE_PRIMED : Field := ⟨Reg.STRM_STATE, 29, 29⟩
/-- STRM_STATE.ENDED, RO. -/
def STRM_STATE_ENDED : Field := ⟨Reg.STRM_STATE, 28, 28⟩
/-- STRM_STATE.OFFCLAMP, RO. -/
def STRM_STATE_OFFCLAMP : Field := ⟨Reg.STRM_STATE, 27, 27⟩
/-- STRM_STATE.DEPTH, RO. -/
def STRM_STATE_DEPTH : Field := ⟨Reg.STRM_STATE, 26, 16⟩
/-- STRM_STATE.MISS_CNT, RO. -/
def STRM_STATE_MISS_CNT : Field := ⟨Reg.STRM_STATE, 15, 0⟩
/-- STRM_POS_LO.POS, RO. -/
def STRM_POS_LO_POS : Field := ⟨Reg.STRM_POS_LO, 31, 0⟩
/-- STRM_POS_HI.POS, RO. -/
def STRM_POS_HI_POS : Field := ⟨Reg.STRM_POS_HI, 31, 0⟩
/-- DDR_CFG.DBI, RW. -/
def DDR_CFG_DBI : Field := ⟨Reg.DDR_CFG, 13, 13⟩
/-- DDR_CFG.LINK_ECC, RW. -/
def DDR_CFG_LINK_ECC : Field := ⟨Reg.DDR_CFG, 12, 12⟩
/-- DDR_CFG.DENSITY, RW. -/
def DDR_CFG_DENSITY : Field := ⟨Reg.DDR_CFG, 9, 8⟩
/-- DDR_CFG.RANKS, RW. -/
def DDR_CFG_RANKS : Field := ⟨Reg.DDR_CFG, 4, 4⟩
/-- DDR_CFG.RATE, RW. -/
def DDR_CFG_RATE : Field := ⟨Reg.DDR_CFG, 1, 0⟩
/-- DDR_CTRL.RETRAIN, RW. -/
def DDR_CTRL_RETRAIN : Field := ⟨Reg.DDR_CTRL, 11, 8⟩
/-- DDR_CTRL.INIT, WO. -/
def DDR_CTRL_INIT : Field := ⟨Reg.DDR_CTRL, 0, 0⟩
/-- DDR_STATUS.MR4_RATE, RO. -/
def DDR_STATUS_MR4_RATE : Field := ⟨Reg.DDR_STATUS, 15, 12⟩
/-- DDR_STATUS.FAIL_STEP, RO. -/
def DDR_STATUS_FAIL_STEP : Field := ⟨Reg.DDR_STATUS, 11, 8⟩
/-- DDR_STATUS.ECC_UE, W1C. -/
def DDR_STATUS_ECC_UE : Field := ⟨Reg.DDR_STATUS, 7, 7⟩
/-- DDR_STATUS.ECC_CE, W1C. -/
def DDR_STATUS_ECC_CE : Field := ⟨Reg.DDR_STATUS, 6, 6⟩
/-- DDR_STATUS.HOT, W1C. -/
def DDR_STATUS_HOT : Field := ⟨Reg.DDR_STATUS, 5, 5⟩
/-- DDR_STATUS.DERATE, RO. -/
def DDR_STATUS_DERATE : Field := ⟨Reg.DDR_STATUS, 4, 4⟩
/-- DDR_STATUS.SELF_REFRESH, RO. -/
def DDR_STATUS_SELF_REFRESH : Field := ⟨Reg.DDR_STATUS, 3, 3⟩
/-- DDR_STATUS.TRAINED, W1C. -/
def DDR_STATUS_TRAINED : Field := ⟨Reg.DDR_STATUS, 2, 2⟩
/-- DDR_STATUS.TRAIN_FAIL, RO. -/
def DDR_STATUS_TRAIN_FAIL : Field := ⟨Reg.DDR_STATUS, 1, 1⟩
/-- DDR_STATUS.READY, RO. -/
def DDR_STATUS_READY : Field := ⟨Reg.DDR_STATUS, 0, 0⟩
/-- DDR_ECC_CNT.CE_CNT, RC. -/
def DDR_ECC_CNT_CE_CNT : Field := ⟨Reg.DDR_ECC_CNT, 31, 16⟩
/-- DDR_ECC_CNT.UE_CNT, RC. -/
def DDR_ECC_CNT_UE_CNT : Field := ⟨Reg.DDR_ECC_CNT, 15, 0⟩
/-- SWAP_CTRL.ARM, WO. -/
def SWAP_CTRL_ARM (n : Nat) : Field := ⟨Reg.SWAP_CTRL n, 31, 31⟩
/-- SWAP_CTRL.DISARM, WO. -/
def SWAP_CTRL_DISARM (n : Nat) : Field := ⟨Reg.SWAP_CTRL n, 30, 30⟩
/-- SWAP_CTRL.IMM, RW. -/
def SWAP_CTRL_IMM (n : Nat) : Field := ⟨Reg.SWAP_CTRL n, 29, 29⟩
/-- SWAP_CTRL.CF, RW. -/
def SWAP_CTRL_CF (n : Nat) : Field := ⟨Reg.SWAP_CTRL n, 28, 28⟩
/-- SWAP_CTRL.ARMED, RO. -/
def SWAP_CTRL_ARMED (n : Nat) : Field := ⟨Reg.SWAP_CTRL n, 27, 27⟩
/-- SWAP_CTRL.SWAPPED, RO. -/
def SWAP_CTRL_SWAPPED (n : Nat) : Field := ⟨Reg.SWAP_CTRL n, 26, 26⟩
/-- SWAP_CTRL.DONE, W1C. -/
def SWAP_CTRL_DONE (n : Nat) : Field := ⟨Reg.SWAP_CTRL n, 25, 25⟩
/-- SWAP_CTRL.LATE, W1C. -/
def SWAP_CTRL_LATE (n : Nat) : Field := ⟨Reg.SWAP_CTRL n, 24, 24⟩
/-- SWAP_CTRL.REASON, RO. -/
def SWAP_CTRL_REASON (n : Nat) : Field := ⟨Reg.SWAP_CTRL n, 22, 20⟩
/-- SWAP_CTRL.MASK, RW. -/
def SWAP_CTRL_MASK (n : Nat) : Field := ⟨Reg.SWAP_CTRL n, 9, 0⟩
/-- SWAP_AT_LO.AT, RW. -/
def SWAP_AT_LO_AT (n : Nat) : Field := ⟨Reg.SWAP_AT_LO n, 31, 0⟩
/-- SWAP_AT_HI.AT, RW. -/
def SWAP_AT_HI_AT (n : Nat) : Field := ⟨Reg.SWAP_AT_HI n, 31, 0⟩
/-- PAN_STATUS.CF_BUSY, RO. -/
def PAN_STATUS_CF_BUSY : Field := ⟨Reg.PAN_STATUS, 29, 20⟩
/-- PAN_STATUS.FRONT_WR, W1C. -/
def PAN_STATUS_FRONT_WR : Field := ⟨Reg.PAN_STATUS, 19, 10⟩
/-- PAN_STATUS.ARMED_WR, W1C. -/
def PAN_STATUS_ARMED_WR : Field := ⟨Reg.PAN_STATUS, 9, 0⟩
/-- PAN_ROLE.FRONT, RO. -/
def PAN_ROLE_FRONT : Field := ⟨Reg.PAN_ROLE, 9, 0⟩
/-- GLD_STATUS.REJ_REASON, RO. -/
def GLD_STATUS_REJ_REASON : Field := ⟨Reg.GLD_STATUS, 29, 28⟩
/-- GLD_STATUS.REJ_CH, RO. -/
def GLD_STATUS_REJ_CH : Field := ⟨Reg.GLD_STATUS, 27, 18⟩
/-- GLD_STATUS.GRP_DONE, W1C. -/
def GLD_STATUS_GRP_DONE : Field := ⟨Reg.GLD_STATUS, 17, 10⟩
/-- GLD_STATUS.GSLIP, W1C. -/
def GLD_STATUS_GSLIP : Field := ⟨Reg.GLD_STATUS, 3, 3⟩
/-- GLD_STATUS.REJ, W1C. -/
def GLD_STATUS_REJ : Field := ⟨Reg.GLD_STATUS, 2, 2⟩
/-- GLD_CTRL.GO, WO. -/
def GLD_CTRL_GO (n : Nat) : Field := ⟨Reg.GLD_CTRL n, 31, 31⟩
/-- GLD_CTRL.EN, RW. -/
def GLD_CTRL_EN (n : Nat) : Field := ⟨Reg.GLD_CTRL n, 30, 30⟩
/-- GLD_CTRL.LAW, RW. -/
def GLD_CTRL_LAW (n : Nat) : Field := ⟨Reg.GLD_CTRL n, 29, 29⟩
/-- GLD_CTRL.SFC, RW. -/
def GLD_CTRL_SFC (n : Nat) : Field := ⟨Reg.GLD_CTRL n, 28, 28⟩
/-- GLD_CTRL.GROUP, RW. -/
def GLD_CTRL_GROUP (n : Nat) : Field := ⟨Reg.GLD_CTRL n, 25, 23⟩
/-- GLD_CTRL.SYNC_EN, RW. -/
def GLD_CTRL_SYNC_EN (n : Nat) : Field := ⟨Reg.GLD_CTRL n, 22, 22⟩
/-- GLD_CTRL.SLOT, RW. -/
def GLD_CTRL_SLOT (n : Nat) : Field := ⟨Reg.GLD_CTRL n, 21, 20⟩
/-- GLD_CTRL.ENG, RW. -/
def GLD_CTRL_ENG (n : Nat) : Field := ⟨Reg.GLD_CTRL n, 19, 16⟩
/-- GLD_CTRL.INDEX, RW. -/
def GLD_CTRL_INDEX (n : Nat) : Field := ⟨Reg.GLD_CTRL n, 14, 0⟩
/-- GLD_TARGET.TARGET, RW. -/
def GLD_TARGET_TARGET (n : Nat) : Field := ⟨Reg.GLD_TARGET n, 31, 0⟩
/-- GLD_RATE.SNAP, RW. -/
def GLD_RATE_SNAP (n : Nat) : Field := ⟨Reg.GLD_RATE n, 31, 24⟩
/-- GLD_RATE.A_HI, RW. -/
def GLD_RATE_A_HI (n : Nat) : Field := ⟨Reg.GLD_RATE n, 23, 16⟩
/-- GLD_RATE.N, RW. -/
def GLD_RATE_N (n : Nat) : Field := ⟨Reg.GLD_RATE n, 15, 0⟩
/-- GLD_STATE.OWNS, RO. -/
def GLD_STATE_OWNS (n : Nat) : Field := ⟨Reg.GLD_STATE n, 31, 31⟩
/-- GLD_STATE.MOVING, RO. -/
def GLD_STATE_MOVING (n : Nat) : Field := ⟨Reg.GLD_STATE n, 30, 30⟩
/-- GLD_STATE.PEND, RO. -/
def GLD_STATE_PEND (n : Nat) : Field := ⟨Reg.GLD_STATE n, 29, 29⟩
/-- GLD_STATE.REMAIN, RO. -/
def GLD_STATE_REMAIN (n : Nat) : Field := ⟨Reg.GLD_STATE n, 15, 0⟩
/-- GLD_VALUE.VALUE, RO. -/
def GLD_VALUE_VALUE (n : Nat) : Field := ⟨Reg.GLD_VALUE n, 31, 0⟩
/-- REPLAY_CFG.EN, RW. -/
def REPLAY_CFG_EN : Field := ⟨Reg.REPLAY_CFG, 31, 31⟩
/-- REPLAY_CFG.SILENT, RW. -/
def REPLAY_CFG_SILENT : Field := ⟨Reg.REPLAY_CFG, 30, 30⟩
/-- REPLAY_CFG.POLICY, RW. -/
def REPLAY_CFG_POLICY : Field := ⟨Reg.REPLAY_CFG, 9, 0⟩
/-- REPLAY_STATUS.ESC, W1C. -/
def REPLAY_STATUS_ESC : Field := ⟨Reg.REPLAY_STATUS, 29, 20⟩
/-- REPLAY_STATUS.LATE, W1C. -/
def REPLAY_STATUS_LATE : Field := ⟨Reg.REPLAY_STATUS, 19, 10⟩
/-- REPLAY_STATUS.DONE, W1C. -/
def REPLAY_STATUS_DONE : Field := ⟨Reg.REPLAY_STATUS, 9, 0⟩
/-- REPLAY_CNT.LATE_CNT, RC. -/
def REPLAY_CNT_LATE_CNT : Field := ⟨Reg.REPLAY_CNT, 31, 16⟩
/-- REPLAY_CNT.DONE_CNT, RC. -/
def REPLAY_CNT_DONE_CNT : Field := ⟨Reg.REPLAY_CNT, 15, 0⟩
/-- REPLAY_CONE.LEN, RO. -/
def REPLAY_CONE_LEN (n : Nat) : Field := ⟨Reg.REPLAY_CONE n, 31, 16⟩
/-- REPLAY_CONE.MASK, RW. -/
def REPLAY_CONE_MASK (n : Nat) : Field := ⟨Reg.REPLAY_CONE n, 9, 0⟩
/-- REPLAY_REC.DET, RO. -/
def REPLAY_REC_DET (n : Nat) : Field := ⟨Reg.REPLAY_REC n, 31, 28⟩
/-- REPLAY_REC.OUTCOME, RO. -/
def REPLAY_REC_OUTCOME (n : Nat) : Field := ⟨Reg.REPLAY_REC n, 27, 26⟩
/-- REPLAY_REC.CONE, RO. -/
def REPLAY_REC_CONE (n : Nat) : Field := ⟨Reg.REPLAY_REC n, 25, 16⟩
/-- REPLAY_REC.CYCLE, RO. -/
def REPLAY_REC_CYCLE (n : Nat) : Field := ⟨Reg.REPLAY_REC n, 15, 0⟩
/-- SPARE_CFG.EN, RW. -/
def SPARE_CFG_EN : Field := ⟨Reg.SPARE_CFG, 31, 31⟩
/-- SPARE_CFG.SPARE, RW. -/
def SPARE_CFG_SPARE : Field := ⟨Reg.SPARE_CFG, 3, 0⟩
/-- ENG_MAP_LO.MAP, RO. -/
def ENG_MAP_LO_MAP : Field := ⟨Reg.ENG_MAP_LO, 31, 0⟩
/-- ENG_MAP_HI.MAP, RO. -/
def ENG_MAP_HI_MAP : Field := ⟨Reg.ENG_MAP_HI, 7, 0⟩
/-- MIG_CTRL.START, WO. -/
def MIG_CTRL_START : Field := ⟨Reg.MIG_CTRL, 31, 31⟩
/-- MIG_CTRL.ABORT, WO. -/
def MIG_CTRL_ABORT : Field := ⟨Reg.MIG_CTRL, 30, 30⟩
/-- MIG_CTRL.SRC, RW. -/
def MIG_CTRL_SRC : Field := ⟨Reg.MIG_CTRL, 19, 16⟩
/-- MIG_CTRL.CLEAN, RW. -/
def MIG_CTRL_CLEAN : Field := ⟨Reg.MIG_CTRL, 15, 0⟩
/-- MIG_AT_LO.AT, RW. -/
def MIG_AT_LO_AT : Field := ⟨Reg.MIG_AT_LO, 31, 0⟩
/-- MIG_AT_HI.AT, RW. -/
def MIG_AT_HI_AT : Field := ⟨Reg.MIG_AT_HI, 31, 0⟩
/-- MIG_STATUS.PHASE, RO. -/
def MIG_STATUS_PHASE : Field := ⟨Reg.MIG_STATUS, 31, 30⟩
/-- MIG_STATUS.DONE, W1C. -/
def MIG_STATUS_DONE : Field := ⟨Reg.MIG_STATUS, 29, 29⟩
/-- MIG_STATUS.ABORTED, W1C. -/
def MIG_STATUS_ABORTED : Field := ⟨Reg.MIG_STATUS, 28, 28⟩
/-- MIG_STATUS.REASON, RO. -/
def MIG_STATUS_REASON : Field := ⟨Reg.MIG_STATUS, 27, 24⟩
/-- MIG_STATUS.MISMATCH, RC. -/
def MIG_STATUS_MISMATCH : Field := ⟨Reg.MIG_STATUS, 23, 16⟩
/-- MIG_STATUS.CLEAN_CNT, RO. -/
def MIG_STATUS_CLEAN_CNT : Field := ⟨Reg.MIG_STATUS, 15, 0⟩
/-- BIST_CTRL.START, WO. -/
def BIST_CTRL_START : Field := ⟨Reg.BIST_CTRL, 31, 31⟩
/-- BIST_CTRL.MEM, RW. -/
def BIST_CTRL_MEM : Field := ⟨Reg.BIST_CTRL, 30, 30⟩
/-- BIST_CTRL.LOGIC, RW. -/
def BIST_CTRL_LOGIC : Field := ⟨Reg.BIST_CTRL, 29, 29⟩
/-- BIST_CTRL.ENG, RW. -/
def BIST_CTRL_ENG : Field := ⟨Reg.BIST_CTRL, 3, 0⟩
/-- BIST_STATUS.BUSY, RO. -/
def BIST_STATUS_BUSY : Field := ⟨Reg.BIST_STATUS, 31, 31⟩
/-- BIST_STATUS.DONE, W1C. -/
def BIST_STATUS_DONE : Field := ⟨Reg.BIST_STATUS, 30, 30⟩
/-- BIST_STATUS.FAIL, RO. -/
def BIST_STATUS_FAIL : Field := ⟨Reg.BIST_STATUS, 29, 29⟩
/-- BIST_STATUS.WHERE, RO. -/
def BIST_STATUS_WHERE : Field := ⟨Reg.BIST_STATUS, 28, 26⟩
/-- BIST_STATUS.ADDR, RO. -/
def BIST_STATUS_ADDR : Field := ⟨Reg.BIST_STATUS, 17, 0⟩
/-- LOOP_CTRL.START, WO. -/
def LOOP_CTRL_START : Field := ⟨Reg.LOOP_CTRL, 31, 31⟩
/-- LOOP_CTRL.STOP, WO. -/
def LOOP_CTRL_STOP : Field := ⟨Reg.LOOP_CTRL, 30, 30⟩
/-- LOOP_CTRL.PORT, RW. -/
def LOOP_CTRL_PORT : Field := ⟨Reg.LOOP_CTRL, 18, 16⟩
/-- LOOP_CTRL.FRAMES, RW. -/
def LOOP_CTRL_FRAMES : Field := ⟨Reg.LOOP_CTRL, 15, 0⟩
/-- LOOP_STATUS.BUSY, RO. -/
def LOOP_STATUS_BUSY : Field := ⟨Reg.LOOP_STATUS, 31, 31⟩
/-- LOOP_STATUS.DONE, W1C. -/
def LOOP_STATUS_DONE : Field := ⟨Reg.LOOP_STATUS, 30, 30⟩
/-- LOOP_STATUS.SYNC, RO. -/
def LOOP_STATUS_SYNC : Field := ⟨Reg.LOOP_STATUS, 29, 29⟩
/-- LOOP_STATUS.ERR_CNT, RC. -/
def LOOP_STATUS_ERR_CNT : Field := ⟨Reg.LOOP_STATUS, 15, 0⟩
/-- TLK_CFG.EN, RW. -/
def TLK_CFG_EN : Field := ⟨Reg.TLK_CFG, 31, 31⟩
/-- TLK_CFG.ROLE, RW. -/
def TLK_CFG_ROLE : Field := ⟨Reg.TLK_CFG, 30, 30⟩
/-- TLK_CFG.TOKEN_INIT, RW. -/
def TLK_CFG_TOKEN_INIT : Field := ⟨Reg.TLK_CFG, 29, 29⟩
/-- TLK_CFG.MODE_REQ, RW. -/
def TLK_CFG_MODE_REQ : Field := ⟨Reg.TLK_CFG, 28, 28⟩
/-- TLK_CFG.GUARD, RW. -/
def TLK_CFG_GUARD : Field := ⟨Reg.TLK_CFG, 27, 27⟩
/-- TLK_CFG.DIV_DISARM, RW. -/
def TLK_CFG_DIV_DISARM : Field := ⟨Reg.TLK_CFG, 26, 26⟩
/-- TLK_CFG.SENSE_ADV, RW. -/
def TLK_CFG_SENSE_ADV : Field := ⟨Reg.TLK_CFG, 23, 20⟩
/-- TLK_CFG.WARM_FADE, RW. -/
def TLK_CFG_WARM_FADE : Field := ⟨Reg.TLK_CFG, 19, 12⟩
/-- TLK_CFG.LEAD, RW. -/
def TLK_CFG_LEAD : Field := ⟨Reg.TLK_CFG, 11, 6⟩
/-- TLK_FWD.LDG_PER_FRAME, RW. -/
def TLK_FWD_LDG_PER_FRAME : Field := ⟨Reg.TLK_FWD, 31, 24⟩
/-- TLK_FWD.SENSE, RW. -/
def TLK_FWD_SENSE : Field := ⟨Reg.TLK_FWD, 9, 9⟩
/-- TLK_FWD.USB, RW. -/
def TLK_FWD_USB : Field := ⟨Reg.TLK_FWD, 8, 8⟩
/-- TLK_FWD.SAP, RW. -/
def TLK_FWD_SAP : Field := ⟨Reg.TLK_FWD, 7, 0⟩
/-- TLK_STATUS.STATE, RO. -/
def TLK_STATUS_STATE : Field := ⟨Reg.TLK_STATUS, 31, 28⟩
/-- TLK_STATUS.LINK_UP, RO. -/
def TLK_STATUS_LINK_UP : Field := ⟨Reg.TLK_STATUS, 27, 27⟩
/-- TLK_STATUS.TOKEN, RO. -/
def TLK_STATUS_TOKEN : Field := ⟨Reg.TLK_STATUS, 26, 26⟩
/-- TLK_STATUS.ARMED, RO. -/
def TLK_STATUS_ARMED : Field := ⟨Reg.TLK_STATUS, 25, 25⟩
/-- TLK_STATUS.LATCHED, RO. -/
def TLK_STATUS_LATCHED : Field := ⟨Reg.TLK_STATUS, 24, 24⟩
/-- TLK_STATUS.PART_ARMED, RO. -/
def TLK_STATUS_PART_ARMED : Field := ⟨Reg.TLK_STATUS, 23, 23⟩
/-- TLK_STATUS.DRIVE_IN, RO. -/
def TLK_STATUS_DRIVE_IN : Field := ⟨Reg.TLK_STATUS, 22, 22⟩
/-- TLK_STATUS.KILL_IN, RO. -/
def TLK_STATUS_KILL_IN : Field := ⟨Reg.TLK_STATUS, 21, 21⟩
/-- TLK_STATUS.LEADER, RO. -/
def TLK_STATUS_LEADER : Field := ⟨Reg.TLK_STATUS, 20, 20⟩
/-- TLK_STATUS.MAJOR, RO. -/
def TLK_STATUS_MAJOR : Field := ⟨Reg.TLK_STATUS, 19, 16⟩
/-- TLK_STATUS.MINOR, RO. -/
def TLK_STATUS_MINOR : Field := ⟨Reg.TLK_STATUS, 15, 12⟩
/-- TLK_STATUS.FAIL_REASON, RO. -/
def TLK_STATUS_FAIL_REASON : Field := ⟨Reg.TLK_STATUS, 11, 8⟩
/-- TLK_EVT.EVT, W1C. -/
def TLK_EVT_EVT : Field := ⟨Reg.TLK_EVT, 7, 0⟩
/-- TLK_LATCH.FORCE, WO. -/
def TLK_LATCH_FORCE : Field := ⟨Reg.TLK_LATCH, 31, 31⟩
/-- TLK_LATCH.KILL_PARTNER, WO. -/
def TLK_LATCH_KILL_PARTNER : Field := ⟨Reg.TLK_LATCH, 30, 30⟩
/-- TLK_LATCH.CLEAR, WO. -/
def TLK_LATCH_CLEAR : Field := ⟨Reg.TLK_LATCH, 29, 29⟩
/-- TLK_LATCH.REQ_DENIED, W1C. -/
def TLK_LATCH_REQ_DENIED : Field := ⟨Reg.TLK_LATCH, 28, 28⟩
/-- TLK_LATCH.CAUSE, RO. -/
def TLK_LATCH_CAUSE : Field := ⟨Reg.TLK_LATCH, 27, 24⟩
/-- TLK_TOKEN_MOVE.MOVE, WO. -/
def TLK_TOKEN_MOVE_MOVE : Field := ⟨Reg.TLK_TOKEN_MOVE, 0, 0⟩
/-- TLK_PART_INFO.REV, RO. -/
def TLK_PART_INFO_REV : Field := ⟨Reg.TLK_PART_INFO, 31, 24⟩
/-- TLK_PART_INFO.MAJORS, RO. -/
def TLK_PART_INFO_MAJORS : Field := ⟨Reg.TLK_PART_INFO, 23, 16⟩
/-- TLK_PART_BUILD.BUILD, RO. -/
def TLK_PART_BUILD_BUILD : Field := ⟨Reg.TLK_PART_BUILD, 31, 0⟩
/-- TLK_LDG_ADDR.ADDR, RW. -/
def TLK_LDG_ADDR_ADDR : Field := ⟨Reg.TLK_LDG_ADDR, 31, 0⟩
/-- TLK_LDG_DATA.DATA, RW. -/
def TLK_LDG_DATA_DATA : Field := ⟨Reg.TLK_LDG_DATA, 31, 0⟩
/-- TLK_LDG_AT_LO.AT, RW. -/
def TLK_LDG_AT_LO_AT : Field := ⟨Reg.TLK_LDG_AT_LO, 31, 0⟩
/-- TLK_LDG_AT_HI.AT, RW. -/
def TLK_LDG_AT_HI_AT : Field := ⟨Reg.TLK_LDG_AT_HI, 31, 0⟩
/-- TLK_LDG_CMD.SUBMIT, WO. -/
def TLK_LDG_CMD_SUBMIT : Field := ⟨Reg.TLK_LDG_CMD, 31, 31⟩
/-- TLK_LDG_CMD.RESTAMPED, W1C. -/
def TLK_LDG_CMD_RESTAMPED : Field := ⟨Reg.TLK_LDG_CMD, 30, 30⟩
/-- TLK_LDG_CMD.REJ, RO. -/
def TLK_LDG_CMD_REJ : Field := ⟨Reg.TLK_LDG_CMD, 29, 26⟩
/-- TLK_LDG_CMD.QDEPTH, RO. -/
def TLK_LDG_CMD_QDEPTH : Field := ⟨Reg.TLK_LDG_CMD, 22, 16⟩
/-- TLK_LDG_STAMP_LO.STAMP, RO. -/
def TLK_LDG_STAMP_LO_STAMP : Field := ⟨Reg.TLK_LDG_STAMP_LO, 31, 0⟩
/-- TLK_LDG_STAMP_HI.STAMP, RO. -/
def TLK_LDG_STAMP_HI_STAMP : Field := ⟨Reg.TLK_LDG_STAMP_HI, 31, 0⟩
/-- TLK_LDG_BASE_LO.BASE, RW. -/
def TLK_LDG_BASE_LO_BASE : Field := ⟨Reg.TLK_LDG_BASE_LO, 31, 25⟩
/-- TLK_LDG_BASE_LO.REC_EN, RW. -/
def TLK_LDG_BASE_LO_REC_EN : Field := ⟨Reg.TLK_LDG_BASE_LO, 0, 0⟩
/-- TLK_LDG_BASE_HI.BASE_HI, RW. -/
def TLK_LDG_BASE_HI_BASE_HI : Field := ⟨Reg.TLK_LDG_BASE_HI, 1, 0⟩
/-- TLK_DIGEST_OWN.OWN, RO. -/
def TLK_DIGEST_OWN_OWN : Field := ⟨Reg.TLK_DIGEST_OWN, 31, 0⟩
/-- TLK_DIGEST_PART.PART, RO. -/
def TLK_DIGEST_PART_PART : Field := ⟨Reg.TLK_DIGEST_PART, 31, 0⟩
/-- TLK_DIV_TICK_LO.TICK, RO. -/
def TLK_DIV_TICK_LO_TICK : Field := ⟨Reg.TLK_DIV_TICK_LO, 31, 0⟩
/-- TLK_DIV_CNT.COUNT, RC. -/
def TLK_DIV_CNT_COUNT : Field := ⟨Reg.TLK_DIV_CNT, 31, 0⟩
/-- TLK_REJOIN_CTRL.START, WO. -/
def TLK_REJOIN_CTRL_START : Field := ⟨Reg.TLK_REJOIN_CTRL, 31, 31⟩
/-- TLK_REJOIN_CTRL.ABORT, WO. -/
def TLK_REJOIN_CTRL_ABORT : Field := ⟨Reg.TLK_REJOIN_CTRL, 30, 30⟩
/-- TLK_REJOIN_CTRL.CLEAN, RW. -/
def TLK_REJOIN_CTRL_CLEAN : Field := ⟨Reg.TLK_REJOIN_CTRL, 15, 0⟩
/-- TLK_REJOIN_STATUS.PHASE, RO. -/
def TLK_REJOIN_STATUS_PHASE : Field := ⟨Reg.TLK_REJOIN_STATUS, 31, 28⟩
/-- TLK_REJOIN_STATUS.REASON, RO. -/
def TLK_REJOIN_STATUS_REASON : Field := ⟨Reg.TLK_REJOIN_STATUS, 27, 24⟩
/-- TLK_REJOIN_STATUS.DONE, W1C. -/
def TLK_REJOIN_STATUS_DONE : Field := ⟨Reg.TLK_REJOIN_STATUS, 23, 23⟩
/-- TLK_REJOIN_STATUS.ABORTED, W1C. -/
def TLK_REJOIN_STATUS_ABORTED : Field := ⟨Reg.TLK_REJOIN_STATUS, 22, 22⟩
/-- TLK_REJOIN_STATUS.LAG, RO. -/
def TLK_REJOIN_STATUS_LAG : Field := ⟨Reg.TLK_REJOIN_STATUS, 21, 12⟩
/-- TLK_REJOIN_STATUS.LEFT, RO. -/
def TLK_REJOIN_STATUS_LEFT : Field := ⟨Reg.TLK_REJOIN_STATUS, 11, 0⟩
/-- TLK_LINK_CNT.FRAME_LOST, RC. -/
def TLK_LINK_CNT_FRAME_LOST : Field := ⟨Reg.TLK_LINK_CNT, 31, 16⟩
/-- TLK_LINK_CNT.CRC_ERR, RC. -/
def TLK_LINK_CNT_CRC_ERR : Field := ⟨Reg.TLK_LINK_CNT, 15, 0⟩
/-- SAP_CTRL.EN, RW. -/
def SAP_CTRL_EN (n : Nat) : Field := ⟨Reg.SAP_CTRL n, 31, 31⟩
/-- SAP_CTRL.RESTART, WO. -/
def SAP_CTRL_RESTART (n : Nat) : Field := ⟨Reg.SAP_CTRL n, 30, 30⟩
/-- SAP_CTRL.MASTER, RW. -/
def SAP_CTRL_MASTER (n : Nat) : Field := ⟨Reg.SAP_CTRL n, 29, 29⟩
/-- SAP_CTRL.LOOSE, RW. -/
def SAP_CTRL_LOOSE (n : Nat) : Field := ⟨Reg.SAP_CTRL n, 28, 28⟩
/-- SAP_CTRL.ASRC, RW. -/
def SAP_CTRL_ASRC (n : Nat) : Field := ⟨Reg.SAP_CTRL n, 27, 27⟩
/-- SAP_CTRL.GRP_EN, RW. -/
def SAP_CTRL_GRP_EN (n : Nat) : Field := ⟨Reg.SAP_CTRL n, 26, 26⟩
/-- SAP_CTRL.GROUP, RW. -/
def SAP_CTRL_GROUP (n : Nat) : Field := ⟨Reg.SAP_CTRL n, 25, 24⟩
/-- SAP_CTRL.REF, RW. -/
def SAP_CTRL_REF (n : Nat) : Field := ⟨Reg.SAP_CTRL n, 23, 23⟩
/-- SAP_CTRL.SUBST, RW. -/
def SAP_CTRL_SUBST (n : Nat) : Field := ⟨Reg.SAP_CTRL n, 22, 22⟩
/-- SAP_CTRL.NEXT_EN, RW. -/
def SAP_CTRL_NEXT_EN (n : Nat) : Field := ⟨Reg.SAP_CTRL n, 21, 21⟩
/-- SAP_CTRL.TX_EN, RW. -/
def SAP_CTRL_TX_EN (n : Nat) : Field := ⟨Reg.SAP_CTRL n, 20, 20⟩
/-- SAP_CTRL.RX_EN, RW. -/
def SAP_CTRL_RX_EN (n : Nat) : Field := ⟨Reg.SAP_CTRL n, 19, 19⟩
/-- SAP_CTRL.RAMP, RW. -/
def SAP_CTRL_RAMP (n : Nat) : Field := ⟨Reg.SAP_CTRL n, 6, 0⟩
/-- SAP_FMT.FORMAT, RW. -/
def SAP_FMT_FORMAT (n : Nat) : Field := ⟨Reg.SAP_FMT n, 31, 30⟩
/-- SAP_FMT.SLOTS, RW. -/
def SAP_FMT_SLOTS (n : Nat) : Field := ⟨Reg.SAP_FMT n, 29, 25⟩
/-- SAP_FMT.BITS, RW. -/
def SAP_FMT_BITS (n : Nat) : Field := ⟨Reg.SAP_FMT n, 24, 23⟩
/-- SAP_FMT.WORD, RW. -/
def SAP_FMT_WORD (n : Nat) : Field := ⟨Reg.SAP_FMT n, 22, 21⟩
/-- SAP_FMT.DLY, RW. -/
def SAP_FMT_DLY (n : Nat) : Field := ⟨Reg.SAP_FMT n, 20, 20⟩
/-- SAP_FMT.FS_SHAPE, RW. -/
def SAP_FMT_FS_SHAPE (n : Nat) : Field := ⟨Reg.SAP_FMT n, 19, 18⟩
/-- SAP_FMT.FS_INV, RW. -/
def SAP_FMT_FS_INV (n : Nat) : Field := ⟨Reg.SAP_FMT n, 17, 17⟩
/-- SAP_FMT.BCLK_INV, RW. -/
def SAP_FMT_BCLK_INV (n : Nat) : Field := ⟨Reg.SAP_FMT n, 16, 16⟩
/-- SAP_FMT_NEXT.FORMAT, RW. -/
def SAP_FMT_NEXT_FORMAT (n : Nat) : Field := ⟨Reg.SAP_FMT_NEXT n, 31, 30⟩
/-- SAP_FMT_NEXT.SLOTS, RW. -/
def SAP_FMT_NEXT_SLOTS (n : Nat) : Field := ⟨Reg.SAP_FMT_NEXT n, 29, 25⟩
/-- SAP_FMT_NEXT.BITS, RW. -/
def SAP_FMT_NEXT_BITS (n : Nat) : Field := ⟨Reg.SAP_FMT_NEXT n, 24, 23⟩
/-- SAP_FMT_NEXT.WORD, RW. -/
def SAP_FMT_NEXT_WORD (n : Nat) : Field := ⟨Reg.SAP_FMT_NEXT n, 22, 21⟩
/-- SAP_FMT_NEXT.DLY, RW. -/
def SAP_FMT_NEXT_DLY (n : Nat) : Field := ⟨Reg.SAP_FMT_NEXT n, 20, 20⟩
/-- SAP_FMT_NEXT.FS_SHAPE, RW. -/
def SAP_FMT_NEXT_FS_SHAPE (n : Nat) : Field := ⟨Reg.SAP_FMT_NEXT n, 19, 18⟩
/-- SAP_FMT_NEXT.FS_INV, RW. -/
def SAP_FMT_NEXT_FS_INV (n : Nat) : Field := ⟨Reg.SAP_FMT_NEXT n, 17, 17⟩
/-- SAP_FMT_NEXT.BCLK_INV, RW. -/
def SAP_FMT_NEXT_BCLK_INV (n : Nat) : Field := ⟨Reg.SAP_FMT_NEXT n, 16, 16⟩
/-- SAP_TXSLOT.DRIVE, RW. -/
def SAP_TXSLOT_DRIVE (n : Nat) : Field := ⟨Reg.SAP_TXSLOT n, 31, 0⟩
/-- SAP_STATUS.RUNNING, RO. -/
def SAP_STATUS_RUNNING (n : Nat) : Field := ⟨Reg.SAP_STATUS n, 15, 15⟩
/-- SAP_STATUS.SUBST_ACT, RO. -/
def SAP_STATUS_SUBST_ACT (n : Nat) : Field := ⟨Reg.SAP_STATUS n, 14, 14⟩
/-- SAP_STATUS.MUTED, RO. -/
def SAP_STATUS_MUTED (n : Nat) : Field := ⟨Reg.SAP_STATUS n, 13, 13⟩
/-- SAP_STATUS.FMT_ERR, W1C. -/
def SAP_STATUS_FMT_ERR (n : Nat) : Field := ⟨Reg.SAP_STATUS n, 8, 8⟩
/-- SAP_STATUS.OVERRUN, W1C. -/
def SAP_STATUS_OVERRUN (n : Nat) : Field := ⟨Reg.SAP_STATUS n, 7, 7⟩
/-- SAP_STATUS.UNDERRUN, W1C. -/
def SAP_STATUS_UNDERRUN (n : Nat) : Field := ⟨Reg.SAP_STATUS n, 6, 6⟩
/-- SAP_STATUS.RATE_CHANGE, W1C. -/
def SAP_STATUS_RATE_CHANGE (n : Nat) : Field := ⟨Reg.SAP_STATUS n, 5, 5⟩
/-- SAP_STATUS.LOST, W1C. -/
def SAP_STATUS_LOST (n : Nat) : Field := ⟨Reg.SAP_STATUS n, 4, 4⟩
/-- SAP_STATUS.GLITCH, W1C. -/
def SAP_STATUS_GLITCH (n : Nat) : Field := ⟨Reg.SAP_STATUS n, 3, 3⟩
/-- SAP_STATUS.SLOTSLIP, W1C. -/
def SAP_STATUS_SLOTSLIP (n : Nat) : Field := ⟨Reg.SAP_STATUS n, 2, 2⟩
/-- SAP_STATUS.SLIP, W1C. -/
def SAP_STATUS_SLIP (n : Nat) : Field := ⟨Reg.SAP_STATUS n, 0, 0⟩
/-- SAP_MASK.MASK, RW. -/
def SAP_MASK_MASK (n : Nat) : Field := ⟨Reg.SAP_MASK n, 8, 0⟩
/-- SAP_CNT.GLITCH_CNT, RC. -/
def SAP_CNT_GLITCH_CNT (n : Nat) : Field := ⟨Reg.SAP_CNT n, 31, 16⟩
/-- SAP_CNT.SLIP_OUT_CNT, RC. -/
def SAP_CNT_SLIP_OUT_CNT (n : Nat) : Field := ⟨Reg.SAP_CNT n, 15, 8⟩
/-- SAP_CNT.SLIP_IN_CNT, RC. -/
def SAP_CNT_SLIP_IN_CNT (n : Nat) : Field := ⟨Reg.SAP_CNT n, 7, 0⟩
/-- SAP_MEAS.PHASE, RO. -/
def SAP_MEAS_PHASE (n : Nat) : Field := ⟨Reg.SAP_MEAS n, 31, 16⟩
/-- SAP_MEAS.DEV, RO. -/
def SAP_MEAS_DEV (n : Nat) : Field := ⟨Reg.SAP_MEAS n, 15, 0⟩
/-- ASRC_GCTRL.EN, RW. -/
def ASRC_GCTRL_EN (n : Nat) : Field := ⟨Reg.ASRC_GCTRL n, 31, 31⟩
/-- ASRC_GCTRL.PORT, RW. -/
def ASRC_GCTRL_PORT (n : Nat) : Field := ⟨Reg.ASRC_GCTRL n, 26, 24⟩
/-- ASRC_GCTRL.RAMP, RW. -/
def ASRC_GCTRL_RAMP (n : Nat) : Field := ⟨Reg.ASRC_GCTRL n, 7, 0⟩
/-- ASRC_GSTATUS.SETTLED, RO. -/
def ASRC_GSTATUS_SETTLED (n : Nat) : Field := ⟨Reg.ASRC_GSTATUS n, 31, 31⟩
/-- ASRC_GSTATUS.RAMPING, RO. -/
def ASRC_GSTATUS_RAMPING (n : Nat) : Field := ⟨Reg.ASRC_GSTATUS n, 30, 30⟩
/-- ASRC_GSTATUS.CONFLICT, W1C. -/
def ASRC_GSTATUS_CONFLICT (n : Nat) : Field := ⟨Reg.ASRC_GSTATUS n, 6, 6⟩
/-- ASRC_GSTATUS.RANGE, W1C. -/
def ASRC_GSTATUS_RANGE (n : Nat) : Field := ⟨Reg.ASRC_GSTATUS n, 5, 5⟩
/-- ASRC_GSTATUS.FIFO, W1C. -/
def ASRC_GSTATUS_FIFO (n : Nat) : Field := ⟨Reg.ASRC_GSTATUS n, 4, 4⟩
/-- ASRC_GSTATUS.LOST, W1C. -/
def ASRC_GSTATUS_LOST (n : Nat) : Field := ⟨Reg.ASRC_GSTATUS n, 3, 3⟩
/-- ASRC_GSTATUS.UNSETTLE, W1C. -/
def ASRC_GSTATUS_UNSETTLE (n : Nat) : Field := ⟨Reg.ASRC_GSTATUS n, 2, 2⟩
/-- ASRC_GSTATUS.SETTLE, W1C. -/
def ASRC_GSTATUS_SETTLE (n : Nat) : Field := ⟨Reg.ASRC_GSTATUS n, 1, 1⟩
/-- ASRC_RATIO.RHO, RO. -/
def ASRC_RATIO_RHO (n : Nat) : Field := ⟨Reg.ASRC_RATIO n, 31, 0⟩
/-- ASRC_CH.EN, RW. -/
def ASRC_CH_EN (n : Nat) : Field := ⟨Reg.ASRC_CH n, 31, 31⟩
/-- ASRC_CH.DIR, RW. -/
def ASRC_CH_DIR (n : Nat) : Field := ⟨Reg.ASRC_CH n, 30, 30⟩
/-- ASRC_CH.GROUP, RW. -/
def ASRC_CH_GROUP (n : Nat) : Field := ⟨Reg.ASRC_CH n, 25, 24⟩
/-- ASRC_CH.SLOT, RW. -/
def ASRC_CH_SLOT (n : Nat) : Field := ⟨Reg.ASRC_CH n, 4, 0⟩
/-- MCLK_CTRL.EN, RW. -/
def MCLK_CTRL_EN (n : Nat) : Field := ⟨Reg.MCLK_CTRL n, 31, 31⟩
/-- MCLK_CTRL.SLAVED, RW. -/
def MCLK_CTRL_SLAVED (n : Nat) : Field := ⟨Reg.MCLK_CTRL n, 30, 30⟩
/-- MCLK_CTRL.SRC, RW. -/
def MCLK_CTRL_SRC (n : Nat) : Field := ⟨Reg.MCLK_CTRL n, 29, 29⟩
/-- MCLK_CTRL.DIV, RW. -/
def MCLK_CTRL_DIV (n : Nat) : Field := ⟨Reg.MCLK_CTRL n, 26, 24⟩
/-- MCLK_CTRL.RUNNING, RO. -/
def MCLK_CTRL_RUNNING (n : Nat) : Field := ⟨Reg.MCLK_CTRL n, 23, 23⟩
/-- RTR_COMMIT.COMMIT, WO. -/
def RTR_COMMIT_COMMIT : Field := ⟨Reg.RTR_COMMIT, 31, 31⟩
/-- RTR_COMMIT.CANCEL, WO. -/
def RTR_COMMIT_CANCEL : Field := ⟨Reg.RTR_COMMIT, 30, 30⟩
/-- RTR_COMMIT.AT_MODE, RW. -/
def RTR_COMMIT_AT_MODE : Field := ⟨Reg.RTR_COMMIT, 29, 29⟩
/-- RTR_COMMIT.LAW, RW. -/
def RTR_COMMIT_LAW : Field := ⟨Reg.RTR_COMMIT, 28, 28⟩
/-- RTR_COMMIT.PENDING, RO. -/
def RTR_COMMIT_PENDING : Field := ⟨Reg.RTR_COMMIT, 27, 27⟩
/-- RTR_COMMIT.FADE, RW. -/
def RTR_COMMIT_FADE : Field := ⟨Reg.RTR_COMMIT, 7, 0⟩
/-- RTR_AT_LO.AT, RW. -/
def RTR_AT_LO_AT : Field := ⟨Reg.RTR_AT_LO, 31, 0⟩
/-- RTR_AT_HI.AT, RW. -/
def RTR_AT_HI_AT : Field := ⟨Reg.RTR_AT_HI, 31, 0⟩
/-- RTR_STATUS.CLIP_CNT, RC. -/
def RTR_STATUS_CLIP_CNT : Field := ⟨Reg.RTR_STATUS, 31, 16⟩
/-- RTR_STATUS.FADING, RO. -/
def RTR_STATUS_FADING : Field := ⟨Reg.RTR_STATUS, 15, 15⟩
/-- RTR_STATUS.STEP, RO. -/
def RTR_STATUS_STEP : Field := ⟨Reg.RTR_STATUS, 14, 6⟩
/-- RTR_STATUS.EP_BUSY, W1C. -/
def RTR_STATUS_EP_BUSY : Field := ⟨Reg.RTR_STATUS, 5, 5⟩
/-- RTR_STATUS.REJ, W1C. -/
def RTR_STATUS_REJ : Field := ⟨Reg.RTR_STATUS, 4, 4⟩
/-- RTR_STATUS.CLIP, W1C. -/
def RTR_STATUS_CLIP : Field := ⟨Reg.RTR_STATUS, 3, 3⟩
/-- RTR_STATUS.LATE, W1C. -/
def RTR_STATUS_LATE : Field := ⟨Reg.RTR_STATUS, 2, 2⟩
/-- RTR_STATUS.DONE, W1C. -/
def RTR_STATUS_DONE : Field := ⟨Reg.RTR_STATUS, 1, 1⟩
/-- FL_CTRL.EN, RW. -/
def FL_CTRL_EN (n : Nat) : Field := ⟨Reg.FL_CTRL n, 31, 31⟩
/-- FL_CTRL.INV, RW. -/
def FL_CTRL_INV (n : Nat) : Field := ⟨Reg.FL_CTRL n, 30, 30⟩
/-- FL_CTRL.RAMP, RW. -/
def FL_CTRL_RAMP (n : Nat) : Field := ⟨Reg.FL_CTRL n, 29, 22⟩
/-- FL_CTRL.SRC_PORT, RW. -/
def FL_CTRL_SRC_PORT (n : Nat) : Field := ⟨Reg.FL_CTRL n, 21, 19⟩
/-- FL_CTRL.SRC_SLOT, RW. -/
def FL_CTRL_SRC_SLOT (n : Nat) : Field := ⟨Reg.FL_CTRL n, 18, 14⟩
/-- FL_CTRL.DST_PORT, RW. -/
def FL_CTRL_DST_PORT (n : Nat) : Field := ⟨Reg.FL_CTRL n, 13, 11⟩
/-- FL_CTRL.DST_SLOT, RW. -/
def FL_CTRL_DST_SLOT (n : Nat) : Field := ⟨Reg.FL_CTRL n, 10, 6⟩
/-- FL_GAIN.CUR, RO. -/
def FL_GAIN_CUR (n : Nat) : Field := ⟨Reg.FL_GAIN n, 31, 16⟩
/-- FL_GAIN.TARGET, RW. -/
def FL_GAIN_TARGET (n : Nat) : Field := ⟨Reg.FL_GAIN n, 15, 0⟩
/-- FL_STATUS.ACTIVE, RO. -/
def FL_STATUS_ACTIVE : Field := ⟨Reg.FL_STATUS, 31, 16⟩
/-- FL_STATUS.FAULT, W1C. -/
def FL_STATUS_FAULT : Field := ⟨Reg.FL_STATUS, 15, 0⟩
/-- PROT_LIM.LIM_EVT, RW. -/
def PROT_LIM_LIM_EVT (n : Nat) : Field := ⟨Reg.PROT_LIM n, 31, 31⟩
/-- PROT_LIM.CEIL, RW. -/
def PROT_LIM_CEIL (n : Nat) : Field := ⟨Reg.PROT_LIM n, 15, 0⟩
/-- PROT_DC.THR, RW. -/
def PROT_DC_THR (n : Nat) : Field := ⟨Reg.PROT_DC n, 31, 16⟩
/-- PROT_DC.TC, RW. -/
def PROT_DC_TC (n : Nat) : Field := ⟨Reg.PROT_DC n, 15, 12⟩
/-- PROT_DC.HOLD, RW. -/
def PROT_DC_HOLD (n : Nat) : Field := ⟨Reg.PROT_DC n, 11, 0⟩
/-- PROT_FUSE.DC_CEIL, RO. -/
def PROT_FUSE_DC_CEIL (n : Nat) : Field := ⟨Reg.PROT_FUSE n, 31, 16⟩
/-- PROT_FUSE.LIM_CEIL, RO. -/
def PROT_FUSE_LIM_CEIL (n : Nat) : Field := ⟨Reg.PROT_FUSE n, 15, 0⟩
/-- PROT_TRIP.TRIP, W1C. -/
def PROT_TRIP_TRIP (n : Nat) : Field := ⟨Reg.PROT_TRIP n, 31, 0⟩
/-- PROT_LIMACT.LIMACT, W1C. -/
def PROT_LIMACT_LIMACT (n : Nat) : Field := ⟨Reg.PROT_LIMACT n, 31, 0⟩
/-- MTR_CFG.EN, RW. -/
def MTR_CFG_EN (n : Nat) : Field := ⟨Reg.MTR_CFG n, 31, 31⟩
/-- MTR_CFG.SINK, RW. -/
def MTR_CFG_SINK (n : Nat) : Field := ⟨Reg.MTR_CFG n, 30, 30⟩
/-- MTR_CFG.POST, RW. -/
def MTR_CFG_POST (n : Nat) : Field := ⟨Reg.MTR_CFG n, 29, 29⟩
/-- MTR_CFG.W, RW. -/
def MTR_CFG_W (n : Nat) : Field := ⟨Reg.MTR_CFG n, 28, 25⟩
/-- MTR_CFG.POINT, RW. -/
def MTR_CFG_POINT (n : Nat) : Field := ⟨Reg.MTR_CFG n, 24, 14⟩
/-- MTR_CFG.HOLD, RW. -/
def MTR_CFG_HOLD (n : Nat) : Field := ⟨Reg.MTR_CFG n, 13, 0⟩
/-- MTR_THR.PEAK_THR, RW. -/
def MTR_THR_PEAK_THR (n : Nat) : Field := ⟨Reg.MTR_THR n, 31, 16⟩
/-- MTR_THR.SIL_THR, RW. -/
def MTR_THR_SIL_THR (n : Nat) : Field := ⟨Reg.MTR_THR n, 15, 0⟩
/-- MTR_PEAK.PEAK, RC. -/
def MTR_PEAK_PEAK (n : Nat) : Field := ⟨Reg.MTR_PEAK n, 23, 0⟩
/-- MTR_MS.MS, RO. -/
def MTR_MS_MS (n : Nat) : Field := ⟨Reg.MTR_MS n, 31, 0⟩
/-- MTR_OVER.OVER, W1C. -/
def MTR_OVER_OVER (n : Nat) : Field := ⟨Reg.MTR_OVER n, 31, 0⟩
/-- SIL_STATE.STATE, RO. -/
def SIL_STATE_STATE (n : Nat) : Field := ⟨Reg.SIL_STATE n, 31, 0⟩
/-- SIL_CHG.CHG, W1C. -/
def SIL_CHG_CHG (n : Nat) : Field := ⟨Reg.SIL_CHG n, 31, 0⟩
/-- RT_CUR.BUSY, RO. -/
def RT_CUR_BUSY (n : Nat) : Field := ⟨Reg.RT_CUR n, 31, 31⟩
/-- RT_CUR.CUR, RO. -/
def RT_CUR_CUR (n : Nat) : Field := ⟨Reg.RT_CUR n, 23, 0⟩
/-- RT_EP.SRC, RW. -/
def RT_EP_SRC (n : Nat) : Field := ⟨Reg.RT_EP n, 26, 16⟩
/-- RT_EP.SINK, RW. -/
def RT_EP_SINK (n : Nat) : Field := ⟨Reg.RT_EP n, 10, 0⟩
/-- RT_GAIN.GAIN, RW. -/
def RT_GAIN_GAIN (n : Nat) : Field := ⟨Reg.RT_GAIN n, 23, 0⟩
/-- CLK_CFG.SYS_RESTART, WO. -/
def CLK_CFG_SYS_RESTART : Field := ⟨Reg.CLK_CFG, 31, 31⟩
/-- CLK_CFG.REFCLK_SEL, RW. -/
def CLK_CFG_REFCLK_SEL : Field := ⟨Reg.CLK_CFG, 0, 0⟩
/-- CLK_STATUS.SYS_LOCK, RO. -/
def CLK_STATUS_SYS_LOCK : Field := ⟨Reg.CLK_STATUS, 31, 31⟩
/-- CLK_STATUS.AUD_LOCK, RO. -/
def CLK_STATUS_AUD_LOCK : Field := ⟨Reg.CLK_STATUS, 30, 30⟩
/-- CLK_STATUS.XTAL_OK, RO. -/
def CLK_STATUS_XTAL_OK : Field := ⟨Reg.CLK_STATUS, 29, 29⟩
/-- CLK_STATUS.SAFE, RO. -/
def CLK_STATUS_SAFE : Field := ⟨Reg.CLK_STATUS, 28, 28⟩
/-- CLK_STATUS.XTAL_FAIL, W1C. -/
def CLK_STATUS_XTAL_FAIL : Field := ⟨Reg.CLK_STATUS, 8, 8⟩
/-- CLK_STATUS.SYS_FAIL, W1C. -/
def CLK_STATUS_SYS_FAIL : Field := ⟨Reg.CLK_STATUS, 7, 7⟩
/-- CLK_STATUS.SYS_RELOCK, W1C. -/
def CLK_STATUS_SYS_RELOCK : Field := ⟨Reg.CLK_STATUS, 6, 6⟩
/-- CLK_STATUS.SYS_UNLOCK, W1C. -/
def CLK_STATUS_SYS_UNLOCK : Field := ⟨Reg.CLK_STATUS, 5, 5⟩
/-- CLK_STATUS.AUD_FAIL, W1C. -/
def CLK_STATUS_AUD_FAIL : Field := ⟨Reg.CLK_STATUS, 4, 4⟩
/-- CLK_STATUS.AUD_UNLOCK, W1C. -/
def CLK_STATUS_AUD_UNLOCK : Field := ⟨Reg.CLK_STATUS, 3, 3⟩
/-- CLK_STATUS.AUD_LOCKED, W1C. -/
def CLK_STATUS_AUD_LOCKED : Field := ⟨Reg.CLK_STATUS, 2, 2⟩
/-- CLK_ECLK.PENDING, RO. -/
def CLK_ECLK_PENDING : Field := ⟨Reg.CLK_ECLK, 31, 31⟩
/-- CLK_ECLK.AT_MODE, RW. -/
def CLK_ECLK_AT_MODE : Field := ⟨Reg.CLK_ECLK, 30, 30⟩
/-- CLK_ECLK.COMMIT, WO. -/
def CLK_ECLK_COMMIT : Field := ⟨Reg.CLK_ECLK, 29, 29⟩
/-- CLK_ECLK.CANCEL, WO. -/
def CLK_ECLK_CANCEL : Field := ⟨Reg.CLK_ECLK, 28, 28⟩
/-- CLK_ECLK.DIV, RO. -/
def CLK_ECLK_DIV : Field := ⟨Reg.CLK_ECLK, 9, 8⟩
/-- CLK_ECLK.DIV_NEXT, RW. -/
def CLK_ECLK_DIV_NEXT : Field := ⟨Reg.CLK_ECLK, 1, 0⟩
/-- CLK_ECLK_AT_LO.AT, RW. -/
def CLK_ECLK_AT_LO_AT : Field := ⟨Reg.CLK_ECLK_AT_LO, 31, 0⟩
/-- CLK_ECLK_AT_HI.AT, RW. -/
def CLK_ECLK_AT_HI_AT : Field := ⟨Reg.CLK_ECLK_AT_HI, 31, 0⟩
/-- AUD_CFG.DITHER, RW. -/
def AUD_CFG_DITHER : Field := ⟨Reg.AUD_CFG, 31, 31⟩
/-- AUD_CFG.SEED_LOAD, WO. -/
def AUD_CFG_SEED_LOAD : Field := ⟨Reg.AUD_CFG, 30, 30⟩
/-- AUD_CFG.SEED, RW. -/
def AUD_CFG_SEED : Field := ⟨Reg.AUD_CFG, 22, 0⟩
/-- AUD_FRAC.FRAC, RO. -/
def AUD_FRAC_FRAC : Field := ⟨Reg.AUD_FRAC, 23, 0⟩
/-- SYS_FRAC.FRAC, RO. -/
def SYS_FRAC_FRAC : Field := ⟨Reg.SYS_FRAC, 23, 0⟩
/-- TRK_CTRL.SRC, RW. -/
def TRK_CTRL_SRC : Field := ⟨Reg.TRK_CTRL, 31, 28⟩
/-- TRK_CTRL.BW, RW. -/
def TRK_CTRL_BW : Field := ⟨Reg.TRK_CTRL, 27, 26⟩
/-- TRK_CTRL.RET, RW. -/
def TRK_CTRL_RET : Field := ⟨Reg.TRK_CTRL, 25, 24⟩
/-- TRK_CTRL.SNAP, WO. -/
def TRK_CTRL_SNAP : Field := ⟨Reg.TRK_CTRL, 23, 23⟩
/-- TRK_CTRL.NUM, RW. -/
def TRK_CTRL_NUM : Field := ⟨Reg.TRK_CTRL, 16, 8⟩
/-- TRK_CTRL.DEN, RW. -/
def TRK_CTRL_DEN : Field := ⟨Reg.TRK_CTRL, 7, 0⟩
/-- TRK_PHASE.SIL_WORD, RW. -/
def TRK_PHASE_SIL_WORD : Field := ⟨Reg.TRK_PHASE, 18, 16⟩
/-- TRK_PHASE.TARGET, RW. -/
def TRK_PHASE_TARGET : Field := ⟨Reg.TRK_PHASE, 15, 0⟩
/-- TRK_SIL_MASK.MASK, RW. -/
def TRK_SIL_MASK_MASK : Field := ⟨Reg.TRK_SIL_MASK, 31, 0⟩
/-- TRK_SNAP_AT_LO.AT, RW. -/
def TRK_SNAP_AT_LO_AT : Field := ⟨Reg.TRK_SNAP_AT_LO, 31, 0⟩
/-- TRK_SNAP_AT_HI.AT, RW. -/
def TRK_SNAP_AT_HI_AT : Field := ⟨Reg.TRK_SNAP_AT_HI, 31, 0⟩
/-- TRK_STATUS.STATE, RO. -/
def TRK_STATUS_STATE : Field := ⟨Reg.TRK_STATUS, 31, 29⟩
/-- TRK_STATUS.LOSS, RO. -/
def TRK_STATUS_LOSS : Field := ⟨Reg.TRK_STATUS, 28, 27⟩
/-- TRK_STATUS.GATED, RO. -/
def TRK_STATUS_GATED : Field := ⟨Reg.TRK_STATUS, 26, 26⟩
/-- TRK_STATUS.SNAPPED, W1C. -/
def TRK_STATUS_SNAPPED : Field := ⟨Reg.TRK_STATUS, 19, 19⟩
/-- TRK_STATUS.PHASE_DONE, W1C. -/
def TRK_STATUS_PHASE_DONE : Field := ⟨Reg.TRK_STATUS, 18, 18⟩
/-- TRK_STATUS.REF_BACK, W1C. -/
def TRK_STATUS_REF_BACK : Field := ⟨Reg.TRK_STATUS, 17, 17⟩
/-- TRK_STATUS.FREEWHEEL, W1C. -/
def TRK_STATUS_FREEWHEEL : Field := ⟨Reg.TRK_STATUS, 16, 16⟩
/-- TRK_STATUS.PERR, RO. -/
def TRK_STATUS_PERR : Field := ⟨Reg.TRK_STATUS, 15, 0⟩
/-- TRK_CVAL.C_HOLD, RO. -/
def TRK_CVAL_C_HOLD : Field := ⟨Reg.TRK_CVAL, 31, 16⟩
/-- TRK_CVAL.C, RO. -/
def TRK_CVAL_C : Field := ⟨Reg.TRK_CVAL, 15, 0⟩
/-- WCLK_CTRL.EN, RW. -/
def WCLK_CTRL_EN : Field := ⟨Reg.WCLK_CTRL, 31, 31⟩
/-- WCLK_CTRL.RUNNING, RO. -/
def WCLK_CTRL_RUNNING : Field := ⟨Reg.WCLK_CTRL, 30, 30⟩
/-- SENSE_CTRL.EN, RW. -/
def SENSE_CTRL_EN : Field := ⟨Reg.SENSE_CTRL, 31, 31⟩
/-- SENSE_CTRL.CAL, WO. -/
def SENSE_CTRL_CAL : Field := ⟨Reg.SENSE_CTRL, 30, 30⟩
/-- SENSE_CTRL.ORDER, RW. -/
def SENSE_CTRL_ORDER : Field := ⟨Reg.SENSE_CTRL, 29, 29⟩
/-- SENSE_CTRL.AUX_EN, RW. -/
def SENSE_CTRL_AUX_EN : Field := ⟨Reg.SENSE_CTRL, 3, 0⟩
/-- SENSE_STATUS.RUNNING, RO. -/
def SENSE_STATUS_RUNNING : Field := ⟨Reg.SENSE_STATUS, 31, 31⟩
/-- SENSE_STATUS.CAL_BUSY, RO. -/
def SENSE_STATUS_CAL_BUSY : Field := ⟨Reg.SENSE_STATUS, 30, 30⟩
/-- SENSE_STATUS.READY, RO. -/
def SENSE_STATUS_READY : Field := ⟨Reg.SENSE_STATUS, 29, 29⟩
/-- SENSE_STATUS.CAL_FAIL, W1C. -/
def SENSE_STATUS_CAL_FAIL : Field := ⟨Reg.SENSE_STATUS, 2, 2⟩
/-- SENSE_STATUS.CAL_DONE, W1C. -/
def SENSE_STATUS_CAL_DONE : Field := ⟨Reg.SENSE_STATUS, 1, 1⟩
/-- SENSE_ADC_FAULT.NOW, RO. -/
def SENSE_ADC_FAULT_NOW : Field := ⟨Reg.SENSE_ADC_FAULT, 31, 16⟩
/-- SENSE_ADC_FAULT.FAULT, W1C. -/
def SENSE_ADC_FAULT_FAULT : Field := ⟨Reg.SENSE_ADC_FAULT, 15, 0⟩
/-- SENSE_SCAN.ENTRY, RW. -/
def SENSE_SCAN_ENTRY (n : Nat) : Field := ⟨Reg.SENSE_SCAN n, 31, 0⟩
/-- SENSE_FIFO_CTRL.OVF, W1C. -/
def SENSE_FIFO_CTRL_OVF (n : Nat) : Field := ⟨Reg.SENSE_FIFO_CTRL n, 31, 31⟩
/-- SENSE_FIFO_CTRL.LVL, W1C. -/
def SENSE_FIFO_CTRL_LVL (n : Nat) : Field := ⟨Reg.SENSE_FIFO_CTRL n, 30, 30⟩
/-- SENSE_FIFO_CTRL.LEVEL, RO. -/
def SENSE_FIFO_CTRL_LEVEL (n : Nat) : Field := ⟨Reg.SENSE_FIFO_CTRL n, 24, 16⟩
/-- SENSE_FIFO_CTRL.THR, RW. -/
def SENSE_FIFO_CTRL_THR (n : Nat) : Field := ⟨Reg.SENSE_FIFO_CTRL n, 15, 8⟩
/-- SENSE_FIFO_CTRL.OVF_CNT, RC. -/
def SENSE_FIFO_CTRL_OVF_CNT (n : Nat) : Field := ⟨Reg.SENSE_FIFO_CTRL n, 7, 0⟩
/-- SENSE_FIFO_A.ENTRY_A, RO. -/
def SENSE_FIFO_A_ENTRY_A (n : Nat) : Field := ⟨Reg.SENSE_FIFO_A n, 31, 0⟩
/-- SENSE_FIFO_B.ENTRY_B, RC. -/
def SENSE_FIFO_B_ENTRY_B (n : Nat) : Field := ⟨Reg.SENSE_FIFO_B n, 31, 0⟩
/-- SENSE_PTFAULT.FAULT, W1C. -/
def SENSE_PTFAULT_FAULT (n : Nat) : Field := ⟨Reg.SENSE_PTFAULT n, 31, 0⟩
/-- AUX_CMP.EN, RW. -/
def AUX_CMP_EN : Field := ⟨Reg.AUX_CMP, 31, 31⟩
/-- AUX_CMP.POL, RW. -/
def AUX_CMP_POL : Field := ⟨Reg.AUX_CMP, 30, 30⟩
/-- AUX_CMP.LEVEL, RO. -/
def AUX_CMP_LEVEL : Field := ⟨Reg.AUX_CMP, 29, 29⟩
/-- AUX_CMP.CHG, W1C. -/
def AUX_CMP_CHG : Field := ⟨Reg.AUX_CMP, 28, 28⟩
/-- AUX_CMP.HYST, RW. -/
def AUX_CMP_HYST : Field := ⟨Reg.AUX_CMP, 9, 8⟩
/-- AUX_CMP.THR, RW. -/
def AUX_CMP_THR : Field := ⟨Reg.AUX_CMP, 5, 0⟩
/-- SENSE_PT_CFG.TYPE, RW. -/
def SENSE_PT_CFG_TYPE (n : Nat) : Field := ⟨Reg.SENSE_PT_CFG n, 31, 30⟩
/-- SENSE_PT_CFG.EVT_EN, RW. -/
def SENSE_PT_CFG_EVT_EN (n : Nat) : Field := ⟨Reg.SENSE_PT_CFG n, 29, 29⟩
/-- SENSE_PT_CFG.FIFO, RW. -/
def SENSE_PT_CFG_FIFO (n : Nat) : Field := ⟨Reg.SENSE_PT_CFG n, 28, 28⟩
/-- SENSE_PT_CFG.VSH, RW. -/
def SENSE_PT_CFG_VSH (n : Nat) : Field := ⟨Reg.SENSE_PT_CFG n, 27, 24⟩
/-- SENSE_PT_CFG.G, RW. -/
def SENSE_PT_CFG_G (n : Nat) : Field := ⟨Reg.SENSE_PT_CFG n, 18, 16⟩
/-- SENSE_PT_CFG.F, RW. -/
def SENSE_PT_CFG_F (n : Nat) : Field := ⟨Reg.SENSE_PT_CFG n, 10, 8⟩
/-- SENSE_PT_CAL.GAIN, RW. -/
def SENSE_PT_CAL_GAIN (n : Nat) : Field := ⟨Reg.SENSE_PT_CAL n, 31, 16⟩
/-- SENSE_PT_CAL.OFFSET, RW. -/
def SENSE_PT_CAL_OFFSET (n : Nat) : Field := ⟨Reg.SENSE_PT_CAL n, 15, 0⟩
/-- SENSE_PT_THR.ON_THR, RW. -/
def SENSE_PT_THR_ON_THR (n : Nat) : Field := ⟨Reg.SENSE_PT_THR n, 31, 16⟩
/-- SENSE_PT_THR.OFF_THR, RW. -/
def SENSE_PT_THR_OFF_THR (n : Nat) : Field := ⟨Reg.SENSE_PT_THR n, 15, 0⟩
/-- SENSE_PT_STAT.RAW, RO. -/
def SENSE_PT_STAT_RAW (n : Nat) : Field := ⟨Reg.SENSE_PT_STAT n, 31, 16⟩
/-- SENSE_PT_STAT.DOWN, RO. -/
def SENSE_PT_STAT_DOWN (n : Nat) : Field := ⟨Reg.SENSE_PT_STAT n, 15, 15⟩
/-- SENSE_PT_STAT.RAIL_LO, RO. -/
def SENSE_PT_STAT_RAIL_LO (n : Nat) : Field := ⟨Reg.SENSE_PT_STAT n, 14, 14⟩
/-- SENSE_PT_STAT.RAIL_HI, RO. -/
def SENSE_PT_STAT_RAIL_HI (n : Nat) : Field := ⟨Reg.SENSE_PT_STAT n, 13, 13⟩
/-- SENSE_PT_STAT.ADC, RO. -/
def SENSE_PT_STAT_ADC (n : Nat) : Field := ⟨Reg.SENSE_PT_STAT n, 12, 12⟩
/-- SENSE_PT_STAT.SUPPR, RO. -/
def SENSE_PT_STAT_SUPPR (n : Nat) : Field := ⟨Reg.SENSE_PT_STAT n, 11, 11⟩
/-- SENSE_PT_STAT.VVALID, RO. -/
def SENSE_PT_STAT_VVALID (n : Nat) : Field := ⟨Reg.SENSE_PT_STAT n, 10, 10⟩
/-- SENSE_LIN.ODD, RW. -/
def SENSE_LIN_ODD (n k : Nat) : Field := ⟨Reg.SENSE_LIN n k, 31, 16⟩
/-- SENSE_LIN.EVEN, RW. -/
def SENSE_LIN_EVEN (n k : Nat) : Field := ⟨Reg.SENSE_LIN n k, 15, 0⟩
/-- ACT_CTRL.EN, RW. -/
def ACT_CTRL_EN (n : Nat) : Field := ⟨Reg.ACT_CTRL n, 31, 31⟩
/-- ACT_CTRL.MODE, RW. -/
def ACT_CTRL_MODE (n : Nat) : Field := ⟨Reg.ACT_CTRL n, 30, 29⟩
/-- ACT_CTRL.SRC, RW. -/
def ACT_CTRL_SRC (n : Nat) : Field := ⟨Reg.ACT_CTRL n, 28, 28⟩
/-- ACT_CTRL.ENG, RW. -/
def ACT_CTRL_ENG (n : Nat) : Field := ⟨Reg.ACT_CTRL n, 27, 24⟩
/-- ACT_CTRL.WORD, RW. -/
def ACT_CTRL_WORD (n : Nat) : Field := ⟨Reg.ACT_CTRL n, 23, 16⟩
/-- ACT_CTRL.DEAD, RW. -/
def ACT_CTRL_DEAD (n : Nat) : Field := ⟨Reg.ACT_CTRL n, 15, 8⟩
/-- ACT_PER.PERIOD, RW. -/
def ACT_PER_PERIOD (n : Nat) : Field := ⟨Reg.ACT_PER n, 15, 0⟩
/-- ACT_VAL.VALUE, RW. -/
def ACT_VAL_VALUE (n : Nat) : Field := ⟨Reg.ACT_VAL n, 31, 8⟩
/-- ACT_LIM.DUTY_MAX, RW. -/
def ACT_LIM_DUTY_MAX (n : Nat) : Field := ⟨Reg.ACT_LIM n, 31, 16⟩
/-- ACT_LIM.LEAK, RW. -/
def ACT_LIM_LEAK (n : Nat) : Field := ⟨Reg.ACT_LIM n, 15, 0⟩
/-- ACT_EMAX.EMAX, RW. -/
def ACT_EMAX_EMAX (n : Nat) : Field := ⟨Reg.ACT_EMAX n, 23, 0⟩
/-- ACT_CS.CS_EN, RW. -/
def ACT_CS_CS_EN (n : Nat) : Field := ⟨Reg.ACT_CS n, 31, 31⟩
/-- ACT_CS.CS_POINT, RW. -/
def ACT_CS_CS_POINT (n : Nat) : Field := ⟨Reg.ACT_CS n, 23, 16⟩
/-- ACT_CS.ILIM, RW. -/
def ACT_CS_ILIM (n : Nat) : Field := ⟨Reg.ACT_CS n, 15, 0⟩
/-- ACT_ACC.ACC, RO. -/
def ACT_ACC_ACC (n : Nat) : Field := ⟨Reg.ACT_ACC n, 31, 0⟩
/-- ACT_OUT.DUTY, RO. -/
def ACT_OUT_DUTY (n : Nat) : Field := ⟨Reg.ACT_OUT n, 31, 16⟩
/-- ACT_OUT.DIR, RO. -/
def ACT_OUT_DIR (n : Nat) : Field := ⟨Reg.ACT_OUT n, 15, 15⟩
/-- ACT_OUT.OFF, RO. -/
def ACT_OUT_OFF (n : Nat) : Field := ⟨Reg.ACT_OUT n, 14, 14⟩
/-- ACT_TRIP.TRIP, W1C. -/
def ACT_TRIP_TRIP : Field := ⟨Reg.ACT_TRIP, 31, 0⟩
/-- ACT_STATUS.KILL, WO. -/
def ACT_STATUS_KILL : Field := ⟨Reg.ACT_STATUS, 31, 31⟩
/-- ACT_STATUS.FLT_NOW, RO. -/
def ACT_STATUS_FLT_NOW : Field := ⟨Reg.ACT_STATUS, 7, 4⟩
/-- ACT_STATUS.CEIL, W1C. -/
def ACT_STATUS_CEIL : Field := ⟨Reg.ACT_STATUS, 0, 0⟩
/-- ACT_CAUSE.CAUSE, RO. -/
def ACT_CAUSE_CAUSE (n : Nat) : Field := ⟨Reg.ACT_CAUSE n, 31, 0⟩
/-- ACT_FUSE_A.DUTY_CEIL, RO. -/
def ACT_FUSE_A_DUTY_CEIL (n : Nat) : Field := ⟨Reg.ACT_FUSE_A n, 31, 16⟩
/-- ACT_FUSE_A.ILIM_CEIL, RO. -/
def ACT_FUSE_A_ILIM_CEIL (n : Nat) : Field := ⟨Reg.ACT_FUSE_A n, 15, 0⟩
/-- ACT_FUSE_B.EMAX_CEIL, RO. -/
def ACT_FUSE_B_EMAX_CEIL (n : Nat) : Field := ⟨Reg.ACT_FUSE_B n, 23, 0⟩
/-- ACT_FUSE_C.LEAK_CEIL, RO. -/
def ACT_FUSE_C_LEAK_CEIL (n : Nat) : Field := ⟨Reg.ACT_FUSE_C n, 15, 0⟩
/-- CORE_ESTAT.IE, RW. -/
def CORE_ESTAT_IE : Field := ⟨Reg.CORE_ESTAT, 31, 31⟩
/-- CORE_ESTAT.RUNLVL, RW. -/
def CORE_ESTAT_RUNLVL : Field := ⟨Reg.CORE_ESTAT, 30, 27⟩
/-- CORE_EPC.EPC, RW. -/
def CORE_EPC_EPC : Field := ⟨Reg.CORE_EPC, 31, 1⟩
/-- CORE_ECAUSE.CAUSE, RO. -/
def CORE_ECAUSE_CAUSE : Field := ⟨Reg.CORE_ECAUSE, 2, 0⟩
/-- CORE_EADDR.EADDR, RO. -/
def CORE_EADDR_EADDR : Field := ⟨Reg.CORE_EADDR, 31, 0⟩
/-- CORE_VBASE.VBASE, RW. -/
def CORE_VBASE_VBASE : Field := ⟨Reg.CORE_VBASE, 31, 10⟩
/-- CORE_RPC.RPC, RW. -/
def CORE_RPC_RPC (n : Nat) : Field := ⟨Reg.CORE_RPC n, 31, 1⟩
/-- CORE_RSAVE.PLVL, RW. -/
def CORE_RSAVE_PLVL (n : Nat) : Field := ⟨Reg.CORE_RSAVE n, 31, 28⟩
/-- CORE_RSAVE.PIE, RW. -/
def CORE_RSAVE_PIE (n : Nat) : Field := ⟨Reg.CORE_RSAVE n, 27, 27⟩
/-- CORE_RSAVE.SREP, RW. -/
def CORE_RSAVE_SREP (n : Nat) : Field := ⟨Reg.CORE_RSAVE n, 26, 14⟩
/-- CORE_RSAVE.EVT, RO. -/
def CORE_RSAVE_EVT (n : Nat) : Field := ⟨Reg.CORE_RSAVE n, 13, 7⟩
/-- CORE_RSAVE.SWB, RW. -/
def CORE_RSAVE_SWB (n : Nat) : Field := ⟨Reg.CORE_RSAVE n, 6, 0⟩
/-- CP_CTRL.RESET, WO. -/
def CP_CTRL_RESET : Field := ⟨Reg.CP_CTRL, 31, 31⟩
/-- CP_CTRL.LAST, RO. -/
def CP_CTRL_LAST : Field := ⟨Reg.CP_CTRL, 1, 0⟩
/-- CPMEM_ECC_STATUS.CE_CNT, RC. -/
def CPMEM_ECC_STATUS_CE_CNT : Field := ⟨Reg.CPMEM_ECC_STATUS, 31, 16⟩
/-- CPMEM_ECC_STATUS.UE, W1C. -/
def CPMEM_ECC_STATUS_UE : Field := ⟨Reg.CPMEM_ECC_STATUS, 1, 1⟩
/-- CPMEM_ECC_STATUS.CE, W1C. -/
def CPMEM_ECC_STATUS_CE : Field := ⟨Reg.CPMEM_ECC_STATUS, 0, 0⟩
/-- CPMEM_ECC_ADDR.OFFSET, RO. -/
def CPMEM_ECC_ADDR_OFFSET : Field := ⟨Reg.CPMEM_ECC_ADDR, 19, 2⟩
/-- EVT_PEND.PEND, W1C. -/
def EVT_PEND_PEND (n : Nat) : Field := ⟨Reg.EVT_PEND n, 31, 0⟩
/-- EVT_CLAIM.NONE, RO. -/
def EVT_CLAIM_NONE : Field := ⟨Reg.EVT_CLAIM, 31, 31⟩
/-- EVT_CLAIM.LVL, RO. -/
def EVT_CLAIM_LVL : Field := ⟨Reg.EVT_CLAIM, 11, 8⟩
/-- EVT_CLAIM.EVENT, RO. -/
def EVT_CLAIM_EVENT : Field := ⟨Reg.EVT_CLAIM, 6, 0⟩
/-- EVT_HOST_CTRL.EN, RW. -/
def EVT_HOST_CTRL_EN : Field := ⟨Reg.EVT_HOST_CTRL, 31, 31⟩
/-- EVT_CFG.HOST, RW. -/
def EVT_CFG_HOST (n : Nat) : Field := ⟨Reg.EVT_CFG n, 31, 31⟩
/-- EVT_CFG.SECP_LVL, RW. -/
def EVT_CFG_SECP_LVL (n : Nat) : Field := ⟨Reg.EVT_CFG n, 7, 4⟩
/-- EVT_CFG.CP_LVL, RW. -/
def EVT_CFG_CP_LVL (n : Nat) : Field := ⟨Reg.EVT_CFG n, 3, 0⟩
/-- MB_DATA.DATA, RW. -/
def MB_DATA_DATA (n k : Nat) : Field := ⟨Reg.MB_DATA n k, 31, 0⟩
/-- MB_CTRL.GO, WO. -/
def MB_CTRL_GO (n : Nat) : Field := ⟨Reg.MB_CTRL n, 31, 31⟩
/-- MB_CTRL.WITHDRAW, WO. -/
def MB_CTRL_WITHDRAW (n : Nat) : Field := ⟨Reg.MB_CTRL n, 30, 30⟩
/-- MB_CTRL.CLEAR, WO. -/
def MB_CTRL_CLEAR (n : Nat) : Field := ⟨Reg.MB_CTRL n, 29, 29⟩
/-- MB_CTRL.EPOCH_INC, WO. -/
def MB_CTRL_EPOCH_INC (n : Nat) : Field := ⟨Reg.MB_CTRL n, 28, 28⟩
/-- MB_ACK.ACK, WO. -/
def MB_ACK_ACK (n : Nat) : Field := ⟨Reg.MB_ACK n, 31, 31⟩
/-- MB_ACK.RC, RW. -/
def MB_ACK_RC (n : Nat) : Field := ⟨Reg.MB_ACK n, 15, 0⟩
/-- MB_STATUS.WAKE, RO. -/
def MB_STATUS_WAKE (n : Nat) : Field := ⟨Reg.MB_STATUS n, 7, 7⟩
/-- MB_STATUS.ACKED_STALE, RO. -/
def MB_STATUS_ACKED_STALE (n : Nat) : Field := ⟨Reg.MB_STATUS n, 6, 6⟩
/-- MB_STATUS.EPOCH_STALE, RO. -/
def MB_STATUS_EPOCH_STALE (n : Nat) : Field := ⟨Reg.MB_STATUS n, 5, 5⟩
/-- MB_STATUS.REJECT, W1C. -/
def MB_STATUS_REJECT (n : Nat) : Field := ⟨Reg.MB_STATUS n, 4, 4⟩
/-- MB_STATUS.TIMEOUT, W1C. -/
def MB_STATUS_TIMEOUT (n : Nat) : Field := ⟨Reg.MB_STATUS n, 3, 3⟩
/-- MB_STATUS.STATE, RO. -/
def MB_STATUS_STATE (n : Nat) : Field := ⟨Reg.MB_STATUS n, 1, 0⟩
/-- MB_STAMP.SENDER, RO. -/
def MB_STAMP_SENDER (n : Nat) : Field := ⟨Reg.MB_STAMP n, 28, 24⟩
/-- MB_STAMP.S_EPOCH, RO. -/
def MB_STAMP_S_EPOCH (n : Nat) : Field := ⟨Reg.MB_STAMP n, 23, 16⟩
/-- MB_STAMP.R_EPOCH, RO. -/
def MB_STAMP_R_EPOCH (n : Nat) : Field := ⟨Reg.MB_STAMP n, 15, 8⟩
/-- MB_POST_TICK.TICK, RO. -/
def MB_POST_TICK_TICK (n : Nat) : Field := ⟨Reg.MB_POST_TICK n, 31, 0⟩
/-- MB_GORES.RESULT, RO. -/
def MB_GORES_RESULT (n : Nat) : Field := ⟨Reg.MB_GORES n, 1, 0⟩
/-- MB_TIMEOUT.UNITS, RW. -/
def MB_TIMEOUT_UNITS (n : Nat) : Field := ⟨Reg.MB_TIMEOUT n, 15, 0⟩
/-- MB_ACL.SENDERS, LK. -/
def MB_ACL_SENDERS (n : Nat) : Field := ⟨Reg.MB_ACL n, 17, 0⟩
/-- MB_LOCK.LOCK, W1S. -/
def MB_LOCK_LOCK : Field := ⟨Reg.MB_LOCK, 0, 0⟩
/-- MB_DIAG_CFG.EN, RW. -/
def MB_DIAG_CFG_EN (n : Nat) : Field := ⟨Reg.MB_DIAG_CFG n, 31, 31⟩
/-- MB_DIAG_CFG.ENG, RW. -/
def MB_DIAG_CFG_ENG (n : Nat) : Field := ⟨Reg.MB_DIAG_CFG n, 27, 24⟩
/-- MB_DIAG_CFG.BASE, RW. -/
def MB_DIAG_CFG_BASE (n : Nat) : Field := ⟨Reg.MB_DIAG_CFG n, 23, 20⟩
/-- MB_DIAG_CFG.DROP_CNT, RC. -/
def MB_DIAG_CFG_DROP_CNT (n : Nat) : Field := ⟨Reg.MB_DIAG_CFG n, 15, 0⟩
/-- BELL.MASK, RW. -/
def BELL_MASK (n : Nat) : Field := ⟨Reg.BELL n, 15, 8⟩
/-- BELL.BELL, W1C. -/
def BELL_BELL (n : Nat) : Field := ⟨Reg.BELL n, 7, 0⟩
/-- BELL_RING.RING, W1S. -/
def BELL_RING_RING (n : Nat) : Field := ⟨Reg.BELL_RING n, 7, 0⟩
/-- SEM.FREE, RC. -/
def SEM_FREE (n : Nat) : Field := ⟨Reg.SEM n, 31, 31⟩
/-- SEM.OWNER, RO. -/
def SEM_OWNER (n : Nat) : Field := ⟨Reg.SEM n, 4, 0⟩
/-- SEM_REL.RELEASE, WO. -/
def SEM_REL_RELEASE : Field := ⟨Reg.SEM_REL, 31, 31⟩
/-- SEM_REL.FORCE, WO. -/
def SEM_REL_FORCE : Field := ⟨Reg.SEM_REL, 30, 30⟩
/-- SEM_REL.INDEX, WO. -/
def SEM_REL_INDEX : Field := ⟨Reg.SEM_REL, 5, 0⟩
/-- SEM_STATUS.CONT_CNT, RC. -/
def SEM_STATUS_CONT_CNT : Field := ⟨Reg.SEM_STATUS, 31, 16⟩
/-- SEM_STATUS.CONT, W1C. -/
def SEM_STATUS_CONT : Field := ⟨Reg.SEM_STATUS, 0, 0⟩
/-- EPOCH.EPOCH, RO. -/
def EPOCH_EPOCH (n : Nat) : Field := ⟨Reg.EPOCH n, 7, 0⟩
/-- READY.RECOVERY, RW. -/
def READY_RECOVERY : Field := ⟨Reg.READY, 15, 15⟩
/-- READY.TANDEM, RW. -/
def READY_TANDEM : Field := ⟨Reg.READY, 8, 8⟩
/-- READY.DDR, RW. -/
def READY_DDR : Field := ⟨Reg.READY, 7, 7⟩
/-- READY.ACT, RW. -/
def READY_ACT : Field := ⟨Reg.READY, 6, 6⟩
/-- READY.SENSE, RW. -/
def READY_SENSE : Field := ⟨Reg.READY, 5, 5⟩
/-- READY.MIDI, RW. -/
def READY_MIDI : Field := ⟨Reg.READY, 4, 4⟩
/-- READY.USB, RW. -/
def READY_USB : Field := ⟨Reg.READY, 3, 3⟩
/-- READY.AUDIO, RW. -/
def READY_AUDIO : Field := ⟨Reg.READY, 2, 2⟩
/-- READY.PROG, RW. -/
def READY_PROG : Field := ⟨Reg.READY, 1, 1⟩
/-- READY.MBOX, RW. -/
def READY_MBOX : Field := ⟨Reg.READY, 0, 0⟩
/-- ID_PART.PART, RO. -/
def ID_PART_PART : Field := ⟨Reg.ID_PART, 31, 16⟩
/-- ID_PART.GRADE, RO. -/
def ID_PART_GRADE : Field := ⟨Reg.ID_PART, 15, 0⟩
/-- ID_REV.REV, RO. -/
def ID_REV_REV : Field := ⟨Reg.ID_REV, 7, 0⟩
/-- ID_LIFECYCLE.STATE, RO. -/
def ID_LIFECYCLE_STATE : Field := ⟨Reg.ID_LIFECYCLE, 1, 0⟩
/-- ID_UID.UID, RO. -/
def ID_UID_UID (n : Nat) : Field := ⟨Reg.ID_UID n, 31, 0⟩
/-- HPORT_CFG.SPI_EN, RW. -/
def HPORT_CFG_SPI_EN : Field := ⟨Reg.HPORT_CFG, 31, 31⟩
/-- HPORT_CFG.I2C_EN, RW. -/
def HPORT_CFG_I2C_EN : Field := ⟨Reg.HPORT_CFG, 30, 30⟩
/-- HPORT_CFG.WAKE_EN, RW. -/
def HPORT_CFG_WAKE_EN : Field := ⟨Reg.HPORT_CFG, 29, 29⟩
/-- HPORT_CFG.I2C_TO_EN, RW. -/
def HPORT_CFG_I2C_TO_EN : Field := ⟨Reg.HPORT_CFG, 28, 28⟩
/-- HPORT_CFG.I2C_ADDR, RO. -/
def HPORT_CFG_I2C_ADDR : Field := ⟨Reg.HPORT_CFG, 6, 0⟩
/-- HPORT_STATUS.WAKE_REQ, RO. -/
def HPORT_STATUS_WAKE_REQ : Field := ⟨Reg.HPORT_STATUS, 8, 8⟩
/-- HPORT_STATUS.REFUSED, W1C. -/
def HPORT_STATUS_REFUSED : Field := ⟨Reg.HPORT_STATUS, 4, 4⟩
/-- HPORT_STATUS.I2C_WAKE, W1C. -/
def HPORT_STATUS_I2C_WAKE : Field := ⟨Reg.HPORT_STATUS, 3, 3⟩
/-- HPORT_STATUS.I2C_PROTO, W1C. -/
def HPORT_STATUS_I2C_PROTO : Field := ⟨Reg.HPORT_STATUS, 2, 2⟩
/-- HPORT_STATUS.SPI_FRAME, W1C. -/
def HPORT_STATUS_SPI_FRAME : Field := ⟨Reg.HPORT_STATUS, 1, 1⟩
/-- HPORT_STATUS.SPI_CRC, W1C. -/
def HPORT_STATUS_SPI_CRC : Field := ⟨Reg.HPORT_STATUS, 0, 0⟩
/-- HPORT_ERR.MASTER, RO. -/
def HPORT_ERR_MASTER : Field := ⟨Reg.HPORT_ERR, 28, 24⟩
/-- HPORT_ERR.WRITE, RO. -/
def HPORT_ERR_WRITE : Field := ⟨Reg.HPORT_ERR, 16, 16⟩
/-- HPORT_ERR.OFFSET, RO. -/
def HPORT_ERR_OFFSET : Field := ⟨Reg.HPORT_ERR, 11, 0⟩
/-- HPORT_CNT.SPI_CRC_CNT, RC. -/
def HPORT_CNT_SPI_CRC_CNT : Field := ⟨Reg.HPORT_CNT, 31, 16⟩
/-- HPORT_CNT.I2C_ERR_CNT, RC. -/
def HPORT_CNT_I2C_ERR_CNT : Field := ⟨Reg.HPORT_CNT, 15, 0⟩
/-- USB_CTRL.CONNECT, RW. -/
def USB_CTRL_CONNECT : Field := ⟨Reg.USB_CTRL, 31, 31⟩
/-- USB_CTRL.HS_EN, RW. -/
def USB_CTRL_HS_EN : Field := ⟨Reg.USB_CTRL, 30, 30⟩
/-- USB_CTRL.RWAKE, WO. -/
def USB_CTRL_RWAKE : Field := ⟨Reg.USB_CTRL, 29, 29⟩
/-- USB_STATUS.CONFIGURED, RO. -/
def USB_STATUS_CONFIGURED : Field := ⟨Reg.USB_STATUS, 31, 31⟩
/-- USB_STATUS.SPEED, RO. -/
def USB_STATUS_SPEED : Field := ⟨Reg.USB_STATUS, 30, 29⟩
/-- USB_STATUS.SUSPENDED, RO. -/
def USB_STATUS_SUSPENDED : Field := ⟨Reg.USB_STATUS, 28, 28⟩
/-- USB_STATUS.ALT_OUT, RO. -/
def USB_STATUS_ALT_OUT : Field := ⟨Reg.USB_STATUS, 27, 26⟩
/-- USB_STATUS.ALT_IN, RO. -/
def USB_STATUS_ALT_IN : Field := ⟨Reg.USB_STATUS, 25, 24⟩
/-- USB_STATUS.MIDI_ALT, RO. -/
def USB_STATUS_MIDI_ALT : Field := ⟨Reg.USB_STATUS, 23, 23⟩
/-- USB_STATUS.ADDR, RO. -/
def USB_STATUS_ADDR : Field := ⟨Reg.USB_STATUS, 22, 16⟩
/-- USB_STATUS.VENDOR, W1C. -/
def USB_STATUS_VENDOR : Field := ⟨Reg.USB_STATUS, 9, 9⟩
/-- USB_STATUS.MIDI_TX, W1C. -/
def USB_STATUS_MIDI_TX : Field := ⟨Reg.USB_STATUS, 8, 8⟩
/-- USB_STATUS.MIDI_RX, W1C. -/
def USB_STATUS_MIDI_RX : Field := ⟨Reg.USB_STATUS, 7, 7⟩
/-- USB_STATUS.RATE, W1C. -/
def USB_STATUS_RATE : Field := ⟨Reg.USB_STATUS, 6, 6⟩
/-- USB_STATUS.OVERRUN, W1C. -/
def USB_STATUS_OVERRUN : Field := ⟨Reg.USB_STATUS, 5, 5⟩
/-- USB_STATUS.UNDERRUN, W1C. -/
def USB_STATUS_UNDERRUN : Field := ⟨Reg.USB_STATUS, 4, 4⟩
/-- USB_STATUS.CONFIG, W1C. -/
def USB_STATUS_CONFIG : Field := ⟨Reg.USB_STATUS, 3, 3⟩
/-- USB_STATUS.RESUME, W1C. -/
def USB_STATUS_RESUME : Field := ⟨Reg.USB_STATUS, 2, 2⟩
/-- USB_STATUS.SUSPEND, W1C. -/
def USB_STATUS_SUSPEND : Field := ⟨Reg.USB_STATUS, 1, 1⟩
/-- USB_STATUS.BUSRESET, W1C. -/
def USB_STATUS_BUSRESET : Field := ⟨Reg.USB_STATUS, 0, 0⟩
/-- USB_DESC.BASE, RW. -/
def USB_DESC_BASE : Field := ⟨Reg.USB_DESC, 23, 2⟩
/-- USB_FB.FB, RO. -/
def USB_FB_FB : Field := ⟨Reg.USB_FB, 31, 0⟩
/-- USB_AS_CNT.UNDER_CNT, RC. -/
def USB_AS_CNT_UNDER_CNT : Field := ⟨Reg.USB_AS_CNT, 31, 16⟩
/-- USB_AS_CNT.OVER_CNT, RC. -/
def USB_AS_CNT_OVER_CNT : Field := ⟨Reg.USB_AS_CNT, 15, 0⟩
/-- USB_MIDI_RX_BASE.SIZE, RW. -/
def USB_MIDI_RX_BASE_SIZE : Field := ⟨Reg.USB_MIDI_RX_BASE, 31, 28⟩
/-- USB_MIDI_RX_BASE.BASE, RW. -/
def USB_MIDI_RX_BASE_BASE : Field := ⟨Reg.USB_MIDI_RX_BASE, 23, 6⟩
/-- USB_MIDI_RX_PTR.HEAD, RO. -/
def USB_MIDI_RX_PTR_HEAD : Field := ⟨Reg.USB_MIDI_RX_PTR, 31, 16⟩
/-- USB_MIDI_RX_PTR.TAIL, RW. -/
def USB_MIDI_RX_PTR_TAIL : Field := ⟨Reg.USB_MIDI_RX_PTR, 15, 0⟩
/-- USB_MIDI_TX_BASE.SIZE, RW. -/
def USB_MIDI_TX_BASE_SIZE : Field := ⟨Reg.USB_MIDI_TX_BASE, 31, 28⟩
/-- USB_MIDI_TX_BASE.BASE, RW. -/
def USB_MIDI_TX_BASE_BASE : Field := ⟨Reg.USB_MIDI_TX_BASE, 23, 6⟩
/-- USB_MIDI_TX_PTR.HEAD, RW. -/
def USB_MIDI_TX_PTR_HEAD : Field := ⟨Reg.USB_MIDI_TX_PTR, 31, 16⟩
/-- USB_MIDI_TX_PTR.TAIL, RO. -/
def USB_MIDI_TX_PTR_TAIL : Field := ⟨Reg.USB_MIDI_TX_PTR, 15, 0⟩
/-- MIDI_CFG.RX_EN, RW. -/
def MIDI_CFG_RX_EN (n : Nat) : Field := ⟨Reg.MIDI_CFG n, 31, 31⟩
/-- MIDI_CFG.TX_EN, RW. -/
def MIDI_CFG_TX_EN (n : Nat) : Field := ⟨Reg.MIDI_CFG n, 30, 30⟩
/-- MIDI_CFG.THR, RW. -/
def MIDI_CFG_THR (n : Nat) : Field := ⟨Reg.MIDI_CFG n, 5, 0⟩
/-- MIDI_STATUS.OVF_CNT, RC. -/
def MIDI_STATUS_OVF_CNT (n : Nat) : Field := ⟨Reg.MIDI_STATUS n, 31, 24⟩
/-- MIDI_STATUS.LEVEL, RO. -/
def MIDI_STATUS_LEVEL (n : Nat) : Field := ⟨Reg.MIDI_STATUS n, 23, 16⟩
/-- MIDI_STATUS.TXLEVEL, RO. -/
def MIDI_STATUS_TXLEVEL (n : Nat) : Field := ⟨Reg.MIDI_STATUS n, 15, 8⟩
/-- MIDI_STATUS.TXOVF, W1C. -/
def MIDI_STATUS_TXOVF (n : Nat) : Field := ⟨Reg.MIDI_STATUS n, 3, 3⟩
/-- MIDI_STATUS.FERR, W1C. -/
def MIDI_STATUS_FERR (n : Nat) : Field := ⟨Reg.MIDI_STATUS n, 2, 2⟩
/-- MIDI_STATUS.OVF, W1C. -/
def MIDI_STATUS_OVF (n : Nat) : Field := ⟨Reg.MIDI_STATUS n, 1, 1⟩
/-- MIDI_STATUS.LVL, W1C. -/
def MIDI_STATUS_LVL (n : Nat) : Field := ⟨Reg.MIDI_STATUS n, 0, 0⟩
/-- MIDI_RX_A.VALID, RO. -/
def MIDI_RX_A_VALID (n : Nat) : Field := ⟨Reg.MIDI_RX_A n, 31, 31⟩
/-- MIDI_RX_A.FERR, RO. -/
def MIDI_RX_A_FERR (n : Nat) : Field := ⟨Reg.MIDI_RX_A n, 30, 30⟩
/-- MIDI_RX_A.TIME, RO. -/
def MIDI_RX_A_TIME (n : Nat) : Field := ⟨Reg.MIDI_RX_A n, 28, 24⟩
/-- MIDI_RX_A.DATA, RO. -/
def MIDI_RX_A_DATA (n : Nat) : Field := ⟨Reg.MIDI_RX_A n, 7, 0⟩
/-- MIDI_RX_B.STC, RC. -/
def MIDI_RX_B_STC (n : Nat) : Field := ⟨Reg.MIDI_RX_B n, 31, 0⟩
/-- MIDI_TX.DATA, WO. -/
def MIDI_TX_DATA (n : Nat) : Field := ⟨Reg.MIDI_TX n, 7, 0⟩
/-- SEC_BOOT_STATUS.PATH, RO. -/
def SEC_BOOT_STATUS_PATH : Field := ⟨Reg.SEC_BOOT_STATUS, 31, 30⟩
/-- SEC_BOOT_STATUS.SLOT, RO. -/
def SEC_BOOT_STATUS_SLOT : Field := ⟨Reg.SEC_BOOT_STATUS, 29, 29⟩
/-- SEC_BOOT_STATUS.COMMITTED, RO. -/
def SEC_BOOT_STATUS_COMMITTED : Field := ⟨Reg.SEC_BOOT_STATUS, 28, 28⟩
/-- SEC_BOOT_STATUS.DEGRADED, RO. -/
def SEC_BOOT_STATUS_DEGRADED : Field := ⟨Reg.SEC_BOOT_STATUS, 27, 27⟩
/-- SEC_BOOT_STATUS.REC_CAUSE, RO. -/
def SEC_BOOT_STATUS_REC_CAUSE : Field := ⟨Reg.SEC_BOOT_STATUS, 26, 24⟩
/-- SEC_BOOT_STATUS.FW_FAIL, RO. -/
def SEC_BOOT_STATUS_FW_FAIL : Field := ⟨Reg.SEC_BOOT_STATUS, 23, 20⟩
/-- SEC_BOOT_STATUS.SECP_HALT, RO. -/
def SEC_BOOT_STATUS_SECP_HALT : Field := ⟨Reg.SEC_BOOT_STATUS, 19, 19⟩
/-- SEC_BOOT_STATUS.REJ_B, RO. -/
def SEC_BOOT_STATUS_REJ_B : Field := ⟨Reg.SEC_BOOT_STATUS, 15, 12⟩
/-- SEC_BOOT_STATUS.REJ_A, RO. -/
def SEC_BOOT_STATUS_REJ_A : Field := ⟨Reg.SEC_BOOT_STATUS, 11, 8⟩
/-- SEC_BOOT_STATUS.DF_CNT, RO. -/
def SEC_BOOT_STATUS_DF_CNT : Field := ⟨Reg.SEC_BOOT_STATUS, 1, 0⟩
/-- SEC_CTRL.RELEASE, WO. -/
def SEC_CTRL_RELEASE : Field := ⟨Reg.SEC_CTRL, 31, 31⟩
/-- SEC_CTRL.REBOOT, WO. -/
def SEC_CTRL_REBOOT : Field := ⟨Reg.SEC_CTRL, 30, 30⟩
/-- SEC_CTRL.RELEASED, RO. -/
def SEC_CTRL_RELEASED : Field := ⟨Reg.SEC_CTRL, 29, 29⟩
/-- SEC_CTRL.KEY_LOCK, W1S. -/
def SEC_CTRL_KEY_LOCK : Field := ⟨Reg.SEC_CTRL, 0, 0⟩
/-- SEC_IMG_VERSION.VERSION, RO. -/
def SEC_IMG_VERSION_VERSION : Field := ⟨Reg.SEC_IMG_VERSION, 31, 0⟩
/-- SEC_IMG_SEQ.SEQ, RO. -/
def SEC_IMG_SEQ_SEQ : Field := ⟨Reg.SEC_IMG_SEQ, 31, 0⟩
/-- SEC_IMG_INFO.ARB, RO. -/
def SEC_IMG_INFO_ARB : Field := ⟨Reg.SEC_IMG_INFO, 7, 0⟩
/-- SEC_IMG_BUILD.BUILD, RO. -/
def SEC_IMG_BUILD_BUILD : Field := ⟨Reg.SEC_IMG_BUILD, 31, 0⟩
/-- SEC_PROG_DIGEST.PROG_DIGEST, RO. -/
def SEC_PROG_DIGEST_PROG_DIGEST (n : Nat) : Field := ⟨Reg.SEC_PROG_DIGEST n, 31, 0⟩
/-- FUSE_STATE.LC, RO. -/
def FUSE_STATE_LC : Field := ⟨Reg.FUSE_STATE, 31, 30⟩
/-- FUSE_STATE.CIK_SET, RO. -/
def FUSE_STATE_CIK_SET : Field := ⟨Reg.FUSE_STATE, 29, 29⟩
/-- FUSE_STATE.DUK_SET, RO. -/
def FUSE_STATE_DUK_SET : Field := ⟨Reg.FUSE_STATE, 28, 28⟩
/-- FUSE_STATE.SLOT_SET, RO. -/
def FUSE_STATE_SLOT_SET : Field := ⟨Reg.FUSE_STATE, 27, 27⟩
/-- FUSE_STATE.ARB, RO. -/
def FUSE_STATE_ARB : Field := ⟨Reg.FUSE_STATE, 6, 0⟩
/-- FUSE_SLOT.B_OFS, RO. -/
def FUSE_SLOT_B_OFS : Field := ⟨Reg.FUSE_SLOT, 31, 16⟩
/-- FUSE_SLOT.A_OFS, RO. -/
def FUSE_SLOT_A_OFS : Field := ⟨Reg.FUSE_SLOT, 15, 0⟩
/-- FUSE_CMD.GO, WO. -/
def FUSE_CMD_GO : Field := ⟨Reg.FUSE_CMD, 31, 31⟩
/-- FUSE_CMD.OP, RW. -/
def FUSE_CMD_OP : Field := ⟨Reg.FUSE_CMD, 30, 28⟩
/-- FUSE_CMD.ARG, RW. -/
def FUSE_CMD_ARG : Field := ⟨Reg.FUSE_CMD, 7, 0⟩
/-- FUSE_STATUS.BUSY, RO. -/
def FUSE_STATUS_BUSY : Field := ⟨Reg.FUSE_STATUS, 31, 31⟩
/-- FUSE_STATUS.DONE, W1C. -/
def FUSE_STATUS_DONE : Field := ⟨Reg.FUSE_STATUS, 30, 30⟩
/-- FUSE_STATUS.FAIL, W1C. -/
def FUSE_STATUS_FAIL : Field := ⟨Reg.FUSE_STATUS, 29, 29⟩
/-- FUSE_STATUS.ERR, RO. -/
def FUSE_STATUS_ERR : Field := ⟨Reg.FUSE_STATUS, 28, 26⟩
/-- FUSE_DATA.DATA, WO. -/
def FUSE_DATA_DATA (n : Nat) : Field := ⟨Reg.FUSE_DATA n, 31, 0⟩
/-- SEC_REC_CTRL.SEAL, WO. -/
def SEC_REC_CTRL_SEAL : Field := ⟨Reg.SEC_REC_CTRL, 31, 31⟩
/-- SEC_REC_CTRL.VALID, RO. -/
def SEC_REC_CTRL_VALID : Field := ⟨Reg.SEC_REC_CTRL, 30, 30⟩
/-- SEC_REC_CTRL.BUSY, RO. -/
def SEC_REC_CTRL_BUSY : Field := ⟨Reg.SEC_REC_CTRL, 29, 29⟩
/-- SEC_REC_CTRL.FAIL, W1C. -/
def SEC_REC_CTRL_FAIL : Field := ⟨Reg.SEC_REC_CTRL, 28, 28⟩
/-- SEC_REC_CTRL.MASK, RW. -/
def SEC_REC_CTRL_MASK : Field := ⟨Reg.SEC_REC_CTRL, 10, 0⟩
/-- SEC_EVT.DBG_CNT, RC. -/
def SEC_EVT_DBG_CNT : Field := ⟨Reg.SEC_EVT, 31, 16⟩
/-- SEC_EVT.DBG, W1C. -/
def SEC_EVT_DBG : Field := ⟨Reg.SEC_EVT, 4, 4⟩
/-- SEC_EVT.FUSE, W1C. -/
def SEC_EVT_FUSE : Field := ⟨Reg.SEC_EVT, 3, 3⟩
/-- SEC_EVT.FWFAIL, W1C. -/
def SEC_EVT_FWFAIL : Field := ⟨Reg.SEC_EVT, 2, 2⟩
/-- SEC_EVT.COMMIT, W1C. -/
def SEC_EVT_COMMIT : Field := ⟨Reg.SEC_EVT, 1, 1⟩
/-- SEC_EVT.IMG, W1C. -/
def SEC_EVT_IMG : Field := ⟨Reg.SEC_EVT, 0, 0⟩
/-- SEC_OSPI_WP.WP_LOCK, W1S. -/
def SEC_OSPI_WP_WP_LOCK : Field := ⟨Reg.SEC_OSPI_WP, 31, 31⟩
/-- SEC_OSPI_WP.LEN, LK. -/
def SEC_OSPI_WP_LEN : Field := ⟨Reg.SEC_OSPI_WP, 30, 16⟩
/-- SEC_OSPI_WP.START, LK. -/
def SEC_OSPI_WP_START : Field := ⟨Reg.SEC_OSPI_WP, 15, 0⟩
/-- OSPI_CMD.GO, WO. -/
def OSPI_CMD_GO : Field := ⟨Reg.OSPI_CMD, 31, 31⟩
/-- OSPI_CMD.BUSY, RO. -/
def OSPI_CMD_BUSY : Field := ⟨Reg.OSPI_CMD, 30, 30⟩
/-- OSPI_CMD.DONE, W1C. -/
def OSPI_CMD_DONE : Field := ⟨Reg.OSPI_CMD, 29, 29⟩
/-- OSPI_CMD.FAIL, W1C. -/
def OSPI_CMD_FAIL : Field := ⟨Reg.OSPI_CMD, 28, 28⟩
/-- OSPI_CMD.ERR, RO. -/
def OSPI_CMD_ERR : Field := ⟨Reg.OSPI_CMD, 27, 26⟩
/-- OSPI_CMD.LEN, RW. -/
def OSPI_CMD_LEN : Field := ⟨Reg.OSPI_CMD, 24, 16⟩
/-- OSPI_CMD.OP, RW. -/
def OSPI_CMD_OP : Field := ⟨Reg.OSPI_CMD, 3, 0⟩
/-- OSPI_ADDR.ADDR, RW. -/
def OSPI_ADDR_ADDR : Field := ⟨Reg.OSPI_ADDR, 31, 0⟩
/-- OSPI_BUF.DATA, RW. -/
def OSPI_BUF_DATA (n : Nat) : Field := ⟨Reg.OSPI_BUF n, 31, 0⟩
/-- PMU_CMD.GO, WO. -/
def PMU_CMD_GO : Field := ⟨Reg.PMU_CMD, 31, 31⟩
/-- PMU_CMD.OP, RW. -/
def PMU_CMD_OP : Field := ⟨Reg.PMU_CMD, 30, 28⟩
/-- PMU_CMD.DOMAIN, RW. -/
def PMU_CMD_DOMAIN : Field := ⟨Reg.PMU_CMD, 15, 8⟩
/-- PMU_CMD.STATE, RW. -/
def PMU_CMD_STATE : Field := ⟨Reg.PMU_CMD, 1, 0⟩
/-- PMU_STATUS.BUSY, RO. -/
def PMU_STATUS_BUSY : Field := ⟨Reg.PMU_STATUS, 31, 31⟩
/-- PMU_STATUS.PREP, RO. -/
def PMU_STATUS_PREP : Field := ⟨Reg.PMU_STATUS, 30, 30⟩
/-- PMU_STATUS.LPMODE, RO. -/
def PMU_STATUS_LPMODE : Field := ⟨Reg.PMU_STATUS, 29, 29⟩
/-- PMU_STATUS.ERR, RO. -/
def PMU_STATUS_ERR : Field := ⟨Reg.PMU_STATUS, 28, 25⟩
/-- PMU_STATUS.EDGE_LOST, W1C. -/
def PMU_STATUS_EDGE_LOST : Field := ⟨Reg.PMU_STATUS, 20, 20⟩
/-- PMU_STATUS.ENTRY_ABORT, W1C. -/
def PMU_STATUS_ENTRY_ABORT : Field := ⟨Reg.PMU_STATUS, 19, 19⟩
/-- PMU_STATUS.MEMFAIL, W1C. -/
def PMU_STATUS_MEMFAIL : Field := ⟨Reg.PMU_STATUS, 18, 18⟩
/-- PMU_STATUS.DEGRADED, W1C. -/
def PMU_STATUS_DEGRADED : Field := ⟨Reg.PMU_STATUS, 17, 17⟩
/-- PMU_STATUS.WAKEFAIL, W1C. -/
def PMU_STATUS_WAKEFAIL : Field := ⟨Reg.PMU_STATUS, 16, 16⟩
/-- PMU_STATUS.DOM_READY, W1C. -/
def PMU_STATUS_DOM_READY : Field := ⟨Reg.PMU_STATUS, 15, 15⟩
/-- PMU_DSTATE0.STATE, RO. -/
def PMU_DSTATE0_STATE : Field := ⟨Reg.PMU_DSTATE0, 31, 0⟩
/-- PMU_DSTATE1.STATE, RO. -/
def PMU_DSTATE1_STATE : Field := ⟨Reg.PMU_DSTATE1, 3, 0⟩
/-- PMU_SSTATE0.STATE, RO. -/
def PMU_SSTATE0_STATE : Field := ⟨Reg.PMU_SSTATE0, 31, 0⟩
/-- PMU_SSTATE1.STATE, RO. -/
def PMU_SSTATE1_STATE : Field := ⟨Reg.PMU_SSTATE1, 31, 0⟩
/-- PMU_STBY_CFG.RET, RW. -/
def PMU_STBY_CFG_RET : Field := ⟨Reg.PMU_STBY_CFG, 17, 0⟩
/-- PMU_STBY_SERAI.RET, RW. -/
def PMU_STBY_SERAI_RET : Field := ⟨Reg.PMU_STBY_SERAI, 7, 0⟩
/-- PMU_WAKE_SET.SET, RW. -/
def PMU_WAKE_SET_SET : Field := ⟨Reg.PMU_WAKE_SET, 17, 0⟩
/-- PMU_WAKE_SERAI.SET, RW. -/
def PMU_WAKE_SERAI_SET : Field := ⟨Reg.PMU_WAKE_SERAI, 31, 0⟩
/-- PMU_WAKE_EN.USB, RW. -/
def PMU_WAKE_EN_USB : Field := ⟨Reg.PMU_WAKE_EN, 5, 5⟩
/-- PMU_WAKE_EN.AUX, RW. -/
def PMU_WAKE_EN_AUX : Field := ⟨Reg.PMU_WAKE_EN, 4, 4⟩
/-- PMU_WAKE_EN.RTC, RW. -/
def PMU_WAKE_EN_RTC : Field := ⟨Reg.PMU_WAKE_EN, 3, 3⟩
/-- PMU_WAKE_EN.PIN_POL, RW. -/
def PMU_WAKE_EN_PIN_POL : Field := ⟨Reg.PMU_WAKE_EN, 2, 2⟩
/-- PMU_WAKE_EN.PIN_EDGE, RW. -/
def PMU_WAKE_EN_PIN_EDGE : Field := ⟨Reg.PMU_WAKE_EN, 1, 1⟩
/-- PMU_WAKE_EN.PIN, RW. -/
def PMU_WAKE_EN_PIN : Field := ⟨Reg.PMU_WAKE_EN, 0, 0⟩
/-- PMU_WAKE_SRC.SRC, W1C. -/
def PMU_WAKE_SRC_SRC : Field := ⟨Reg.PMU_WAKE_SRC, 6, 0⟩
/-- PMU_PAD_HOLD.HOLD, W1C. -/
def PMU_PAD_HOLD_HOLD : Field := ⟨Reg.PMU_PAD_HOLD, 17, 0⟩
/-- PMU_RETLOST.LOST, W1C. -/
def PMU_RETLOST_LOST : Field := ⟨Reg.PMU_RETLOST, 19, 0⟩
/-- PMU_RET_LOAD.LOAD, RO. -/
def PMU_RET_LOAD_LOAD : Field := ⟨Reg.PMU_RET_LOAD, 15, 0⟩
/-- PMU_RST_CAUSE.REBOOT, W1C. -/
def PMU_RST_CAUSE_REBOOT : Field := ⟨Reg.PMU_RST_CAUSE, 4, 4⟩
/-- PMU_RST_CAUSE.PIN, W1C. -/
def PMU_RST_CAUSE_PIN : Field := ⟨Reg.PMU_RST_CAUSE, 3, 3⟩
/-- PMU_RST_CAUSE.BOR, W1C. -/
def PMU_RST_CAUSE_BOR : Field := ⟨Reg.PMU_RST_CAUSE, 2, 2⟩
/-- PMU_RST_CAUSE.BOR_LP, W1C. -/
def PMU_RST_CAUSE_BOR_LP : Field := ⟨Reg.PMU_RST_CAUSE, 1, 1⟩
/-- PMU_RST_CAUSE.POR, W1C. -/
def PMU_RST_CAUSE_POR : Field := ⟨Reg.PMU_RST_CAUSE, 0, 0⟩
/-- RTC_CTRL.EN, RW. -/
def RTC_CTRL_EN : Field := ⟨Reg.RTC_CTRL, 31, 31⟩
/-- RTC_CTRL.SRC, RW. -/
def RTC_CTRL_SRC : Field := ⟨Reg.RTC_CTRL, 30, 30⟩
/-- RTC_CTRL.ACTIVE_SRC, RO. -/
def RTC_CTRL_ACTIVE_SRC : Field := ⟨Reg.RTC_CTRL, 29, 29⟩
/-- RTC_CTRL.XFAIL, W1C. -/
def RTC_CTRL_XFAIL : Field := ⟨Reg.RTC_CTRL, 28, 28⟩
/-- RTC_CTRL.ALARM_EN, RW. -/
def RTC_CTRL_ALARM_EN : Field := ⟨Reg.RTC_CTRL, 27, 27⟩
/-- RTC_CTRL.ALARM, W1C. -/
def RTC_CTRL_ALARM : Field := ⟨Reg.RTC_CTRL, 26, 26⟩
/-- RTC_CNT_LO.CNT, RO. -/
def RTC_CNT_LO_CNT : Field := ⟨Reg.RTC_CNT_LO, 31, 0⟩
/-- RTC_CNT_HI.CNT, RO. -/
def RTC_CNT_HI_CNT : Field := ⟨Reg.RTC_CNT_HI, 15, 0⟩
/-- RTC_ALARM_LO.ALARM, RW. -/
def RTC_ALARM_LO_ALARM : Field := ⟨Reg.RTC_ALARM_LO, 31, 0⟩
/-- RTC_ALARM_HI.ALARM, RW. -/
def RTC_ALARM_HI_ALARM : Field := ⟨Reg.RTC_ALARM_HI, 15, 0⟩
/-- SLP_RTC_IN_LO.COUNT, RO. -/
def SLP_RTC_IN_LO_COUNT : Field := ⟨Reg.SLP_RTC_IN_LO, 31, 0⟩
/-- SLP_RTC_IN_HI.COUNT, RO. -/
def SLP_RTC_IN_HI_COUNT : Field := ⟨Reg.SLP_RTC_IN_HI, 15, 0⟩
/-- SLP_RTC_OUT_LO.COUNT, RO. -/
def SLP_RTC_OUT_LO_COUNT : Field := ⟨Reg.SLP_RTC_OUT_LO, 31, 0⟩
/-- SLP_RTC_OUT_HI.COUNT, RO. -/
def SLP_RTC_OUT_HI_COUNT : Field := ⟨Reg.SLP_RTC_OUT_HI, 15, 0⟩
/-- SLP_ADV_LO.ADV, RO. -/
def SLP_ADV_LO_ADV : Field := ⟨Reg.SLP_ADV_LO, 31, 0⟩
/-- SLP_ADV_HI.ADV, RO. -/
def SLP_ADV_HI_ADV : Field := ⟨Reg.SLP_ADV_HI, 31, 0⟩
/-- SLP_STATUS.TIME_ESTIMATED, W1C. -/
def SLP_STATUS_TIME_ESTIMATED : Field := ⟨Reg.SLP_STATUS, 31, 31⟩
/-- SLP_STATUS.ACC, RO. -/
def SLP_STATUS_ACC : Field := ⟨Reg.SLP_STATUS, 30, 29⟩
/-- SLP_STATUS.CAD, RO. -/
def SLP_STATUS_CAD : Field := ⟨Reg.SLP_STATUS, 28, 26⟩

end F

end Sys2Proof.Machine
end

