-- ==== Sys2Proof/Machine/RegTable.lean ====
section
/-! DEFINITION. The register table: for every register of the spec its power domain, its reset value (R8), whether it
is retained (R9) and, as masks over its bits, which fields carry which access code (R11). Made from the register
tables of spec/01 to spec/18. A field whose Reset entry is "boot" resets to 0 (R8); a field whose entry is "fuse"
stands at 0 until the fuses load (R8): Power.fuseLoad. Reset values that depend on the index are in
`Reg.resetOf`. -/

namespace Sys2Proof.Machine

/-- The power domains of R413. Serai banks have no registers of their own. -/
inductive Dom where
  | aon | cp | secp | se (n : Nat) | ports | sense | act | usb | ddr | pll
  deriving DecidableEq, Repr

/-- One row of the register table: `count` registers `stride` apart, and inside each of them `count2` registers
`stride2` apart. The masks give the bits under each access code of R11; a bit in none of them is RO or reserved. -/
structure RegRow where
  /-- Address of the first register. -/
  base : Nat
  /-- How many, and how far apart. -/
  count : Nat := 1
  /-- Distance between them. -/
  stride : Nat := 4
  /-- Inner count (1 where there is no inner index). -/
  count2 : Nat := 1
  /-- Inner distance. -/
  stride2 : Nat := 4
  /-- Reset value (R8). -/
  reset : Nat := 0
  /-- RW and LK bits. -/
  rw : Nat := 0
  /-- W1C bits. -/
  w1c : Nat := 0
  /-- W1S bits. -/
  w1s : Nat := 0
  /-- RC bits. -/
  rc : Nat := 0
  /-- WO bits, which read as 0. -/
  wo : Nat := 0
  /-- Power domain. -/
  dom : Dom
  /-- R9: keeps its value in retention. -/
  ret : Bool := false
  deriving DecidableEq, Repr

namespace Reg

/-- Registers of the block of R26 named sys. -/
def sysRows : List RegRow :=
  [{ base := 0x40000040, rw := 0x303, dom := .cp },
   { base := 0x40000100, reset := 0xC, rw := 0x1F, dom := .cp },
   { base := 0x40000104, w1c := 0x3, rc := 0xFFFF0000, dom := .cp },
   { base := 0x40000108, dom := .cp },
   { base := 0x4000010C, rc := 0xFFFF, dom := .cp },
   { base := 0x40000200, rw := 0xF8000000, dom := .cp },
   { base := 0x40000204, rw := 0xFFFFFFFE, dom := .cp },
   { base := 0x40000208, dom := .cp },
   { base := 0x4000020C, dom := .cp },
   { base := 0x40000210, rw := 0xFFFFFC00, dom := .cp },
   { base := 0x40000240, count := 9, stride := 0x4, rw := 0xFFFFFFFE, dom := .cp },
   { base := 0x40000270, count := 9, stride := 0x4, rw := 0xFFFFC07F, dom := .cp },
   { base := 0x40000220, wo := 0x80000000, dom := .aon },
   { base := 0x40000110, w1c := 0x3, rc := 0xFFFF0000, dom := .cp },
   { base := 0x40000114, dom := .cp },
   { base := 0x40000300, rw := 0x81FF, dom := .aon },
   { base := 0x40000000, reset := 0x10800000, dom := .aon },
   { base := 0x40000004, reset := 0xB1, dom := .aon },
   { base := 0x40000008, dom := .aon },
   { base := 0x40000010, count := 4, stride := 0x4, dom := .aon }]

/-- Registers of the block of R26 named tick. -/
def tickRows : List RegRow :=
  [{ base := 0x40030000, rw := 0x5, wo := 0x8, dom := .pll },
   { base := 0x40030004, reset := 0x101, rw := 0x40000007, wo := 0x30000000, dom := .pll },
   { base := 0x40030008, rw := 0xFFFFFFFF, dom := .pll },
   { base := 0x4003000C, rw := 0xFFFFFFFF, dom := .pll },
   { base := 0x40030010, reset := 0x5FC05FC0, dom := .pll },
   { base := 0x40030014, w1c := 0xF0, rc := 0xFF00, dom := .pll },
   { base := 0x40030018, w1c := 0x3FF, dom := .pll },
   { base := 0x4003001C, reset := 0x6000, dom := .pll },
   { base := 0x40030020, dom := .aon },
   { base := 0x40030024, dom := .aon },
   { base := 0x40030028, rw := 0xFFFFFFFF, dom := .pll },
   { base := 0x4003002C, rw := 0xFFFFFFFF, dom := .pll },
   { base := 0x40030030, rw := 0xFFFFFFFF, dom := .pll },
   { base := 0x40030034, rw := 0xFFFFFFFF, dom := .pll }]

/-- Engine control and status registers of R27, for every engine. -/
def engRows : List RegRow :=
  [{ base := 0x30180000, count := 10, stride := 0x400000, rw := 0x1, wo := 0x1C, dom := .se 0, ret := true },
   { base := 0x30180004, count := 10, stride := 0x400000, dom := .se 0 },
   { base := 0x30180008, count := 10, stride := 0x400000, rw := 0x3FFFE, dom := .se 0, ret := true },
   { base := 0x3018000C, count := 10, stride := 0x400000, rw := 0x3FFFC, dom := .se 0, ret := true },
   { base := 0x30180010, count := 10, stride := 0x400000, dom := .se 0, ret := true },
   { base := 0x30180014, count := 10, stride := 0x400000, rw := 0xFFFF, dom := .se 0, ret := true },
   { base := 0x30180018, count := 10, stride := 0x400000, w1c := 0x1FF, dom := .se 0, ret := true },
   { base := 0x3018001C, count := 10, stride := 0x400000, reset := 0x22, rw := 0x1FF, dom := .se 0, ret := true },
   { base := 0x30180020, count := 10, stride := 0x400000, dom := .se 0, ret := true },
   { base := 0x30180024, count := 10, stride := 0x400000, reset := 0x2, rw := 0xF, dom := .se 0, ret := true },
   { base := 0x30180028, count := 10, stride := 0x400000, dom := .se 0 },
   { base := 0x30180030, count := 10, stride := 0x400000, w1c := 0x3F, dom := .se 0, ret := true },
   { base := 0x30180034, count := 10, stride := 0x400000, reset := 0x28, rw := 0x3F, dom := .se 0, ret := true },
   { base := 0x30180038, count := 10, stride := 0x400000, rc := 0xFFFFFFFF, dom := .se 0 },
   { base := 0x3018003C, count := 10, stride := 0x400000, rc := 0xFFFFFFFF, dom := .se 0 },
   { base := 0x30180040, count := 10, stride := 0x400000, dom := .se 0, ret := true },
   { base := 0x30180044, count := 10, stride := 0x400000, reset := 0xC, rw := 0x1F, dom := .se 0, ret := true },
   { base := 0x30180048, count := 10, stride := 0x400000, rw := 0x7, dom := .se 0, ret := true },
   { base := 0x30180100, count := 10, stride := 0x400000, count2 := 16, stride2 := 4, rw := 0x3FFFF, dom := .se 0 }]

/-- Registers of the block of R26 named strm. -/
def strmRows : List RegRow :=
  [{ base := 0x400A0000, reset := 0x40, rw := 0x800007FF, dom := .ddr, ret := true },
   { base := 0x400A0004, w1c := 0x7F, dom := .ddr },
   { base := 0x400A0008, rc := 0xFFFF0000, dom := .ddr },
   { base := 0x400A000C, rc := 0xFFFFFFFF, dom := .ddr },
   { base := 0x400A0010, rc := 0xFFFFFFFF, dom := .ddr },
   { base := 0x400A0018, dom := .ddr },
   { base := 0x400A0014, dom := .ddr },
   { base := 0x400A0020, rw := 0xFFF, dom := .ddr },
   { base := 0x400A0024, wo := 0x7, dom := .ddr },
   { base := 0x400A0028, rw := 0xFFFFFFFF, dom := .ddr },
   { base := 0x400A002C, rw := 0xFFFFFFFF, dom := .ddr },
   { base := 0x400A0040, count := 8, stride := 0x4, rw := 0xFFFFFFFF, dom := .ddr },
   { base := 0x400A0060, dom := .ddr },
   { base := 0x400A0064, dom := .ddr },
   { base := 0x400A0068, dom := .ddr }]

/-- Registers of the block of R26 named ddr. -/
def ddrRows : List RegRow :=
  [{ base := 0x400B0000, rw := 0x3313, dom := .ddr, ret := true },
   { base := 0x400B0004, reset := 0x600, rw := 0xF00, wo := 0x1, dom := .ddr, ret := true },
   { base := 0x400B0008, w1c := 0xE4, dom := .ddr },
   { base := 0x400B000C, rc := 0xFFFFFFFF, dom := .ddr }]

/-- Registers of the block of R26 named pan. -/
def panRows : List RegRow :=
  [{ base := 0x40090000, count := 4, stride := 0x10, rw := 0x300003FF, w1c := 0x3000000, wo := 0xC0000000, dom := .cp, ret := true },
   { base := 0x40090004, count := 4, stride := 0x10, rw := 0xFFFFFFFF, dom := .cp, ret := true },
   { base := 0x40090008, count := 4, stride := 0x10, rw := 0xFFFFFFFF, dom := .cp, ret := true },
   { base := 0x40090040, w1c := 0xFFFFF, dom := .cp, ret := true },
   { base := 0x40090044, dom := .aon },
   { base := 0x40090048, w1c := 0x3FC0C, dom := .cp, ret := true },
   { base := 0x40098000, count := 1024, stride := 0x20, rw := 0x73FF7FFF, wo := 0x80000000, dom := .cp, ret := true },
   { base := 0x40098004, count := 1024, stride := 0x20, rw := 0xFFFFFFFF, dom := .cp, ret := true },
   { base := 0x40098008, count := 1024, stride := 0x20, rw := 0xFFFFFFFF, dom := .cp, ret := true },
   { base := 0x4009800C, count := 1024, stride := 0x20, dom := .cp, ret := true },
   { base := 0x40098010, count := 1024, stride := 0x20, dom := .cp, ret := true }]

/-- Registers of the block of R26 named replay. -/
def replayRows : List RegRow :=
  [{ base := 0x40130000, reset := 0x80000000, rw := 0xC00003FF, dom := .cp, ret := true },
   { base := 0x40130004, w1c := 0x3FFFFFFF, dom := .cp },
   { base := 0x40130008, rc := 0xFFFFFFFF, dom := .cp },
   { base := 0x40130010, count := 10, stride := 0x4, rw := 0x3FF, dom := .cp, ret := true },
   { base := 0x40130040, count := 10, stride := 0x4, dom := .cp },
   { base := 0x40130080, rw := 0x8000000F, dom := .cp, ret := true },
   { base := 0x40130084, reset := 0x76543210, dom := .aon },
   { base := 0x40130088, reset := 0x98, dom := .aon },
   { base := 0x40130090, reset := 0x400, rw := 0xFFFFF, wo := 0xC0000000, dom := .cp, ret := true },
   { base := 0x40130094, rw := 0xFFFFFFFF, dom := .cp, ret := true },
   { base := 0x40130098, rw := 0xFFFFFFFF, dom := .cp, ret := true },
   { base := 0x4013009C, w1c := 0x30000000, rc := 0xFF0000, dom := .cp },
   { base := 0x401300A0, rw := 0x6000000F, wo := 0x80000000, dom := .cp },
   { base := 0x401300A4, w1c := 0x40000000, dom := .cp },
   { base := 0x401300C0, rw := 0x7FFFF, wo := 0xC0000000, dom := .cp },
   { base := 0x401300C4, w1c := 0x40000000, rc := 0xFFFF, dom := .cp }]

/-- Registers of the block of R26 named tlk. -/
def tlkRows : List RegRow :=
  [{ base := 0x400E0000, reset := 0x1C040100, rw := 0xFCFFFFC0, dom := .cp, ret := true },
   { base := 0x400E0004, reset := 0x10000000, rw := 0xFF0003FF, dom := .cp, ret := true },
   { base := 0x400E0008, dom := .aon },
   { base := 0x400E000C, w1c := 0xFF, dom := .cp },
   { base := 0x400E0010, w1c := 0x10000000, wo := 0xE0000000, dom := .aon },
   { base := 0x400E0014, wo := 0x1, dom := .cp },
   { base := 0x400E0018, dom := .cp },
   { base := 0x400E001C, dom := .cp },
   { base := 0x400E0020, rw := 0xFFFFFFFF, dom := .cp },
   { base := 0x400E0024, rw := 0xFFFFFFFF, dom := .cp },
   { base := 0x400E0028, rw := 0xFFFFFFFF, dom := .cp },
   { base := 0x400E002C, rw := 0xFFFFFFFF, dom := .cp },
   { base := 0x400E0030, w1c := 0x40000000, wo := 0x80000000, dom := .cp },
   { base := 0x400E0034, dom := .cp },
   { base := 0x400E0038, dom := .cp },
   { base := 0x400E0040, rw := 0xFE000001, dom := .cp, ret := true },
   { base := 0x400E0044, rw := 0x3, dom := .cp, ret := true },
   { base := 0x400E0050, dom := .cp },
   { base := 0x400E0054, dom := .cp },
   { base := 0x400E0058, dom := .cp },
   { base := 0x400E005C, rc := 0xFFFFFFFF, dom := .cp },
   { base := 0x400E0060, reset := 0x90, rw := 0xFFFF, wo := 0xC0000000, dom := .cp },
   { base := 0x400E0064, w1c := 0xC00000, dom := .cp },
   { base := 0x400E0070, rc := 0xFFFFFFFF, dom := .cp }]

/-- Registers of the block of R26 named sap. -/
def sapRows : List RegRow :=
  [{ base := 0x40060000, count := 8, stride := 0x1000, reset := 0x10, rw := 0xBFF8007F, wo := 0x40000000, dom := .ports, ret := true },
   { base := 0x40060004, count := 8, stride := 0x1000, rw := 0xFFFF0000, dom := .ports, ret := true },
   { base := 0x40060008, count := 8, stride := 0x1000, rw := 0xFFFF0000, dom := .ports, ret := true },
   { base := 0x4006000C, count := 8, stride := 0x1000, reset := 0xFFFFFFFF, rw := 0xFFFFFFFF, dom := .ports, ret := true },
   { base := 0x40060010, count := 8, stride := 0x1000, w1c := 0x1FD, dom := .ports },
   { base := 0x40060014, count := 8, stride := 0x1000, rw := 0x1FF, dom := .ports, ret := true },
   { base := 0x40060018, count := 8, stride := 0x1000, rc := 0xFFFFFFFF, dom := .ports },
   { base := 0x4006001C, count := 8, stride := 0x1000, dom := .ports }]

/-- Registers of the block of R26 named asrc. -/
def asrcRows : List RegRow :=
  [{ base := 0x40070000, count := 4, stride := 0x10, reset := 0x40, rw := 0x870000FF, dom := .ports, ret := true },
   { base := 0x40070004, count := 4, stride := 0x10, w1c := 0x7E, dom := .ports },
   { base := 0x40070008, count := 4, stride := 0x10, dom := .ports },
   { base := 0x40070100, count := 64, stride := 0x4, rw := 0xC300001F, dom := .ports, ret := true },
   { base := 0x40070F00, count := 4, stride := 0x4, rw := 0xE7000000, dom := .ports, ret := true }]

/-- Registers of the block of R26 named rtr. -/
def rtrRows : List RegRow :=
  [{ base := 0x40080000, reset := 0x40, rw := 0x300000FF, wo := 0xC0000000, dom := .ports, ret := true },
   { base := 0x40080004, rw := 0xFFFFFFFF, dom := .ports, ret := true },
   { base := 0x40080008, rw := 0xFFFFFFFF, dom := .ports, ret := true },
   { base := 0x4008000C, w1c := 0x3E, rc := 0xFFFF0000, dom := .ports },
   { base := 0x40080100, count := 16, stride := 0x8, rw := 0xFFFFFFC0, dom := .ports, ret := true },
   { base := 0x40080104, count := 16, stride := 0x8, rw := 0xFFFF, dom := .ports, ret := true },
   { base := 0x40080180, w1c := 0xFFFF, dom := .ports },
   { base := 0x40080200, count := 8, stride := 0x10, reset := 0xFFFF, rw := 0x8000FFFF, dom := .ports, ret := true },
   { base := 0x40080204, count := 8, stride := 0x10, reset := 0xFFFFC030, rw := 0xFFFFFFFF, dom := .ports, ret := true },
   { base := 0x40080208, count := 8, stride := 0x10, reset := 0xFFFFFFFF, dom := .ports, ret := true },
   { base := 0x40080280, count := 8, stride := 0x4, w1c := 0xFFFFFFFF, dom := .ports },
   { base := 0x400802A0, count := 8, stride := 0x4, w1c := 0xFFFFFFFF, dom := .ports },
   { base := 0x40081000, count := 256, stride := 0x4, rw := 0xFFFFFFFF, dom := .ports, ret := true },
   { base := 0x40081400, count := 256, stride := 0x4, rw := 0xFFFFFFFF, dom := .ports, ret := true },
   { base := 0x40081800, count := 256, stride := 0x4, rc := 0xFFFFFF, dom := .ports },
   { base := 0x40081C00, count := 256, stride := 0x4, dom := .ports },
   { base := 0x40082000, count := 8, stride := 0x4, w1c := 0xFFFFFFFF, dom := .ports },
   { base := 0x40082020, count := 8, stride := 0x4, dom := .ports },
   { base := 0x40082040, count := 8, stride := 0x4, w1c := 0xFFFFFFFF, dom := .ports },
   { base := 0x40084000, count := 4096, stride := 0x4, dom := .ports },
   { base := 0x40088000, count := 4096, stride := 0x8, rw := 0x7FF07FF, dom := .ports, ret := true },
   { base := 0x40088004, count := 4096, stride := 0x8, rw := 0xFFFFFF, dom := .ports, ret := true }]

/-- Registers of the block of R26 named clk. -/
def clkRows : List RegRow :=
  [{ base := 0x40020000, rw := 0x1, wo := 0x80000000, dom := .pll },
   { base := 0x40020004, w1c := 0x1FC, dom := .pll },
   { base := 0x40020008, rw := 0x40000003, wo := 0x30000000, dom := .pll },
   { base := 0x4002000C, rw := 0xFFFFFFFF, dom := .pll },
   { base := 0x40020010, rw := 0xFFFFFFFF, dom := .pll },
   { base := 0x40020014, reset := 0x80000001, rw := 0x807FFFFF, wo := 0x40000000, dom := .pll },
   { base := 0x40020018, dom := .pll },
   { base := 0x4002001C, dom := .pll },
   { base := 0x40020020, reset := 0x4000101, rw := 0xFF01FFFF, wo := 0x800000, dom := .pll },
   { base := 0x40020024, rw := 0x7FFFF, dom := .pll },
   { base := 0x40020028, rw := 0xFFFFFFFF, dom := .pll },
   { base := 0x4002002C, rw := 0xFFFFFFFF, dom := .pll },
   { base := 0x40020030, rw := 0xFFFFFFFF, dom := .pll },
   { base := 0x40020034, w1c := 0xF0000, dom := .pll },
   { base := 0x40020038, dom := .pll },
   { base := 0x4002003C, rw := 0x80000000, dom := .pll }]

/-- Registers of the block of R26 named sense. -/
def senseRows : List RegRow :=
  [{ base := 0x400C0000, rw := 0xA000000F, wo := 0x40000000, dom := .sense, ret := true },
   { base := 0x400C0004, w1c := 0x6, dom := .sense },
   { base := 0x400C0008, w1c := 0xFFFF, dom := .sense },
   { base := 0x400C0010, count := 4, stride := 0x4, reset := 0x76543210, rw := 0xFFFFFFFF, dom := .sense, ret := true },
   { base := 0x400C0020, count := 2, stride := 0x10, reset := 0x100, rw := 0xFF00, w1c := 0xC0000000, rc := 0xFF, dom := .sense },
   { base := 0x400C0024, count := 2, stride := 0x10, dom := .sense },
   { base := 0x400C0028, count := 2, stride := 0x10, rc := 0xFFFFFFFF, dom := .sense },
   { base := 0x400C0080, count := 8, stride := 0x4, w1c := 0xFFFFFFFF, dom := .sense },
   { base := 0x400C00C0, rw := 0xC000033F, w1c := 0x10000000, dom := .aon },
   { base := 0x400C1000, count := 256, stride := 0x10, rw := 0xFF070700, dom := .sense, ret := true },
   { base := 0x400C1004, count := 256, stride := 0x10, reset := 0x40000000, rw := 0xFFFFFFFF, dom := .sense, ret := true },
   { base := 0x400C1008, count := 256, stride := 0x10, rw := 0xFFFFFFFF, dom := .sense, ret := true },
   { base := 0x400C100C, count := 256, stride := 0x10, dom := .sense },
   { base := 0x400C8000, count := 256, stride := 0x80, count2 := 17, stride2 := 4, rw := 0xFFFFFFFF, dom := .sense, ret := true }]

/-- Registers of the block of R26 named act. -/
def actRows : List RegRow :=
  [{ base := 0x400D0000, count := 32, stride := 0x20, rw := 0xFFFFFF00, dom := .act, ret := true },
   { base := 0x400D0004, count := 32, stride := 0x20, rw := 0xFFFF, dom := .act, ret := true },
   { base := 0x400D0008, count := 32, stride := 0x20, rw := 0xFFFFFF00, dom := .act, ret := true },
   { base := 0x400D000C, count := 32, stride := 0x20, rw := 0xFFFFFFFF, dom := .act, ret := true },
   { base := 0x400D0010, count := 32, stride := 0x20, rw := 0xFFFFFF, dom := .act, ret := true },
   { base := 0x400D0014, count := 32, stride := 0x20, rw := 0x80FFFFFF, dom := .act, ret := true },
   { base := 0x400D0018, count := 32, stride := 0x20, dom := .act },
   { base := 0x400D001C, count := 32, stride := 0x20, dom := .act },
   { base := 0x400D0400, w1c := 0xFFFFFFFF, dom := .act },
   { base := 0x400D0404, w1c := 0x1, wo := 0x80000000, dom := .act },
   { base := 0x400D0410, count := 4, stride := 0x4, dom := .act },
   { base := 0x400D0500, count := 4, stride := 0x10, reset := 0xFFFFFFFF, dom := .act },
   { base := 0x400D0504, count := 4, stride := 0x10, reset := 0xFFFFFF, dom := .act },
   { base := 0x400D0508, count := 4, stride := 0x10, reset := 0xFFFF, dom := .act }]

/-- Registers of the block of R26 named evt. -/
def evtRows : List RegRow :=
  [{ base := 0x40040000, count := 4, stride := 0x4, w1c := 0xFFFFFFFF, dom := .aon },
   { base := 0x40040010, reset := 0x80000000, dom := .aon },
   { base := 0x40040014, rw := 0x80000000, dom := .aon },
   { base := 0x40040100, count := 128, stride := 0x4, rw := 0x800000FF, dom := .aon }]

/-- Registers of the block of R26 named mbox. -/
def mboxRows : List RegRow :=
  [{ base := 0x40050000, count := 24, stride := 0x80, count2 := 16, stride2 := 4, rw := 0xFFFFFFFF, dom := .aon },
   { base := 0x40050040, count := 24, stride := 0x80, wo := 0xF0000000, dom := .aon },
   { base := 0x40050044, count := 24, stride := 0x80, rw := 0xFFFF, wo := 0x80000000, dom := .aon },
   { base := 0x40050048, count := 24, stride := 0x80, w1c := 0x18, dom := .aon },
   { base := 0x4005004C, count := 24, stride := 0x80, dom := .aon },
   { base := 0x40050050, count := 24, stride := 0x80, dom := .aon },
   { base := 0x40050054, count := 24, stride := 0x80, dom := .aon },
   { base := 0x40050058, count := 24, stride := 0x80, reset := 0xF0, rw := 0xFFFF, dom := .aon },
   { base := 0x4005005C, count := 24, stride := 0x80, rw := 0x3FFFF, dom := .aon },
   { base := 0x40050C00, w1s := 0x1, dom := .aon },
   { base := 0x40050C10, count := 4, stride := 0x4, rw := 0x8FF00000, rc := 0xFFFF, dom := .aon },
   { base := 0x40051000, count := 8, stride := 0x4, rw := 0xFF00, w1c := 0xFF, dom := .aon },
   { base := 0x40051020, count := 8, stride := 0x4, w1s := 0xFF, dom := .aon },
   { base := 0x40052000, count := 64, stride := 0x4, reset := 0x80000000, rc := 0x80000000, dom := .aon },
   { base := 0x40052100, wo := 0xC000003F, dom := .aon },
   { base := 0x40052104, w1c := 0x1, rc := 0xFFFF0000, dom := .aon },
   { base := 0x40053000, count := 18, stride := 0x4, dom := .aon }]

/-- Registers of the block of R26 named hport. -/
def hportRows : List RegRow :=
  [{ base := 0x400F0000, reset := 0xD000002C, rw := 0xF0000000, dom := .aon },
   { base := 0x400F0004, w1c := 0x1F, dom := .aon },
   { base := 0x400F0008, dom := .aon },
   { base := 0x400F000C, rc := 0xFFFFFFFF, dom := .aon }]

/-- Registers of the block of R26 named usb. -/
def usbRows : List RegRow :=
  [{ base := 0x40100000, reset := 0x40000000, rw := 0xC0000000, wo := 0x20000000, dom := .usb },
   { base := 0x40100004, w1c := 0x3FF, dom := .usb },
   { base := 0x40100008, rw := 0xFFFFFC, dom := .usb },
   { base := 0x40100010, dom := .usb },
   { base := 0x40100014, rc := 0xFFFFFFFF, dom := .usb },
   { base := 0x40100020, rw := 0xF0FFFFC0, dom := .usb },
   { base := 0x40100024, rw := 0xFFFF, dom := .usb },
   { base := 0x40100028, rw := 0xF0FFFFC0, dom := .usb },
   { base := 0x4010002C, rw := 0xFFFF0000, dom := .usb }]

/-- Registers of the block of R26 named midi. -/
def midiRows : List RegRow :=
  [{ base := 0x40110000, count := 4, stride := 0x20, reset := 0x1, rw := 0xC000003F, dom := .cp },
   { base := 0x40110004, count := 4, stride := 0x20, w1c := 0xF, rc := 0xFF000000, dom := .cp },
   { base := 0x40110008, count := 4, stride := 0x20, dom := .cp },
   { base := 0x4011000C, count := 4, stride := 0x20, rc := 0xFFFFFFFF, dom := .cp },
   { base := 0x40110010, count := 4, stride := 0x20, wo := 0xFF, dom := .cp }]

/-- Registers of the block of R26 named sec. -/
def secRows : List RegRow :=
  [{ base := 0x40120000, dom := .aon },
   { base := 0x40120004, w1s := 0x1, wo := 0xC0000000, dom := .secp },
   { base := 0x40120010, dom := .aon },
   { base := 0x40120014, dom := .aon },
   { base := 0x40120018, dom := .aon },
   { base := 0x4012001C, dom := .aon },
   { base := 0x40120020, count := 8, stride := 0x4, dom := .aon },
   { base := 0x40120040, dom := .secp },
   { base := 0x40120044, dom := .secp },
   { base := 0x40120048, rw := 0x700000FF, wo := 0x80000000, dom := .secp },
   { base := 0x4012004C, w1c := 0x60000000, dom := .secp },
   { base := 0x40120050, count := 8, stride := 0x4, wo := 0xFFFFFFFF, dom := .secp },
   { base := 0x40120074, rw := 0x7FF, w1c := 0x10000000, wo := 0x80000000, dom := .aon },
   { base := 0x40120070, w1c := 0x1F, rc := 0xFFFF0000, dom := .aon },
   { base := 0x40120080, rw := 0x7FFFFFFF, w1s := 0x80000000, dom := .secp },
   { base := 0x40120090, rw := 0x1FF000F, w1c := 0x30000000, wo := 0x80000000, dom := .secp },
   { base := 0x40120094, rw := 0xFFFFFFFF, dom := .secp },
   { base := 0x40120400, count := 64, stride := 0x4, rw := 0xFFFFFFFF, dom := .secp }]

/-- Registers of the block of R26 named pmu. -/
def pmuRows : List RegRow :=
  [{ base := 0x40010000, rw := 0x7000FF03, wo := 0x80000000, dom := .aon },
   { base := 0x40010004, w1c := 0x1F8000, dom := .aon },
   { base := 0x40010008, dom := .aon },
   { base := 0x4001000C, dom := .aon },
   { base := 0x40010010, dom := .aon },
   { base := 0x40010014, dom := .aon },
   { base := 0x40010020, rw := 0x3FFFF, dom := .aon },
   { base := 0x40010024, rw := 0xFF, dom := .aon },
   { base := 0x40010028, reset := 0x20C00, rw := 0x3FFFF, dom := .aon },
   { base := 0x4001002C, rw := 0xFFFFFFFF, dom := .aon },
   { base := 0x40010030, rw := 0x3F, dom := .aon },
   { base := 0x40010034, w1c := 0x7F, dom := .aon },
   { base := 0x40010038, w1c := 0x3FFFF, dom := .aon },
   { base := 0x4001003C, w1c := 0xFFFFF, dom := .aon },
   { base := 0x40010044, dom := .aon },
   { base := 0x40010040, reset := 0x1, w1c := 0x1F, dom := .aon },
   { base := 0x40010050, reset := 0x80000000, rw := 0xC8000000, w1c := 0x14000000, dom := .aon },
   { base := 0x40010054, dom := .aon },
   { base := 0x40010058, dom := .aon },
   { base := 0x4001005C, rw := 0xFFFFFFFF, dom := .aon },
   { base := 0x40010060, rw := 0xFFFF, dom := .aon },
   { base := 0x40010070, dom := .aon },
   { base := 0x40010074, dom := .aon },
   { base := 0x40010078, dom := .aon },
   { base := 0x4001007C, dom := .aon },
   { base := 0x40010080, dom := .aon },
   { base := 0x40010084, dom := .aon },
   { base := 0x40010088, w1c := 0x80000000, dom := .aon }]

end Reg

end Sys2Proof.Machine
end

