-- ==== Sys2Proof/Machine/Tab.lean ====
section
/-! DEFINITION. Sparse tables: a list of (key, value) pairs in one canonical form (keys strictly rising, no entry equal
to what an unlisted key reads as), with one read and one write. Memory, the register file of the block and every array
of like things are such tables; `d` says what an unlisted key reads as. -/

namespace Sys2Proof.Machine

/-- The value of key `k`: the first entry for it, else what an unlisted key reads as. -/
def Tab.get {α : Type} (d : Nat → α) : List (Nat × α) → Nat → α
  | [], k => d k
  | (j, v) :: t, k => if j = k then v else Tab.get d t k

/-- The table without its entries for key `k`. -/
def Tab.drop {α : Type} : List (Nat × α) → Nat → List (Nat × α)
  | [], _ => []
  | (j, v) :: t, k => if j = k then Tab.drop t k else (j, v) :: Tab.drop t k

/-- A new entry put before the first larger key. -/
def Tab.ins {α : Type} (k : Nat) (v : α) : List (Nat × α) → List (Nat × α)
  | [] => [(k, v)]
  | (j, w) :: t => if k < j then (k, v) :: (j, w) :: t else (j, w) :: Tab.ins k v t

/-- The table with `v` at key `k`; a value an unlisted key would read as is not listed. -/
def Tab.set {α : Type} [DecidableEq α] (d : Nat → α) (t : List (Nat × α)) (k : Nat) (v : α) : List (Nat × α) :=
  if v = d k then Tab.drop t k else Tab.ins k v (Tab.drop t k)

/-- The entries whose key satisfies `p`: what is left of a table when the others return to what they read as unlisted. -/
def Tab.keep {α : Type} (p : Nat → Bool) : List (Nat × α) → List (Nat × α)
  | [] => []
  | (j, v) :: t => if p j then (j, v) :: Tab.keep p t else Tab.keep p t

/-- All keys of a table are larger than `b`. -/
def Tab.above {α : Type} (b : Nat) : List (Nat × α) → Bool
  | [] => true
  | (j, _) :: t => decide (b < j) && Tab.above b t

/-- The canonical form: keys strictly rising and no entry equal to what an unlisted key reads as. -/
def Tab.wf {α : Type} [DecidableEq α] (d : Nat → α) : List (Nat × α) → Bool
  | [] => true
  | (j, v) :: t => decide (v ≠ d j) && Tab.above j t && Tab.wf d t

end Sys2Proof.Machine
end

