-- ==== Sys2Proof/Machine/RegFile.lean ====
section
/-! DEFINITION. Looking a register up in the register table: which row an address names, its reset value (R8) and its
power domain. A register of which every core has its own copy (CORE_*, MB_GORES, spec/14) is kept under its address plus
2^32 times the number of the copy. -/

namespace Sys2Proof.Machine

namespace Reg

/-- The rows of the block of R26 an address lies in. -/
def rowsOf (a : Nat) : List RegRow :=
  if a < 0x40000000 then engRows
  else
    match a / 0x10000 - 0x4000 with
    | 0 => sysRows | 1 => pmuRows | 2 => clkRows | 3 => tickRows | 4 => evtRows | 5 => mboxRows | 6 => sapRows
    | 7 => asrcRows | 8 => rtrRows | 9 => panRows | 10 => strmRows | 11 => ddrRows | 12 => senseRows | 13 => actRows
    | 14 => tlkRows | 15 => hportRows | 16 => usbRows | 17 => midiRows | 18 => secRows | 19 => replayRows
    | _ => []

/-- A row holds the register at address `a`. -/
def hits (r : RegRow) (a : Nat) : Bool :=
  let d := a - r.base
  let e := d % r.stride
  decide (r.base ≤ a) && decide (d / r.stride < r.count) && e % r.stride2 == 0 && decide (e / r.stride2 < r.count2)

/-- The row of a register, by its key. -/
def row (k : Nat) : Option RegRow := (rowsOf (k % 0x100000000)).find? (hits · (k % 0x100000000))

/-- Reset of MB_ACLk (spec/14, the mailbox table). -/
def aclReset (mb : Nat) : Nat :=
  if mb < 4 then 0xC else if mb < 10 then 2 else if mb < 12 then 1 else if mb < 14 then 2 else if mb < 16 then 0x20
  else if mb < 18 then 0x10 else if mb < 20 then 2 else 0x3FF00

/-- Reset of a linearisation table word (spec/13): entry i holds 2048 × i, entry 32 holds 0xFFFF. -/
def linReset (a : Nat) : Nat :=
  let w := (a - 0x400C8000) % 0x80 / 4
  0x10000 * min 0xFFFF (2048 * (2 * w + 1)) + 2048 * (2 * w)

/-- The reset value of a register (R8), by its key. -/
def resetOf (k : Nat) : Word :=
  let a := k % 0x100000000
  BitVec.ofNat 32 <|
    if REPLAY_CONE 0 ≤ a ∧ a ≤ REPLAY_CONE 9 then 2 ^ ((a - REPLAY_CONE 0) / 4)
    else if SENSE_SCAN 0 ≤ a ∧ a ≤ SENSE_SCAN 3 then if (a - SENSE_SCAN 0) / 4 % 2 = 0 then 0x76543210 else 0xFEDCBA98
    else if 0x400C8000 ≤ a ∧ a < 0x400D0000 then linReset a
    else if MB_ACL 0 ≤ a ∧ a ≤ MB_ACL 23 ∧ (a - MB_ACL 0) % 0x80 = 0 then aclReset ((a - MB_ACL 0) / 0x80)
    else match row a with
      | some r => r.reset
      | none => 0

/-- The power domain a register lies in. -/
def domOf (a : Nat) : Option Dom :=
  match row a with
  | some r => some (if a < 0x40000000 then .se ((a - 0x30000000) / 0x400000) else r.dom)
  | none => none

end Reg

/-- Number of a domain in the masks of spec/18: SE0 to SE9, CP, SECP, PORTS, SENSE, ACT, USB, DDR, PLL; 18 for the
always-on domain. -/
def Dom.no : Dom → Nat
  | .se n => n | .cp => 10 | .secp => 11 | .ports => 12 | .sense => 13 | .act => 14 | .usb => 15 | .ddr => 16 | .pll => 17
  | .aon => 18

end Sys2Proof.Machine
end

