-- ==== Sys2Proof/Machine/State.lean ====
section
/-! DEFINITION. The state of the block as plain data: the fuses, the registers (a sparse table over `Reg.resetOf`),
memories, the state of every unit that no register holds, and the queue of commands that wait. -/

namespace Sys2Proof.Machine

/-- Why a step stops. No step of this model faults: where the spec names a bus error, a refusal or an exception, that is
the command's effect on the state. -/
inductive Fault where
  /-- Raised by nothing; the type must not be empty for a stop to be named later. Safe. -/
  | none
  deriving DecidableEq, Repr

/-- Why a step has no meaning. -/
inductive Refusal where
  /-- Raised by the arms of `exec` that have no meaning yet, with the row's mnemonic. Safe. -/
  | notModelled (mnemonic : String)
  deriving DecidableEq, Repr

/-- What the block answered to the command: the data of a read, a bus error, or bytes sent on an interface. A field of
the model (log entry 3), not of the spec's state. -/
inductive Resp where
  | none
  | data (w : Word)
  | busError
  | bytes (b : List Byte)
  | slots (w : List (Option Word))
  | nak
  | stall
  deriving DecidableEq, Repr

/-- Where in the tick the device stands (R34): between ticks, or in one of the three phases. -/
inductive Phase where
  | idle | p0 | p1 | p2
  deriving DecidableEq, Repr

/-- The tick generator's state that no register holds (spec/02). -/
structure Tick where
  /-- The phase the tick is in. -/
  phase : Phase := .idle
  /-- The Sample Time Counter (R41), in PD_AON. -/
  stc : BitVec 64 := 0
  /-- STC_HI shadows of R42 by master ID, and the STRM_POS_HI latches, which work in the same way. -/
  shadows : List (Nat × Word) := []
  /-- A pending STC load (R43). -/
  load : Option (BitVec 64) := Option.none
  /-- The latched alarm target (R44), and whether it was already past at the enabling write. -/
  alarm : BitVec 64 := 0
  /-- The alarm was enabled at or after its target (R44). -/
  alarmLate : Bool := false
  /-- A committed cadence change (R48): the code, the tick T, and whether T was not later than the STC. -/
  cadence : Option (Nat × Nat × Bool) := Option.none
  /-- The cadence a family change in its pause goes to (R49). -/
  family : Option Nat := Option.none
  /-- AUDPLL has locked to it: the tick begins at the next edge. -/
  famReady : Bool := false
  /-- A committed ECLK change (R275): the divider code, the tick T, and whether it was late. -/
  eclk : Option (Nat × Nat × Bool) := Option.none
  /-- STCL of R59: bits 31:0 of the STC, latched in phase-0 cycle 0. -/
  stcl : Word := 0
  /-- How far phase 0 has come (log entry 8): 0 done (or none in progress), 1 after the STC increment of cycle 0, 2 after
  cycle 1, 3 after the swaps of cycle 2. -/
  stage : Nat := 0
  /-- Phase 1 has reached its end, and its closing operations have run. -/
  ended : Bool := false
  /-- PAN_ROLE.FRONT at the end of phase-0 cycle 1. -/
  role1 : Nat := 0
  /-- Glide groups moving at the end of the previous phase 0, as a mask. -/
  moving0 : Nat := 0
  /-- Swap slots found due in phase-0 cycle 0: they execute in cycle 2 (R160 to R162). -/
  due : List Nat := []
  /-- Swap slots that have executed in this tick. -/
  executed : List Nat := []
  /-- The tick is a skipped tick (R51). -/
  skipped : Bool := false
  /-- Engines that take no part in this tick because they are held or were when it began (R46, R47), as a mask. -/
  held : Nat := 0
  deriving DecidableEq, Repr

/-- One segment descriptor (R117). -/
structure Seg where
  /-- Word 0: MODE, ZOG, MEM, BASE. -/
  w0 : Word := 0
  /-- Active LENGTH. -/
  len : BitVec 18 := 0
  /-- Pending length; PEND reads 1 while there is one. -/
  next : Option (BitVec 18) := Option.none
  /-- PTR. -/
  ptr : BitVec 20 := 0
  /-- Word 3: SRC_ENG, STREAM. -/
  w3 : Word := 0
  deriving DecidableEq, Repr

/-- Where a result lands (R65). General registers are numbered 0 to 511 for the physical file, 512 to 519 for g0 to g7
and 520 to 523 for x0 to x3. -/
inductive Dest where
  | gpr (k : Nat)
  | prod (k : Nat)
  | acc (k : Nat)
  | mode
  | clrFlags
  | seg (k word : Nat)
  | seed (sel : Nat)
  | nothing
  deriving DecidableEq, Repr

/-- A result in flight (R63): the cycles still to pass before the cycle at whose end it lands, its class and
destination, its value, the flags it sets on landing and the half-word address of its syllable. -/
structure Flight where
  /-- Cycles before the landing cycle. -/
  wait : Nat
  /-- Class of the unit (R67). -/
  cls : Cls
  /-- Destination. -/
  dst : Dest
  /-- Value. -/
  val : Nat
  /-- Flag bits of R60. -/
  flags : Nat
  /-- Address of the syllable. -/
  addr : Nat
  deriving DecidableEq, Repr

/-- A CALL or RET whose delay bundle has not issued yet (R61): the target (none for a RET at depth 0, which goes on after
the delay bundle), the WB from then on, and the stack from then on (a CALL adds its return address to it). -/
structure Xfer where
  /-- Target address. -/
  target : Option Nat
  /-- New window base. -/
  wb : Nat
  /-- A CALL pushes (the address after the delay bundle, this WB). -/
  push : Option Nat
  /-- A RET pops an entry. -/
  pop : Bool
  /-- Flags set when it lands. -/
  flags : Nat
  deriving DecidableEq, Repr

/-- A journaled delay-memory store (R127): word index, byte mask and data. -/
structure JEntry where
  /-- Word index. -/
  word : Nat
  /-- Byte mask, bit k for byte k. -/
  mask : Nat
  /-- Data. -/
  data : Word
  deriving DecidableEq, Repr

/-- A write that a later one of the same cycle may meet (R126). -/
structure Wrote where
  /-- CP-map address of the word. -/
  addr : Nat
  /-- Byte mask. -/
  mask : Nat
  /-- The writer's place in the order of R126: 0 SECP, 1 CP and the window, 2 hardware and engines, 3 the debug port. -/
  rank : Nat
  deriving DecidableEq, Repr

/-- An entry of an engine's serai write buffer (R132): the cycle of its store, the word offset in serai, the byte mask,
the data and the stream. -/
structure WEntry where
  /-- Cycle of the store. -/
  cyc : Nat
  /-- Word offset from 0x2000_0000. -/
  word : Nat
  /-- Byte mask. -/
  mask : Nat
  /-- Data. -/
  data : Word
  /-- Stream stored through. -/
  stream : Nat
  deriving DecidableEq, Repr

/-- Whether the CP or the SECP issues (R324, R328): stopped, running or waiting in EVWAIT. -/
inductive Run where
  | stopped | running | waiting
  deriving DecidableEq, Repr

/-- The registers of one core (R58, R103) and its pipeline. FLAGS is in the register table, as ENG_FLAGS n; its rows 10
and 11, which no bus address reaches, are the FLAGS of the CP and SECP. -/
structure Core where
  /-- Byte address of the next instruction. -/
  pc : Nat := 0
  /-- Window base. -/
  wb : Nat := 0
  /-- REPCNT. -/
  repcnt : Nat := 0
  /-- The next bundle is the repeated one of a REP (R69). -/
  repOn : Bool := false
  /-- The repeat may be interrupted (R108). -/
  repI : Bool := false
  /-- MODE (R59); ENG_MODE is its bus view. -/
  mode : Nat := 2
  /-- General registers. -/
  gpr : List (Nat × Word) := []
  /-- Accumulators with every accumulation issued so far, and as they stood one, two and three cycles earlier: A and L
  read the oldest (R65). -/
  acc : List (Nat × BitVec 56) := []
  /-- One cycle earlier. -/
  acc1 : List (Nat × BitVec 56) := []
  /-- Two cycles earlier. -/
  acc2 : List (Nat × BitVec 56) := []
  /-- Three cycles earlier. -/
  acc3 : List (Nat × BitVec 56) := []
  /-- Product registers. -/
  prod : List (Nat × BitVec 48) := []
  /-- Segment descriptors. -/
  segs : List (Nat × Seg) := []
  /-- Return stack, newest first: return address and WB. -/
  stack : List (Nat × Nat) := []
  /-- Generator N (R97). -/
  genN : Word := 1
  /-- Generator U (R97). -/
  genU : Word := 1
  /-- Results in flight, oldest first. -/
  flights : List Flight := []
  /-- A transfer waiting for its delay bundle. -/
  xfer : Option Xfer := Option.none
  /-- FLAGS bits that became set in the latest cycle: A does not see them yet (R65, log entry 11). -/
  newFlags : Nat := 0
  deriving DecidableEq, Repr

/-- What an engine or core has beside its registers: its place in the tick, its stores of the tick, its detectors. -/
structure Aux where
  /-- Phase-1 cycle in which the next bundle issues. -/
  cyc : Nat := 0
  /-- Cycle of bundle 0 in this tick: 0, or r0 after a replay restart (R182). -/
  start : Nat := 0
  /-- Bundles issued in this pass of the tick. -/
  issued : Nat := 0
  /-- Journal of the tick, newest first (R127). -/
  journal : List JEntry := []
  /-- Relay-out stores of this pass, newest first: cycle, word and the word's content before (R52, R179). -/
  relayLog : List (Nat × Nat × Word) := []
  /-- Relay-out words and the WCYC of their latest store in this tick (R179). -/
  wcyc : List (Nat × Nat) := []
  /-- Relay-out at the end of tick n-1, for the words this tick has stored (OLD of R179). -/
  old : List (Nat × Word) := []
  /-- Serai write buffer, oldest first (R132). -/
  wbuf : List WEntry := []
  /-- Reset entry of the CP or SECP (R323): where it starts. -/
  entry : Nat := 0
  /-- Whether the CP or SECP issues. -/
  run : Run := .stopped
  /-- Tick mode ends after the current phase 2 (R71). -/
  leave : Bool := false
  /-- A detector of this engine that has met its fault and has not fired: code and cycle f (R176). -/
  det : Option (Nat × Nat) := Option.none
  /-- Bundles issue empty until the decision (R128). -/
  blank : Bool := false
  /-- The cycle in which this engine took the stand-in of this tick (R183). -/
  standIn : Option Nat := Option.none
  /-- This engine has replayed in this tick (R182), and the effective cone of that replay. -/
  replay : Option Nat := Option.none
  /-- A failed shadow restore keeps the registers and ends tick mode (R184). -/
  shadowBad : Bool := false
  /-- The shadow file has a parity error that its next restore finds (R176). -/
  corrupt : Bool := false
  /-- The engine has stopped issuing for a replay whose bundle 0 is still to come (R182). -/
  stop : Bool := false
  /-- The registers have been restored for a stand-in (R183). -/
  restored : Bool := false
  /-- Address of the instruction issued last (ENG_SETUP_PC). -/
  lastPc : Nat := 0
  /-- The install scan has passed and the engine joins at the next phase 0 (R71). -/
  passed : Bool := false
  /-- The store of the latest bundle (R126). -/
  lastStore : Option Wrote := Option.none
  /-- Corrected words whose write-back is due (R128), by word address. -/
  fix : List Nat := []
  deriving DecidableEq, Repr

/-- A 64-byte burst waiting for LPDDR (R148, R149): its stream, its block (external address / 64), its need tick, and for
a writer drain the lowest position of its block. -/
structure Burst where
  /-- Stream. -/
  stream : Nat
  /-- External address of the block, divided by 64. -/
  block : Nat
  /-- Need tick. -/
  need : Nat
  /-- A writer's drain, with the lowest position of the block. -/
  drain : Option Int
  deriving DecidableEq, Repr

/-- One stream (R139 to R152). The descriptor and the control value each exist three times: in force in this tick, in
the next and in the one after (R141, R143). -/
structure Stream where
  /-- Descriptor words in force in this tick. -/
  d0 : List (Nat × Word) := []
  /-- In the next tick. -/
  d1 : List (Nat × Word) := []
  /-- As it stands after the commands processed so far. -/
  d2 : List (Nat × Word) := []
  /-- Control value of this tick: a tap's offset in units of 2^-32, a playback's rate in Q4.28 (R143). -/
  c0 : Int := 0
  /-- Of the next tick. -/
  c1 : Int := 0
  /-- Of the tick after. -/
  c2 : Int := 0
  /-- Head count H of a writer (R144). -/
  head : Int := 0
  /-- The owner stored this tick's sample (R144). -/
  stored : Bool := false
  /-- The head decremented in this tick. -/
  moved : Bool := false
  /-- A playback has started (R152). -/
  started : Bool := false
  /-- Tick at which a START takes effect. -/
  startAt : Option Nat := Option.none
  /-- Tick at which a STOP takes effect. -/
  stopAt : Option Nat := Option.none
  /-- A one-shot playback has ended (R145). -/
  ended : Bool := false
  /-- Position p of a playback, Q36.28. -/
  p : Int := 0
  /-- Integer position i_t of this tick. -/
  i : Int := 0
  /-- FRAC_t of this tick. -/
  frac : Word := 0
  /-- POS as sampled in phase-0 cycle 0. -/
  pos : BitVec 64 := 0
  /-- The window of this tick had landed in phase-0 cycle 0 (R151). -/
  ok : Bool := false
  /-- A miss of this tick has been counted. -/
  missed : Bool := false
  /-- The stream has had a ready tick since its LOAD or START. -/
  ready : Bool := false
  /-- Landed positions (R148). -/
  landed : List Int := []
  /-- Target range of the latest plan: lowest and highest position. -/
  lo : Int := 0
  /-- Highest position of the target range; below `lo` for an empty range. -/
  hi : Int := -1
  /-- Run-ahead depth D. -/
  depth : Nat := 0
  /-- PRIMED of STRM_STATE. -/
  primed : Bool := false
  /-- The tap's offset is clamped now. -/
  clamped : Bool := false
  /-- MISS_CNT. -/
  missCnt : Nat := 0
  deriving DecidableEq, Repr

/-- A queued streamer command (R141): OP, stream, descriptor words and AT. -/
structure StrmCmd where
  /-- OP. -/
  op : Nat
  /-- Stream. -/
  stream : Nat
  /-- STRM_D0 to STRM_D7. -/
  words : List Word
  /-- STRM_AT. -/
  at_ : Nat
  deriving DecidableEq, Repr

/-- The streamer and the external memory (spec/06). -/
structure Strm where
  /-- Streams 0 to 4095. -/
  streams : List (Nat × Stream) := []
  /-- Command queue, oldest first. -/
  queue : List StrmCmd := []
  /-- Bursts queued, oldest first. -/
  bursts : List Burst := []
  /-- DDR_CFG as the last INIT took it. -/
  cfg : Word := 0
  /-- The training sequence runs (R136). -/
  training : Bool := false
  /-- Serai slots granted to engines: the cycle and the banks granted in it (R131). -/
  grants : Nat × List Nat := (0, [])
  /-- The latest write of serai (R126). -/
  last : Option Wrote := Option.none
  deriving DecidableEq, Repr

/-- A glide setting (R167): what GLD_CTRL, GLD_TARGET and GLD_RATE held at the GO. -/
structure GldSet where
  /-- GLD_CTRL. -/
  ctrl : Word
  /-- GLD_TARGET. -/
  target : Word
  /-- GLD_RATE. -/
  rate : Word
  /-- The synchronised setting has caught an execution of its slot (R167). -/
  caught : Bool
  /-- The GO came in phase-0 cycles 0 to 2: this tick's phase 0 passes it by (R167). -/
  fresh : Bool
  deriving DecidableEq, Repr

/-- One glide channel's adopted state (R166) and its pending setting. -/
structure Glide where
  /-- The pending setting. -/
  next : Option GldSet := Option.none
  /-- The adopted setting, while the channel owns a word. -/
  own : Option GldSet := Option.none
  /-- Group of the adopted setting. -/
  group : Nat := 0
  /-- Current value. -/
  v : Word := 0
  /-- Linear steps remaining. -/
  rem : Nat := 0
  /-- v differs from the target. -/
  moving : Bool := false
  deriving DecidableEq, Repr

/-- A swap slot's captured state (R159, R160). -/
structure SwapSlot where
  /-- Captured target. -/
  target : Nat := 0
  /-- The target was not greater than the STC when the slot was armed. -/
  late : Bool := false
  /-- Logical engines whose copy-forward DONE still waits for, as a mask. -/
  cfWait : Nat := 0
  deriving DecidableEq, Repr

/-- The pannier and glide block's state that no register holds (spec/07). -/
structure Pan where
  /-- Swap slots. -/
  slots : List (Nat × SwapSlot) := []
  /-- Dirty bitmaps (R158), by logical engine × 2^15 + word. -/
  dirty : List (Nat × Bool) := []
  /-- Glide channels. -/
  glides : List (Nat × Glide) := []
  deriving DecidableEq, Repr

/-- An effective cone of the tick and its decision (R180 to R186). -/
structure Cone where
  /-- Logical engines. -/
  mask : Nat
  /-- Cycle of the decision. -/
  d : Nat
  /-- The cone replays; otherwise it takes the stand-in. -/
  replay : Bool
  /-- Detections: logical engine, detector, cycle. -/
  dets : List (Nat × Nat × Nat)
  /-- Its engines have stopped and restored their registers for the replay. -/
  stopped : Bool := false
  /-- Bundle 0 has issued again. -/
  started : Bool := false
  /-- The stand-in image stands in its engines' relay-out. -/
  applied : Bool := false
  /-- LATE_CNT has counted it. -/
  counted : Bool := false
  deriving DecidableEq, Repr

/-- Replay, migration and tests: state that no register holds (spec/08). -/
structure Spare where
  /-- Effective cones decided in this tick. -/
  cones : List Cone := []
  /-- Logical source of the migration in progress, and its physical spare. -/
  mig : Option (Nat × Nat) := Option.none
  /-- The copy has completed; the shadow phase begins at the next phase 0. -/
  copied : Bool := false
  /-- The spare took a stand-in alone in this tick. -/
  miss : Bool := false
  /-- Physical engine under BIST. -/
  bist : Option Nat := Option.none
  /-- Looped port: number, frames left (none: until STOP), stop asked. -/
  loop : Option (Nat × Option Nat × Bool) := Option.none
  /-- Consecutive correct PRBS bits seen. -/
  prbs : Nat := 0
  /-- Last 23 bits of the PRBS checker. -/
  prbsReg : Nat := 0
  deriving DecidableEq, Repr


/-- The fuses (R402, R409, R410): one-time programmable, each bit blown once. -/
structure Otp where
  /-- Lifecycle: 0 Open, 1 Customer, 2 Secured, 3 Retired. -/
  lc : Nat := 0
  /-- Anti-rollback thermometer field: bit set means blown. -/
  arb : BitVec 64 := 0
  /-- Customer Image Key, byte 0 in the lowest bits. -/
  cik : BitVec 256 := 0
  /-- CIK programmed. -/
  cikSet : Bool := false
  /-- Device Unique Key. -/
  duk : BitVec 256 := 0
  /-- DUK generated. -/
  dukSet : Bool := false
  /-- Slot offsets in the layout of FUSE_SLOT. -/
  slot : BitVec 32 := 0
  /-- Slot offsets programmed. -/
  slotSet : Bool := false
  /-- Blown bits of each ceiling of R410, by ARG. -/
  ceil : List (Nat × BitVec 24) := []
  deriving DecidableEq, Repr

/-- A fuse operation that has started (R409): OP, ARG and the data words. -/
structure FuseOp where
  /-- OP of FUSE_CMD. -/
  op : Nat
  /-- ARG. -/
  arg : Nat
  /-- FUSE_DATA0 to 7. -/
  data : List Word
  /-- KEY_LOCK was set. -/
  locked : Bool
  deriving DecidableEq, Repr

/-- What the boot record holds beside the SEC_IMG and SEC_PROG_DIGEST registers (R405). -/
structure BootRec where
  /-- REG pairs copied from the image at load, at most 128. -/
  pairs : List (Word × Word) := []
  /-- ENTRY words of the image. -/
  entry : List Word := []
  /-- VBASE_CP and VBASE_SECP. -/
  vbase : Word × Word := (0, 0)
  /-- FLAGS.FASTWAKE of the image. -/
  fastwake : Bool := false
  /-- Region mask of the seal. -/
  mask : Nat := 0
  /-- SHA-256 digest of each region, by bit of the mask. -/
  digests : List (Nat × List Byte) := []
  /-- Lifecycle at the seal. -/
  lc : Nat := 0
  /-- DUK whose K_REC made the record tag. -/
  key : BitVec 256 := 0
  /-- How often each region's memory had lost its content at the seal. -/
  losses : List (Nat × Nat) := []
  /-- SEC_OSPI_WP.START and LEN of the image (R401). -/
  wp : Nat × Nat := (0, 0)
  /-- The record's memory has been written since: its tag does not match. -/
  broken : Bool := false
  deriving DecidableEq, Repr

/-- The fuse and security block's state that no register holds (spec/17). -/
structure Sec where
  /-- The ROM is to start (reset release, a wake, REBOOT or a double fault). -/
  romDue : Bool := true
  /-- It starts because PD_SECP woke (R407). -/
  woke : Bool := false
  /-- The ROM's step 1 has completed since the last reset (R408). -/
  open_ : Bool := false
  /-- An OSPI operation in progress: OP, address, bytes, buffer. -/
  ospi : Option (Nat × Nat × Nat × List Word) := Option.none
  /-- A fuse operation in progress. -/
  fuseOp : Option FuseOp := Option.none
  /-- Boot record. -/
  rec_ : BootRec := {}
  /-- The recovery buffer has passed CHECK: LENGTH and VERSION (R404). -/
  checked : Option (Nat × Word) := Option.none
  /-- BOOTSEL as sampled last (R389). -/
  bootsel : Nat := 0
  /-- The ROM samples BOOTSEL when it starts: after a reset that reaches PD_AON and after REBOOT. -/
  sample : Bool := true
  /-- Words in the recovery buffer (R404). -/
  buf : Nat := 0
  /-- Instruction of the JTAG port. -/
  jtag : Jtag := .bypass
  deriving DecidableEq, Repr

/-- A wake sequence (R424). -/
structure WakeSeq where
  /-- Domains it wakes, as a mask. -/
  doms : Nat
  /-- Serai banks it wakes. -/
  banks : Nat
  /-- Step 1 to 4. -/
  step : Nat
  /-- The step has timed out once. -/
  tried : Bool := false
  /-- The oscillator step has failed: the device runs on the RC oscillator. -/
  rc : Bool := false
  /-- Arrays of step 3 still to come: serai banks 0 to 31, 32 CP SRAM, 33 SECP SRAM, 34 + n the memories of SEn. -/
  arrays : List Nat := []
  /-- Domain and bank states before it: PMU_DSTATE0, DSTATE1, SSTATE0, SSTATE1. -/
  prior : List Word := []
  deriving DecidableEq, Repr

/-- The PMU's state that no register holds (spec/18). -/
structure Pmu where
  /-- Domains that wake requests ask for, as a mask. -/
  req : Nat := 0
  /-- Serai banks they ask for. -/
  reqBanks : Nat := 0
  /-- The wake sequence that runs. -/
  seq : Option WakeSeq := Option.none
  /-- An entry that waits for the end of phase 2: domains and banks with their new states (R418). -/
  wait : Option (List (Nat × Nat) × List (Nat × Nat)) := Option.none
  /-- Domains and banks that the latest entry has changed, as masks, until a wake (R421). -/
  fresh : Option (Nat × Nat) := Option.none
  /-- Level of the WAKE pin. -/
  pin : Bool := false
  /-- PD_DDR entered retention with a trained device (R154). -/
  selfRef : Bool := false
  /-- REFCLK_SEL recorded at entry (R418). -/
  refclk : Nat := 0
  /-- RTC source at entry (R427). -/
  slpSrc : Nat := 0
  /-- The source has changed during the sleep. -/
  slpMixed : Bool := false
  /-- RTC_CNT_HI latches, by master ID (R426). -/
  shadows : List (Nat × Word) := []
  deriving DecidableEq, Repr

/-- The tandem unit's state that no register holds (spec/09). -/
structure Tlk where
  /-- TOKEN_INIT was set at pairing and the token has not been taken yet (R203). -/
  tokenInit : Bool := false
  /-- The pair is on the way to lockstep: this device is to become the recovering one (R203, R226). -/
  onWay : Bool := false
  /-- The device is the source of the partner's rejoin (R206). -/
  source : Bool := false
  /-- Level of TLK_DRIVE_OUT (R216). -/
  driveOut : Bool := false
  /-- Phase 0s until TLK_KILL_OUT falls again (R215). -/
  killOut : Nat := 0
  /-- The token was released at the latest reference cycle (R217). -/
  released : Bool := false
  /-- A planned token move has been applied and takes effect at the next reference cycle (R219). -/
  moving : Bool := false
  /-- TLK_TICK_IN edges have stopped (R222). -/
  tickLost : Bool := false
  /-- STC of the leader's negotiation frame, until the marker edge loads it (R202). -/
  marker : Option (BitVec 64) := Option.none
  /-- LPDDR capacity of the partner, from negotiation. -/
  partCap : Nat := 0
  /-- Program image digest of this device, from its boot record (R203). -/
  image : List Byte := []
  /-- Build of the CP firmware, from its image header (R203). -/
  build : Word := 0
  /-- Own digests not compared yet: tick, digest, LATCHED or stand-in of the own frame. -/
  own : List (Nat × Word × Bool) := []
  /-- Partner's digests not compared yet: low half of the tick, digest, LATCHED. -/
  part : List (Nat × Word × Bool) := []
  /-- A divergence was recorded since the last frame. -/
  div : Bool := false
  /-- Tick in whose phase 0 the latest divergence was recorded. -/
  divAt : Nat := 0
  /-- A stand-in outcome or a skipped tick occurred in this tick. -/
  standIn : Bool := false
  /-- FSEQ of the next frame. -/
  fseq : Nat := 0
  /-- FSEQ of the last intact frame received. -/
  ack : Nat := 0
  /-- The frame sent in this tick. -/
  tx : Option TFrame := Option.none
  /-- Ticks without an intact core (R200). -/
  silent : Nat := 0
  /-- An intact core arrived in this tick. -/
  heard : Bool := false
  /-- Ledger entries submitted and not acknowledged, oldest first, each with the FSEQ of the first frame that carried it. -/
  queue : List (LdgEntry × Option Nat) := []
  /-- Ledger entries held and not applied yet, in order of their stamps' submission. -/
  entries : List LdgEntry := []
  /-- Number of the next entry. -/
  nextId : Nat := 0
  /-- Entries the leader has announced in frames that were lost (R212). -/
  missing : List LdgEntry := []
  /-- Forwarded words for the next phase 0 (R196). -/
  fwd : List Word := []
  /-- Sense points received by the express path for the next phase 0: relay word, content. -/
  sense : List (Nat × Word) := []
  /-- Replay records received (R226): tick, input words, sense words, entries. -/
  records : List (Nat × List Word × List Word × List LdgEntry) := []
  /-- Ticks the external ledger ring holds no record of (R213). -/
  gaps : List Nat := []
  /-- Matching ticks in SHADOW (R226). -/
  clean : Nat := 0
  /-- Number of the last segment received. -/
  seg : Nat := 0
  /-- Segments that failed and are asked for again. -/
  again : List Nat := []
  deriving DecidableEq, Repr

/-- Where a serial audio port stands (R241, R242): stopped; waiting for E(n); waiting for, or in, a 16-frame measurement;
measured outside ±0.1 %; its clock lost; running; stopping at the end of its frame. -/
inductive SapMode where
  | off | wait | measure | changed | lost | run | stop
  deriving DecidableEq, Repr

/-- One serial audio port's state that no register holds (spec/10). -/
structure Sap where
  /-- Mode. -/
  mode : SapMode := .off
  /-- Frames completed since the last phase 0, oldest first; none for one that R237 discarded. -/
  got : List (Option (List Word)) := []
  /-- Words of the last frame that entered. -/
  prev : List Word := []
  /-- A complete frame has entered since the port started. -/
  first : Bool := false
  /-- Words the router's sources deliver in this tick. -/
  out : List Word := []
  /-- Index of the next substituted sample, while the port substitutes (R240). -/
  sub : Option Nat := Option.none
  /-- Last good samples L. -/
  last : List Word := []
  /-- Last substituted samples x. -/
  x : List Word := []
  /-- A return in progress: index j, ramp R. -/
  ret : Option (Nat × Nat) := Option.none
  /-- Ramp length of the next return. -/
  retLen : Nat := 0
  /-- Output frames since the last phase 2 (R236). -/
  sent : Nat := 0
  /-- Frame-loose counters have been set (R238). -/
  aligned : Bool := false
  /-- Frame-loose bit counter at the latest FSYNC leading edge. -/
  ctr : Nat := 0
  /-- RESTART waits for the next FSYNC edge or for resumption. -/
  restart : Bool := false
  /-- A rate has been measured. -/
  measured : Bool := false
  /-- Slots of the latest input frame as sampled at the pin, and of the one before. -/
  raw : List Word := []
  /-- Slots of the frame before. -/
  rawPrev : List Word := []
  deriving DecidableEq, Repr

/-- How far an ASRC channel's ramp has come (R246, R247). -/
inductive AsrcRamp where
  | muted | up (j : Nat) | on | down (j : Nat)
  deriving DecidableEq, Repr

/-- Gains of one route entry (R256), Q4.20. -/
structure Route where
  /-- Gain in force. -/
  cur : Int := 0
  /-- Gain the fade starts from. -/
  old : Int := 0
  /-- Gain it runs toward. -/
  tgt : Int := 0
  deriving DecidableEq, Repr

/-- Output protection of one SAP output channel (R261). -/
structure Prot where
  /-- DC estimate. -/
  dc : Int := 0
  /-- Consecutive ticks at or above the threshold. -/
  cnt : Nat := 0
  /-- Mute gain m, 0 to 64. -/
  m : Nat := 64
  deriving DecidableEq, Repr

/-- One fast-lane route's ramp (R265). -/
structure FastLane where
  /-- Gain the ramp started from. -/
  cur0 : Nat := 0
  /-- Target of the ramp. -/
  target : Nat := 0
  /-- Frame f of the ramp. -/
  f : Nat := 0
  deriving DecidableEq, Repr

/-- The router's state that no register holds (spec/11). -/
structure Rtr where
  /-- Route gains. -/
  routes : List (Nat × Route) := []
  /-- A pending commit: N, equal-power law, T (0: next tick), late. -/
  pend : Option (Nat × Bool × Nat × Bool) := Option.none
  /-- Fade counter j (0 before the first commit). -/
  j : Nat := 0
  /-- N of the fade. -/
  n : Nat := 1
  /-- The fade's law: equal-power. -/
  law : Bool := false
  /-- SAP, USB and ASRC sources as latched in phase-0 cycle 0, by code. -/
  src : List (Nat × Word) := []
  /-- Sinks delivered by the latest pass B, by code. -/
  sink : List (Nat × Word) := []
  /-- Output protection, by SAP sink code. -/
  prot : List (Nat × Prot) := []
  /-- Quiet ticks of each meter point. -/
  quiet : List (Nat × Nat) := []
  /-- Fast-lane ramps. -/
  fl : List (Nat × FastLane) := []
  /-- Warm-standby takeover ramp (R224): j. -/
  warm : Option Nat := Option.none
  /-- The commit of this phase 0 has taken effect. -/
  effect : Bool := false
  deriving DecidableEq, Repr

/-- The clock block's state that no register holds (spec/12). -/
structure Clk where
  /-- Frequency estimate of the reference, in the units of c. -/
  cRef : Int := 0
  /-- Phase error in units of 2^-16 period / (256 × NUM). -/
  fine : Int := 0
  /-- c of the last ticks, newest first, at most 256. -/
  hist : List Int := []
  /-- A snap has been commanded (R282). -/
  snapReq : Bool := false
  /-- The 16 edges of an acquisition have been measured (R278). -/
  acquired : Bool := false
  /-- The present alignment is a return after a loss (R281). -/
  back : Bool := false
  /-- The slew has brought the phase error within bound. -/
  slewed : Bool := false
  /-- Ticks with no source since c last moved (R285). -/
  offTicks : Nat := 0
  /-- LFSR of the AUDPLL dither (R274). -/
  lfsr : BitVec 23 := 1
  /-- A SYSPLL relock attempt has timed out once. -/
  sysTry : Bool := false
  /-- An AUDPLL relock attempt has timed out once. -/
  audTry : Bool := false
  /-- The clocks switch back to SYSPLL in the next idle gap (R286). -/
  backDue : Bool := false
  /-- The tick pauses at the end of the present tick (R287, R288). -/
  pauseDue : Bool := false
  deriving DecidableEq, Repr

/-- One sense point (R296 to R299, R302). -/
structure SPoint where
  /-- Conversions since the start or restart. -/
  conv : Nat := 0
  /-- Filtered position. -/
  y : Int := 0
  /-- Velocity. -/
  v : Int := 0
  /-- Time of the previous conversion, in 1/32 tick. -/
  at_ : Int := 0
  /-- Tick of the first conversion since the start or restart, counted as `Sense.tick`. -/
  begun : Nat := 0
  /-- Key state DOWN. -/
  down : Bool := false
  /-- Events are suppressed. -/
  suppr : Bool := false
  /-- The point was DOWN when suppression ended: its next release is silent. -/
  silent : Bool := false
  /-- Consecutive codes below 0x0040. -/
  lo : Nat := 0
  /-- Consecutive codes above 0xFFBF. -/
  hi : Nat := 0
  /-- Consecutive codes between. -/
  mid : Nat := 0
  /-- RAIL_LO. -/
  railLo : Bool := false
  /-- RAIL_HI. -/
  railHi : Bool := false
  /-- Conversions to come whose velocity is not VALID though the point did not restart (R294). -/
  hush : Nat := 0
  /-- Converted in this tick. -/
  fresh : Bool := false
  /-- Onsets in this tick. -/
  ons : Nat := 0
  /-- Releases in this tick. -/
  rels : Nat := 0
  /-- TIME of the first onset. -/
  onAt : Nat := 0
  /-- TIME of the first release. -/
  relAt : Nat := 0
  /-- Onsets since the start. -/
  count : Nat := 0
  /-- Position in relay word 0, in Q1.23. -/
  pos : Int := 0
  /-- Velocity in relay word 1, in Q1.23. -/
  vel : Int := 0
  /-- Relay word 1 VALID. -/
  vvalid : Bool := false
  /-- Strike velocity of the latest onset, in Q1.23. -/
  strike : Int := 0
  /-- Calibrated value of the last conversion. -/
  out : Nat := 0
  deriving DecidableEq, Repr

/-- The sense front end's state that no register holds (spec/13). -/
structure Sense where
  /-- Points. -/
  points : List (Nat × SPoint) := []
  /-- Event FIFOs 0 and 1, oldest first: words A and B. -/
  fifo0 : List (Word × Word) := []
  /-- FIFO 1. -/
  fifo1 : List (Word × Word) := []
  /-- Ticks of the scan since it started, those before a pause of the tick among them. -/
  tick : Nat := 0
  /-- The count in the first tick m of the running scan. -/
  first : Nat := 0
  /-- Slot of the next conversion in this tick. -/
  slot : Nat := 0
  /-- EN has been cleared while the scan ran: the scan ends with this tick. -/
  ending : Bool := false
  /-- The scan stopped for a pause of the tick: its points go on when it restarts (R294). -/
  paused : Bool := false
  /-- Results of the previous tick, for the sense relays (R303): relay words 0 to 1023, or none while no scan ran. -/
  relay : List Word := []
  deriving DecidableEq, Repr

/-- One actuator channel (R308 to R315). -/
structure ActCh where
  /-- Value in force for periods that start now. -/
  val : Word := 0
  /-- The period counter waits for E(n). -/
  restart : Bool := false
  /-- Energy accumulator (R312); ACT_ACC is its bus view. -/
  acc : Nat := 0
  /-- Consecutive current-sense conversions at or above ILIM. -/
  cs : Nat := 0
  deriving DecidableEq, Repr

/-- The USB device's state that no register holds (spec/15). -/
structure Usb where
  /-- OUT frames waiting, oldest first (R355). -/
  fifo : List (List Word) := []
  /-- Index of the next sample of the ramp to 0, while the FIFO is empty. -/
  under : Option Nat := Option.none
  /-- Samples delivered by the last tick that found a frame, and from which a ramp runs. -/
  last : List Word := []
  /-- Index of the next sample of the fade-in; 64 when it is over. -/
  fade : Nat := 64
  /-- Words delivered to the router in this tick. -/
  out : List Word := []
  /-- IN frames since the previous packet, oldest first. -/
  inq : List (List Word) := []
  /-- The host has enabled remote wakeup. -/
  rwake : Bool := false
  /-- Remote wakeup is being signalled. -/
  waking : Bool := false
  /-- A bit of EVT_SUM has changed from 0 to 1 since the last poll (R357). -/
  sumDue : Bool := false
  /-- A clock-source notification waits (R354). -/
  notify : Bool := false
  deriving DecidableEq, Repr

/-- One DIN MIDI UART (R358 to R360). -/
structure MidiCh where
  /-- Receive FIFO, oldest first: words A and B. -/
  rx : List (Word × Word) := []
  /-- Transmit FIFO, oldest first. -/
  tx : List Byte := []
  deriving DecidableEq, Repr

/-- What a command to the CP firmware holds while it runs (R364). -/
inductive NdHold where
  | eng (l : Nat) | port (k : Nat) | group (g : Nat) | chan (ch : Nat) | mclk (m : Nat) | slot | sense | buf (b : Nat)
  | dom (code : Nat)
  deriving DecidableEq, Repr

/-- Work that the firmware finishes in a later tick (R364). -/
inductive NdKind where
  | install | port | swapWait | sense | cal | power | pair | rejoin | updFirst | updLast | counter | migrate | bist
  | loop | partner
  deriving DecidableEq, Repr

/-- A request, as its mailbox holds it (R362). -/
structure NdReq where
  /-- Request mailbox. -/
  mb : Nat
  /-- Word 0. -/
  head : Word
  /-- Words 1 to LEN. -/
  body : List Word
  /-- Sender's master ID. -/
  sender : Nat
  /-- MB_STAMP.S_EPOCH. -/
  epoch : Nat
  /-- MB_POST_TICK. -/
  tick : Nat
  deriving DecidableEq, Repr

/-- A command that is not finished: a deferred one, or (`defer` false) an immediate one whose acknowledge is to come. -/
structure NdTask where
  /-- The request. -/
  q : NdReq
  /-- What it is. -/
  kind : NdKind
  /-- Deferred: its outcome is a completion message. -/
  defer : Bool := true
  /-- How far it is. -/
  stage : Nat := 0
  /-- The item of its payload it is at. -/
  item : Nat := 0
  /-- Tick before which the present stage does not end. -/
  due : Nat := 0
  /-- Numbers it keeps: return code of a finished part, slot, tick and the like. -/
  args : List Nat := []
  /-- Words of its reply. -/
  words : List Word := []
  /-- RT_GAIN of the routes it has faded, by entry. -/
  gains : List (Nat × Word) := []
  /-- What it holds. -/
  holds : List NdHold := []
  deriving DecidableEq, Repr

/-- The record of the last command executed on a request mailbox (R367). -/
structure NdRec where
  /-- The request. -/
  q : NdReq
  /-- Its return code. -/
  rc : Nat
  /-- Its reply: OPCODE and payload. -/
  reply : Option (Nat × List Word)
  deriving DecidableEq, Repr

/-- What waits for a reply mailbox (R363): a message, an acknowledge, or a message followed by the acknowledge. -/
structure NdOut where
  /-- Request mailbox. -/
  mb : Nat
  /-- Word 0 of the message but for its LEN and OPCODE. -/
  head : Word
  /-- OPCODE and payload. -/
  msg : Option (Nat × List Word)
  /-- Return code of the acknowledge, and MB_POST_TICK of the request it answers. -/
  ack : Option (Nat × Nat)
  deriving DecidableEq, Repr

/-- A sender's subscription (R383). -/
structure NdSub where
  /-- Sender. -/
  sender : Nat
  /-- Request mailbox it was sent on. -/
  mb : Nat
  /-- Header MINOR of its notifications. -/
  minor : Nat
  /-- Mask of events. -/
  mask : BitVec 128
  /-- Occurrences not reported yet: event, count, STC of the first. -/
  counts : List (Nat × Nat × Nat) := []
  deriving DecidableEq, Repr

/-- The CP firmware's own state (spec/16), in its memory. -/
structure Ndo where
  /-- Functions that this build and board support, as HELLO reports them; fixed for a device (log entry 61). -/
  caps : Nat := 0xFFFF
  /-- CP epoch the rest belongs to (R366). -/
  epoch : Nat := 0
  /-- Negotiated minors: sender, minor, sender's epoch (R368). -/
  vers : List (Nat × Nat × Nat) := []
  /-- Records of R367, by request mailbox. -/
  recs : List (Nat × NdRec) := []
  /-- Messages and acknowledges that wait, in the order formed. -/
  out : List NdOut := []
  /-- Commands not finished, in the order started. -/
  tasks : List NdTask := []
  /-- Load buffers 0 to 3: words, and what the image checked holds (R372). -/
  bufs : List (Nat × List Word × Option (List ArsicEng)) := []
  /-- Staged routes: sender, SRC, SINK, gain (R377). -/
  staged : List (Nat × Nat × Nat × Word) := []
  /-- Subscriptions. -/
  subs : List NdSub := []
  /-- Notifications posted, by request mailbox (R384). -/
  seqs : List (Nat × Nat) := []
  /-- The update's next word, while one is being staged (R387). -/
  upd : Option Nat := Option.none
  deriving DecidableEq, Repr

/-- The block apart from its fuses and its queue of commands. -/
structure Chip where
  /-- Registers that do not hold their reset value, by address; `Reg.resetOf` says what the others hold. -/
  regs : List (Nat × Word) := []
  /-- Domains whose fuse-backed registers load from the fuses in this step (R8), as a mask; 18 the always-on domain. -/
  fuseDue : Nat := 0
  /-- Answer to the latest command. -/
  resp : Resp := .none
  /-- Free values drawn so far. -/
  drawn : Nat := 0
  /-- Memory of the map of R24, by byte address; coefficient banks by their physical bank. -/
  mem : List Host.Cell := []
  /-- How often each memory has lost its content, by memory number (`memNo`). -/
  lost : List (Nat × Nat) := []
  /-- Check-bit state of words that are not good, by word address: 1 correctable, 2 uncorrectable (R128). -/
  ecc : List (Nat × Nat) := []
  /-- Zero tags (R124), by physical engine × 2^18 + delay word. -/
  tags : List (Nat × Bool) := []
  /-- External LPDDR memory, by byte address. -/
  ddr : List Host.Cell := []
  /-- Whether the external memory has lost its content, and how often. -/
  ddrLost : Nat := 0
  /-- Frozen relay-out images (R40), by physical engine × 256 + word. -/
  image : List (Nat × Word) := []
  /-- Tick generator. -/
  tick : Tick := {}
  /-- The twelve cores, engines by physical number. -/
  cores : List (Nat × Core) := []
  /-- What stands beside each core. -/
  aux : List (Nat × Aux) := []
  /-- Shadow files (R37). -/
  shadow : List (Nat × Core) := []
  /-- Streamer. -/
  strm : Strm := {}
  /-- Pannier and glide. -/
  pan : Pan := {}
  /-- Replay, migration, tests. -/
  spare : Spare := {}
  /-- Domains an internal mailbox-post wake request asks for, as a mask (R333). -/
  mbWake : Nat := 0
  /-- Tandem unit. -/
  tlk : Tlk := {}
  /-- Serial audio ports. -/
  sap : List (Nat × Sap) := []
  /-- ASRC channels. -/
  asrc : List (Nat × AsrcRamp) := []
  /-- Router. -/
  rtr : Rtr := {}
  /-- Clock block. -/
  clk : Clk := {}
  /-- Sense front end. -/
  sense : Sense := {}
  /-- Actuator channels. -/
  act : List (Nat × ActCh) := []

  /-- USB device. -/
  usb : Usb := {}
  /-- DIN MIDI UARTs. -/
  midi : List (Nat × MidiCh) := []

  /-- Content of the boot flash, by byte address; an erased byte reads 0xFF. -/
  flash : List Host.Cell := []
  /-- Fuse and security block. -/
  sec : Sec := {}
  /-- Power management unit. -/
  pmu : Pmu := {}
  /-- Level of the HOST_IRQ pin (R326). -/
  irq : Bool := false
  /-- CP firmware. -/
  ndo : Ndo := {}
  /-- Words the scrubbers have read since the start (R129): by physical engine × 32 + bank, and 512 + serai bank. -/
  scrub : List (Nat × Nat) := []
  deriving DecidableEq, Repr

/-- The machine: its fuses (which nothing but a fuse operation changes), everything else, and the commands that wait,
first in first out. -/
structure State where
  /-- Fuses. -/
  otp : Otp := {}
  /-- Everything else. -/
  chip : Chip := {}
  /-- Commands waiting, the front first. -/
  pending : List Instr := []
  deriving DecidableEq, Repr

/-- The machine right after reset: every register at its reset value (R8), memory with nothing listed, blank fuses, no
command waiting. -/
def State.reset : State := {}

end Sys2Proof.Machine
end

