-- ==== Sys2Proof/Machine/Ops.lean ====
section
/-! DEFINITION. The named operations over the state that every family shares: reading and writing registers and their
fields, raising events (R21), the clocks and the tick's budget (R18, R32, R35), power domains, memory with its check
bits and zero tags, and the numbering of engines (R188). -/

namespace Sys2Proof.Machine

/-- A word with a field replaced; a value too wide for the field keeps its low bits. -/
def Field.put (w : Word) (f : Field) (v : Nat) : Word :=
  BitVec.ofNat 32 (w.toNat - bits w.toNat f.hi f.lo <<< f.lo + (v % 2 ^ (f.hi + 1 - f.lo)) <<< f.lo)

/-- All ones in a field. -/
def Field.max (f : Field) : Nat := 2 ^ (f.hi + 1 - f.lo) - 1

/-- Bit `i` of a number. -/
def bitAt (w i : Nat) : Bool := w / 2 ^ i % 2 == 1

/-- A number with bit `i` set. -/
def withBit (w i : Nat) : Nat := if bitAt w i then w else w + 2 ^ i

/-- A number with bit `i` clear. -/
def dropBit (w i : Nat) : Nat := if bitAt w i then w - 2 ^ i else w

/-- `a` without the bits of `b`. -/
def maskOff (a b : Nat) : Nat := a - (a &&& b)

/-- Clamping an integer. -/
def clampI (lo hi x : Int) : Int := if x < lo then lo else if hi < x then hi else x

/-- `sat(x, w)` of R16. -/
def satI (x : Int) (w : Nat) : Int := clampI (-(2 ^ (w - 1) : Nat)) ((2 ^ (w - 1) : Nat) - 1) x

/-- `wrap(x, w)` of R16. -/
def wrapI (x : Int) (w : Nat) : Int := (BitVec.ofInt w x).toInt

/-- Division truncated toward zero. -/
def truncDiv (a b : Int) : Int := Int.tdiv a b

/-- The low `w` bits of an integer as a number. -/
def natOf (w : Nat) (x : Int) : Nat := (BitVec.ofInt w x).toNat

/-- Round half to even of `a / b` for `b > 0`. -/
def rndEven (a : Int) (b : Nat) : Int :=
  let q := a / (b : Int)
  let r := (a % (b : Int)) * 2
  if r > b ∨ (r = b ∧ q % 2 = 1) then q + 1 else q

/-- `a / b` in a whole-number format (`b > 0`): the exact quotient, or one of its two neighbours, the spec not saying
which. -/
def nearDiv (a : Int) (b : Nat) : Int :=
  a / (b : Int) + (if a % (b : Int) = 0 then 0 else if Config.roundUp a b then 1 else 0)

namespace Chip

/-- One conditional change. -/
def when (c : Chip) (b : Bool) (f : Chip → Chip) : Chip := if b then f c else c

/-- The register with key `k`. -/
def reg (c : Chip) (k : Nat) : Word := Tab.get Reg.resetOf c.regs k

/-- Write the register with key `k`, whole and without side effect. -/
def setReg (c : Chip) (k : Nat) (v : Word) : Chip := { c with regs := Tab.set Reg.resetOf c.regs k v }

/-- The value of a field. -/
def fld (c : Chip) (f : Field) : Nat := bits (c.reg f.reg).toNat f.hi f.lo

/-- A one-bit field. -/
def bit (c : Chip) (f : Field) : Bool := c.fld f != 0

/-- Write a field. -/
def setFld (c : Chip) (f : Field) (v : Nat) : Chip := c.setReg f.reg (f.put (c.reg f.reg) v)

/-- Bit `i` of a field. -/
def fbit (c : Chip) (f : Field) (i : Nat) : Bool := bitAt (c.fld f) i

/-- Set bit `i` of a field. -/
def setFbit (c : Chip) (f : Field) (i : Nat) : Chip := c.setFld f (withBit (c.fld f) i)

/-- Clear bit `i` of a field. -/
def clrFbit (c : Chip) (f : Field) (i : Nat) : Chip := c.setFld f (dropBit (c.fld f) i)

/-- A 64-bit value held in two registers. -/
def reg64 (c : Chip) (lo hi : Nat) : Nat := (c.reg hi).toNat * 2 ^ 32 + (c.reg lo).toNat

/-- Write two registers with the halves of a value. -/
def setReg64 (c : Chip) (lo hi : Nat) (v : Nat) : Chip :=
  (c.setReg lo (BitVec.ofNat 32 v)).setReg hi (BitVec.ofNat 32 (v / 2 ^ 32))

/-- Event `e` is pending. -/
def pends (c : Chip) (e : Nat) : Bool := c.fbit ⟨Reg.EVT_PEND (e / 32), 31, 0⟩ (e % 32)

/-- A bit of the event summary changes from 0 to 1 where `b` holds: the USB interrupt endpoint reports it (R357). -/
def sumNews (c : Chip) (b : Bool) : Chip := { c with usb := { c.usb with sumDue := c.usb.sumDue || b } }

/-- Raise event `e`: its pending bit sets (R325). -/
def raise (c : Chip) (e : Nat) : Chip :=
  (c.sumNews (!c.pends e && c.bit (F.EVT_CFG_HOST e))).setFbit ⟨Reg.EVT_PEND (e / 32), 31, 0⟩ (e % 32)

/-- Set a sticky bit whose change from 0 to 1 raises event `e`. -/
def sticky (c : Chip) (f : Field) (e : Nat) : Chip := if c.bit f then c else (c.setFld f 1).raise e

/-- Set bit `i` of a sticky field whose change from 0 to 1 raises event `e`. -/
def stickyBit (c : Chip) (f : Field) (i e : Nat) : Chip := if c.fbit f i then c else (c.setFbit f i).raise e

/-- Count `n` more in a counter field that saturates. -/
def bumpBy (c : Chip) (f : Field) (n : Nat) : Chip := c.setFld f (min (c.fld f + n) f.max)

/-- Count one more. -/
def bump (c : Chip) (f : Field) : Chip := c.bumpBy f 1

/-- What the block answers to this command. -/
def answer (c : Chip) (r : Resp) : Chip := { c with resp := r }

/-- A free value (a value the spec leaves open): the next one of `Config.free`. -/
def draw (c : Chip) : Word × Chip := (Config.free c.drawn, { c with drawn := c.drawn + 1 })

/-! ### Clocks and budget -/

/-- The STC. -/
def now (c : Chip) : Nat := c.tick.stc.toNat

/-- ECLK in hertz for a code of CLK_ECLK.DIV (R18). -/
def eclkHz (code : Nat) : Nat :=
  3538944000 / (match code with | 0 => 3 | 1 => 4 | 2 => 6 | _ => 12)

/-- Tick rate in hertz of a cadence code (R32). -/
def fsHz (code : Nat) : Nat := (if code % 2 = 0 then 44100 else 48000) * 2 ^ (code / 2)

/-- floor(ECLK / Fs). -/
def periodOf (rate div : Nat) : Nat := eclkHz div / fsHz rate

/-- The usable budget B of R34 and R35. -/
def budgetOf (rate div : Nat) : Nat := periodOf rate div - 64

/-- Current cadence code. -/
def rate (c : Chip) : Nat := c.fld F.TICK_CADENCE_RATE

/-- Current ECLK divider code. -/
def eclkDiv (c : Chip) : Nat := c.fld F.CLK_ECLK_DIV

/-- The budget B in force. -/
def budget (c : Chip) : Nat := budgetOf c.rate c.eclkDiv

/-- B after the pending cadence and ECLK changes (R35, R45). -/
def budgetNext (c : Chip) : Nat :=
  budgetOf ((c.tick.cadence.map (·.1)).getD ((c.tick.family).getD c.rate)) ((c.tick.eclk.map (·.1)).getD c.eclkDiv)

/-- TICK_BUDGET and TICK_PERIOD follow the cadence, the ECLK setting and the pending changes. -/
def refreshBudget (c : Chip) : Chip :=
  ((c.setFld F.TICK_BUDGET_BUDGET c.budget).setFld F.TICK_BUDGET_BUDGET_NEXT c.budgetNext).setFld F.TICK_PERIOD_PERIOD
    (periodOf c.rate c.eclkDiv)

/-! ### Power domains -/

/-- State of domain `i` (numbering of `Dom.no`): 0 on, 1 retention, 2 off (R413). -/
def domState (c : Chip) (i : Nat) : Nat :=
  if i < 16 then bits (c.fld F.PMU_DSTATE0_STATE) (2 * i + 1) (2 * i)
  else if i < 18 then bits (c.fld F.PMU_DSTATE1_STATE) (2 * (i - 16) + 1) (2 * (i - 16))
  else 0

/-- Domain `i` is on. -/
def domOn (c : Chip) (i : Nat) : Bool := c.domState i == 0

/-- State of serai bank `b`: 0 on, 1 retention, 2 off (R133). -/
def seraiState (c : Chip) (b : Nat) : Nat :=
  if b < 16 then bits (c.fld F.PMU_SSTATE0_STATE) (2 * b + 1) (2 * b)
  else bits (c.fld F.PMU_SSTATE1_STATE) (2 * (b - 16) + 1) (2 * (b - 16))

/-! ### Engine numbers (R188) -/

/-- Physical engine of logical engine `l`. -/
def phys (c : Chip) (l : Nat) : Nat :=
  if l < 8 then bits (c.fld F.ENG_MAP_LO_MAP) (4 * l + 3) (4 * l)
  else if l < 10 then bits (c.fld F.ENG_MAP_HI_MAP) (4 * (l - 8) + 3) (4 * (l - 8))
  else l

/-- Logical number of physical engine `p`. -/
def logi (c : Chip) (p : Nat) : Nat := ((List.range 10).find? (fun l => c.phys l == p)).getD p

/-- The logical engine physical `p` acts as: a spare in shadow acts as its source (R190). -/
def actsAs (c : Chip) (p : Nat) : Nat :=
  match c.spare.mig with
  | some (src, sp) => if sp = p ∧ c.fld F.MIG_STATUS_PHASE = 2 then src else c.logi p
  | none => c.logi p

/-- The map with logical `l` on physical `p`. -/
def setPhys (c : Chip) (l p : Nat) : Chip :=
  if l < 8 then c.setFld ⟨Reg.ENG_MAP_LO, 4 * l + 3, 4 * l⟩ p
  else c.setFld ⟨Reg.ENG_MAP_HI, 4 * (l - 8) + 3, 4 * (l - 8)⟩ p

/-! ### Cores and what stands beside them -/

/-- The registers of core `k` (engines by physical number, CP 10, SECP 11). -/
def core (c : Chip) (k : Nat) : Core := Tab.get (fun _ => {}) c.cores k

/-- Write them. -/
def setCore (c : Chip) (k : Nat) (v : Core) : Chip := { c with cores := Tab.set (fun _ => {}) c.cores k v }

/-- Change them. -/
def modCore (c : Chip) (k : Nat) (f : Core → Core) : Chip := c.setCore k (f (c.core k))

/-- What stands beside core `k`. -/
def auxOf (c : Chip) (k : Nat) : Aux := Tab.get (fun _ => {}) c.aux k

/-- Write it. -/
def setAux (c : Chip) (k : Nat) (v : Aux) : Chip := { c with aux := Tab.set (fun _ => {}) c.aux k v }

/-- Change it. -/
def modAux (c : Chip) (k : Nat) (f : Aux → Aux) : Chip := c.setAux k (f (c.auxOf k))

/-- Engine states of R71. -/
def engState (c : Chip) (p : Nat) : Nat := c.fld (F.ENG_STATUS_STATE p)

/-- Put an engine into a state. -/
def setEngState (c : Chip) (p st : Nat) : Chip := c.setFld (F.ENG_STATUS_STATE p) st

/-- The engine is in TICK. -/
def inTick (c : Chip) (p : Nat) : Bool := c.engState p == 4

/-- The engine is in SCAN, TICK or HELD (R73). -/
def locked73 (c : Chip) (p : Nat) : Bool := c.engState p == 3 || c.engState p == 4 || c.engState p == 5

/-- The engine takes no part in this tick because it is held or was when the tick began (R46, R47). -/
def held (c : Chip) (p : Nat) : Bool := c.engState p == 5 || bitAt c.tick.held p

/-! ### Memory -/

end Chip

/-- Number of the memory a byte address lies in: 8p to 8p+3 for the program, delay, coefficient and relay memories of
engine p, 100 CP SRAM, 101 SECP SRAM, 102 SECP ROM, 110 + b serai bank b (R24, R27, R130). -/
def memNo (a : Nat) : Nat :=
  if 0x30000000 ≤ a then
    let off := (a - 0x30000000) % 0x400000
    8 * ((a - 0x30000000) / 0x400000) + (if off < 0x40000 then 0 else if off < 0x100000 then 1 else if off < 0x140000 then 2 else 3)
  else if 0x20000000 ≤ a then 110 + 8 * bits a 23 22 + bits a 4 2
  else if 0x18000000 ≤ a then 101
  else if 0x10000000 ≤ a then 100
  else 102

/-- What a byte of memory that nothing has written reads as: 0 while its memory has never lost its content (the reset
content, log entry 5), an unknown byte after (R133, R134, R414). The SECP's ROM holds bytes the spec does not give. -/
def unlisted (lost : List (Nat × Nat)) (a : Nat) : Byte :=
  let n := Tab.get (fun _ => 0) lost (memNo a)
  if memNo a = 102 then Config.romByte a else if n = 0 then 0 else Config.lostByte n a

/-- The check-bit state of a word nothing has written. -/
def unlistedEcc (lost : List (Nat × Nat)) (a : Nat) : Nat :=
  let n := Tab.get (fun _ => 0) lost (memNo a)
  if n = 0 then 0 else Config.lostEcc n a % 3

/-- What a byte of the external memory that nothing has written reads as. -/
def unlistedDdr (n a : Nat) : Byte := if n = 0 then 0 else Config.lostByte n (a + 2 ^ 40)

/-- The canonical form of the block's memories. -/
def Memory.wf (c : Chip) : Bool := Tab.wf (unlisted c.lost) c.mem && Tab.wf (unlistedDdr c.ddrLost) c.ddr

/-- Four bytes, the lowest first, as a word (R5). -/
def wordOf (b0 b1 b2 b3 : Byte) : Word := ((b3 ++ b2) ++ b1) ++ b0

/-- Byte `k` of a word. -/
def byteOf (w : Word) (k : Nat) : Byte := BitVec.ofNat 8 (w.toNat / 256 ^ k)

/-- `data` in the bytes of `mask`, `old` in the others. -/
def merge (old data : Word) (mask : Nat) : Word :=
  let pick := fun k => if bitAt mask k then byteOf data k else byteOf old k
  wordOf (pick 0) (pick 1) (pick 2) (pick 3)

/-- First address of engine window p. -/
def engBase (p : Nat) : Nat := 0x30000000 + p * 0x400000

/-- Address of delay word w. -/
def delayAddr (p w : Nat) : Nat := engBase p + 0x40000 + 4 * w

/-- Address of word w of physical coefficient bank b. -/
def coefAddr (p b w : Nat) : Nat := engBase p + 0x100000 + b * 0x20000 + 4 * w

/-- Address of relay-out word w. -/
def relayAddr (p w : Nat) : Nat := engBase p + 0x140000 + 4 * w

/-- Address of input relay word w. -/
def inputAddr (p w : Nat) : Nat := engBase p + 0x140400 + 4 * w

/-- Address of sense relay word w. -/
def senseAddr (p w : Nat) : Nat := engBase p + 0x141000 + 4 * w

/-- Address of serai word w. -/
def seraiAddr (w : Nat) : Nat := 0x20000000 + 4 * w

/-- Key of the zero tag of the word at address `a`, if it is a delay word. -/
def tagKey (a : Nat) : Nat := (a - 0x30000000) / 0x400000 * 2 ^ 18 + ((a - 0x30000000) % 0x400000 - 0x40000) / 4

/-- The address is a delay word's. -/
def isDelay (a : Nat) : Bool := decide (0x30000000 ≤ a) && memNo a % 8 == 1

namespace Chip

/-- A byte as the array holds it. -/
def byte (c : Chip) (a : Nat) : Byte := Tab.get (unlisted c.lost) c.mem a

/-- Write a byte of the array. -/
def setByte (c : Chip) (a : Nat) (b : Byte) : Chip := { c with mem := Tab.set (unlisted c.lost) c.mem a b }

/-- The word at aligned address `a` as the array holds it. -/
def raw (c : Chip) (a : Nat) : Word := wordOf (c.byte a) (c.byte (a + 1)) (c.byte (a + 2)) (c.byte (a + 3))

/-- A zero tag stands on the word (R124). -/
def tagged (c : Chip) (a : Nat) : Bool := isDelay a && Tab.get (fun _ => false) c.tags (tagKey a)

/-- The data of a word: 0 under a zero tag. -/
def peek (c : Chip) (a : Nat) : Word := if c.tagged a then 0 else c.raw a

/-- Check-bit state of a word: 0 good, 1 correctable, 2 uncorrectable. -/
def eccOf (c : Chip) (a : Nat) : Nat := Tab.get (unlistedEcc c.lost) c.ecc a

/-- Write it. -/
def setEcc (c : Chip) (a n : Nat) : Chip := { c with ecc := Tab.set (unlistedEcc c.lost) c.ecc a n }

/-- Write the four bytes of a word. -/
def setRaw (c : Chip) (a : Nat) (w : Word) : Chip :=
  (((c.setByte a (byteOf w 0)).setByte (a + 1) (byteOf w 1)).setByte (a + 2) (byteOf w 2)).setByte (a + 3) (byteOf w 3)

/-- Clear a word's zero tag. -/
def untag (c : Chip) (a : Nat) : Chip :=
  c.when (c.tagged a) fun c => { c with tags := Tab.set (fun _ => false) c.tags (tagKey a) false }

/-- A write has reached the word at `a`: a boot record that seals its region is no longer VALID (R406). -/
def breakSeal (c : Chip) (a : Nat) : Chip :=
  let n := memNo a
  let k := if n = 100 then 10 else if n < 80 ∧ n % 8 = 0 then n / 8 else 11
  c.when (c.bit F.SEC_REC_CTRL_VALID && bitAt c.sec.rec_.mask k) (·.setFld F.SEC_REC_CTRL_VALID 0)

/-- A write of the bytes of `mask` of a word: it clears the zero tag, merging into 0 (R124), it makes the check bits good
except that a partial write of an uncorrectable word leaves it so (R128), and it ends a pending ECC write-back. -/
def poke (c : Chip) (a : Nat) (mask : Nat) (data : Word) : Chip :=
  let c' := ((c.setRaw a (merge (c.peek a) data mask)).untag a).breakSeal a
  c'.when (mask == 15 || c.eccOf a != 2) fun c => c.setEcc a 0

/-- Write a whole word. -/
def pokeW (c : Chip) (a : Nat) (data : Word) : Chip := c.poke a 15 data

/-- Memory number `n` loses its content: its bytes and check bits are unknown from here on (R133, R134, R414). -/
def lose (c : Chip) (n : Nat) : Chip :=
  { c with
    lost := Tab.set (fun _ => 0) c.lost n (Tab.get (fun _ => 0) c.lost n + 1)
    mem := Tab.keep (fun a => memNo a != n) c.mem
    ecc := Tab.keep (fun a => memNo a != n) c.ecc
    tags := if n < 80 ∧ n % 8 = 1 then Tab.keep (fun k => k / 2 ^ 18 != n / 8) c.tags else c.tags }

/-- The external memory loses its content. -/
def loseDdr (c : Chip) : Chip := { c with ddrLost := c.ddrLost + 1, ddr := [] }

/-- A byte of external memory. -/
def ddrByte (c : Chip) (a : Nat) : Byte := Tab.get (unlistedDdr c.ddrLost) c.ddr a

/-- Write it. -/
def setDdrByte (c : Chip) (a : Nat) (b : Byte) : Chip := { c with ddr := Tab.set (unlistedDdr c.ddrLost) c.ddr a b }

/-- A word of external memory. -/
def ddrWord (c : Chip) (a : Nat) : Word :=
  wordOf (c.ddrByte a) (c.ddrByte (a + 1)) (c.ddrByte (a + 2)) (c.ddrByte (a + 3))

/-- Write the bytes of `mask` of an external word. -/
def pokeDdr (c : Chip) (a mask : Nat) (w : Word) : Chip :=
  (List.range 4).foldl (fun c k => c.when (bitAt mask k) (·.setDdrByte (a + k) (byteOf w k))) c

/-- Physical bank of an engine's front role (R156). -/
def frontBank (c : Chip) (p : Nat) : Nat := if c.fbit F.PAN_ROLE_FRONT p then 1 else 0

/-- Address of word `w` of the front role. -/
def frontAddr (c : Chip) (p w : Nat) : Nat := coefAddr p (c.frontBank p) w

/-- Address of word `w` of the pannier role. -/
def panAddr (c : Chip) (p w : Nat) : Nat := coefAddr p (1 - c.frontBank p) w

/-- A word of the frozen relay-out image of physical engine `p`. -/
def frozen (c : Chip) (p w : Nat) : Word := Tab.get (fun _ => 0) c.image (p * 256 + w)

/-- Set bit `i` of ENG_MEM_STATUS of engine `p`; event 32+p unless masked. -/
def memFlag (c : Chip) (p i : Nat) : Chip :=
  let f : Field := ⟨Reg.ENG_MEM_STATUS p, 5, 0⟩
  if c.fbit f i then c else (c.setFbit f i).when (!c.fbit (F.ENG_MEM_MASK_MASK p) i) (·.raise (32 + p))

/-- Set bits of FLAGS of core `k` (R60); on an engine a bit that changes from 0 to 1 unmasked raises event 32+k (R74). -/
def setFlags (c : Chip) (k flags : Nat) : Chip :=
  let f : Field := ⟨Reg.ENG_FLAGS k, 8, 0⟩
  let new := maskOff flags (c.fld f)
  (c.setFld f (c.fld f ||| flags)).when (decide (k < 10) && maskOff new (c.fld (F.ENG_FLAG_MASK_MASK k)) != 0)
    (·.raise (32 + k))

/-- The word of an engine memory was uncorrectable: ECC_UE, UE_CNT and ENG_ECC_ADDR (R128). -/
def recordUe (c : Chip) (p a : Nat) : Chip :=
  let off := (a - 0x30000000) % 0x400000
  let coef := decide (0x100000 ≤ off) && decide (off < 0x140000)
  let bank := if coef then (off - 0x100000) / 0x20000 else 0
  let off' := if coef then 0x100000 + (off - 0x100000) % 0x20000 else off
  (((c.memFlag p 4).bump (F.ENG_ECC_STATUS_UE_CNT p)).setFld (F.ENG_ECC_ADDR_OFFSET p) (off' / 4)).setFld
    (F.ENG_ECC_ADDR_CBANK p) bank

/-- The word of an engine memory was corrected: ECC_CE, CE_CNT, and its write-back is due (R128). -/
def recordCe (c : Chip) (p a : Nat) : Chip :=
  ((c.memFlag p 3).bump (F.ENG_ECC_STATUS_CE_CNT p)).modAux p fun x =>
    { x with fix := if x.fix.contains a then x.fix else a :: x.fix }

/-- The word of serai was uncorrectable. -/
def seraiUe (c : Chip) (a : Nat) : Chip :=
  (c.sticky F.SERAI_ECC_STATUS_UE 127).setFld F.SERAI_ECC_ADDR_OFFSET ((a - 0x20000000) / 4)

/-- The word of serai was corrected. -/
def seraiCe (c : Chip) (a : Nat) : Chip :=
  ((c.sticky F.SERAI_ECC_STATUS_CE 127).bump F.SERAI_ECC_STATUS_CE_CNT).setEcc a 0

end Chip


end Sys2Proof.Machine
end

