-- ==== Sys2Proof/Machine/Flags.lean ====
section
/-! DEFINITION. What the operations compute, as functions of their operand values, with the flags of R60 each result
sets: rounding to Q1.23 (R77), the A-class arithmetic and its edges (R79, R84 to R89), the X operations (R95 to R98). -/

namespace Sys2Proof.Machine

/-- Flag bits of R60. -/
def flagOv : Nat := 1
/-- GOV. -/
def flagGov : Nat := 2
/-- DZ. -/
def flagDz : Nat := 4
/-- BOUND. -/
def flagBound : Nat := 8
/-- UNDEF. -/
def flagUndef : Nat := 16
/-- WRAP. -/
def flagWrap : Nat := 32
/-- RSOVF. -/
def flagRsovf : Nat := 64
/-- RSUNF. -/
def flagRsunf : Nat := 128
/-- LATEW. -/
def flagLatew : Nat := 256

/-- int view of R76. -/
def intOf (w : Nat) : Int := sext w 32

/-- q23 view of R76 as the raw 24-bit integer. -/
def q23Of (w : Nat) : Int := sext (bits w 31 8) 24

/-- Rounding modes of R77: 0 TRUNC, 1 HALF_UP, else HALF_EVEN. -/
def roundAt (rm : Nat) (v : Int) : Int :=
  match rm with
  | 0 => v / 8388608
  | 1 => (v + 4194304) / 8388608
  | _ => rndEven v 8388608

/-- R77: rounding of a raw accumulator or p value to a Q1.23 word, with OV. -/
def roundQ23 (rm : Nat) (wrapIt : Bool) (v : Int) : Nat × Nat :=
  let s := roundAt rm v
  let t := if wrapIt then wrapI s 24 else satI s 24
  (natOf 32 (t * 256), if t = s then 0 else flagOv)

/-- A 32-bit sum, difference, negation or absolute value under R79: saturating or modular, OV when it overflows. -/
def arith32 (asat : Bool) (x : Int) : Nat × Nat :=
  if satI x 32 = x then (natOf 32 x, 0) else (natOf 32 (if asat then satI x 32 else x), flagOv)

/-- An accumulator result: modular 56-bit, GOV outside Q2.46 (R60, R78). -/
def acc56 (x : Int) : Nat × Nat :=
  let v := wrapI x 56
  (natOf 56 v, if satI v 48 = v then 0 else flagGov)

/-- Conditions of R86; codes 10 to 15 act as 0. -/
def condHolds (code a b : Nat) : Bool :=
  match code with
  | 1 => a != b
  | 2 => decide (intOf a < intOf b)
  | 3 => decide (intOf a ≤ intOf b)
  | 4 => decide (intOf b < intOf a)
  | 5 => decide (intOf b ≤ intOf a)
  | 6 => decide (a < b)
  | 7 => decide (a ≤ b)
  | 8 => decide (b < a)
  | 9 => decide (b ≤ a)
  | _ => a == b

/-- Shifts of R87 by kind 0 SHL, 1 SHR, 2 SRA, 3 ROR; `n` is the count field of six bits. -/
def shift32 (kind a n : Nat) : Nat :=
  match kind with
  | 0 => if n < 32 then a * 2 ^ n % 2 ^ 32 else 0
  | 1 => if n < 32 then a / 2 ^ n else 0
  | 2 => natOf 32 (intOf a / (2 ^ min n 31 : Nat))
  | _ => a / 2 ^ (n % 32) + a * 2 ^ (32 - n % 32) % 2 ^ 32

/-- ASH of R89 on a sign-extended source by the signed count of ten bits. -/
def ash56 (v : Int) (n : Int) : Nat × Nat :=
  if 0 ≤ n then
    let k := n.toNat % 64
    acc56 (if k < 56 then v * (2 ^ k : Nat) else 0)
  else
    let k := (-n).toNat % 64
    acc56 (v / (2 ^ min k 55 : Nat))

/-- Leading zero bits of a word. -/
def clz32 (a : Nat) : Nat := ((List.range 32).find? (fun i => bitAt a (31 - i))).getD 32

/-- EXT of R84. -/
def ext32 (kind a : Nat) : Nat :=
  match kind with
  | 0 => natOf 32 (sext a 8)
  | 1 => a % 256
  | 2 => natOf 32 (sext a 16)
  | _ => a % 65536

/-! ### Division (R96, R79) -/

/-- The result of a division by zero: by the dividend's sign. -/
def divZero (a : Int) : Nat := if 0 ≤ a then 0x7FFFFFFF else 0x80000000

/-- IDIV. -/
def idiv (asat : Bool) (a b : Nat) : Nat × Nat :=
  if b = 0 then (divZero (intOf a), flagDz) else arith32 asat (truncDiv (intOf a) (intOf b))

/-- IREM. -/
def irem (a b : Nat) : Nat × Nat :=
  if b = 0 then (a, flagDz) else (natOf 32 (intOf a - truncDiv (intOf a) (intOf b) * intOf b), 0)

/-- UDIV. -/
def udiv (a b : Nat) : Nat × Nat := if b = 0 then (0xFFFFFFFF, flagDz) else (a / b, 0)

/-- UREM. -/
def urem (a b : Nat) : Nat × Nat := if b = 0 then (a, flagDz) else (a % b, 0)

/-- FDIV. -/
def fdiv (asat : Bool) (a b : Nat) : Nat × Nat :=
  if b = 0 then (divZero (intOf a), flagDz)
  else if a = 0x80000000 ∧ b = 0x80000000 then arith32 asat (2 ^ 31)
  else arith32 true (truncDiv (intOf a * 2 ^ 31) (intOf b))

/-! ### Generators (R97) -/

/-- One shift of the Galois register. -/
def lfsr1 (n : Nat) : Nat := if n % 2 = 1 then (n / 2) ^^^ 0x80200003 else n / 2

/-- step_n: thirty-two shifts. -/
def stepN (n : Nat) : Nat := Nat.repeat lfsr1 32 n

/-- step_u: xorshift32. -/
def stepU (u : Nat) : Nat :=
  let a := u ^^^ (u * 8192 % 2 ^ 32)
  let b := a ^^^ (a / 131072)
  b ^^^ (b * 32 % 2 ^ 32)

/-- `m` steps of generator N, with the sum of the signed values each halved `h` times. -/
def noiseSum : Nat → Nat → Nat → Int → Nat × Int
  | 0, _, n, acc => (n, acc)
  | m + 1, h, n, acc => noiseSum m h (stepN n) (acc + intOf (stepN n) / (2 ^ h : Nat))

/-- NOISE: the new state and the result. -/
def noise (md n : Nat) : Nat × Nat :=
  let sum := fun m h => ((noiseSum m h n 0).1, natOf 32 (noiseSum m h n 0).2)
  if md = 1 then sum 2 1 else if md = 2 then sum 4 2 else (stepN n, stepN n)

/-! ### Interpolation (R98) -/

/-- An exact quotient rounded half-even to q31 and saturated. -/
def toQ31 (num : Int) (den : Nat) : Nat × Nat := arith32 true (rndEven num den)

/-- Catmull-Rom. -/
def catmull (ym y0 y1 y2 : Int) (f : Nat) : Nat × Nat :=
  let a := y1 - ym
  let b := 2 * ym - 5 * y0 + 4 * y1 - y2
  let d := 3 * (y0 - y1) + y2 - ym
  toQ31 (y0 * 2 ^ 97 + f * (a * 2 ^ 64 + f * (b * 2 ^ 32 + f * d))) (2 ^ 97)

/-- Product of the differences f - m over the nodes other than `j`, f in units of 2^-32. -/
def lagNum (nodes : List Int) (j : Int) (f : Nat) : Int :=
  nodes.foldl (fun p m => if m = j then p else p * ((f : Int) - m * 2 ^ 32)) 1

/-- Product of the differences j - m. -/
def lagDen (nodes : List Int) (j : Int) : Int := nodes.foldl (fun p m => if m = j then p else p * (j - m)) 1

/-- Lagrange interpolation over `nodes`; `d` is a common multiple of the denominators. -/
def lagrange (nodes ys : List Int) (d : Nat) (f : Nat) : Nat × Nat :=
  let s := (nodes.zip ys).foldl (fun t p => t + p.2 * ((d : Int) / lagDen nodes p.1) * lagNum nodes p.1 f) 0
  toQ31 s (d * 2 ^ (32 * (nodes.length - 1)))

/-- INTERP4 on y-1, y0, y1, y2. -/
def interp4 (md : Nat) (ym y0 y1 y2 : Nat) (f : Nat) : Nat × Nat :=
  if md = 1 then lagrange [-1, 0, 1, 2] [intOf ym, intOf y0, intOf y1, intOf y2] 6 f
  else if md = 2 then toQ31 (intOf y0 * 2 ^ 32 + f * (intOf y1 - intOf y0)) (2 ^ 32)
  else catmull (intOf ym) (intOf y0) (intOf y1) (intOf y2) f

/-- INTERP6 on y-2 to y3. -/
def interp6 (ys : List Nat) (f : Nat) : Nat × Nat :=
  lagrange [-2, -1, 0, 1, 2, 3] (ys.map intOf) 120 f

/-! ### Transcendentals (R95, R99)

The result is the value computed here in fixed point of 2^-60, moved by a deviation the spec leaves open
(`Config.tableDelta`) inside the bound of R99. -/

/-- A deviation of the table inside `bound`. -/
def dev (op md : Nat) (x : Nat) (bound : Int) : Int := clampI (-bound) bound (Config.tableDelta op md (BitVec.ofNat 32 x))

/-- ln 2 in units of 2^-60. -/
def ln2Fix : Nat := 0xB17217F7D1CF79A
/-- log2 e in units of 2^-60. -/
def log2eFix : Nat := 0x171547652B82FE17
/-- 2 pi in units of 2^-60. -/
def tauFix : Nat := 0x6487ED5110B4611A

/-- Sum of t^k / k! for k from `k` on, the term `term` being the k-th. -/
def expSeries : Nat → Nat → Nat → Nat → Nat → Nat
  | 0, _, _, _, acc => acc
  | fuel + 1, k, t, term, acc => expSeries fuel (k + 1) t (term * t / 2 ^ 60 / (k + 1)) (acc + term)

/-- 2^f for f in [0, 1), both in units of 2^-60. -/
def exp2Frac (f : Nat) : Nat := expSeries 24 0 (f * ln2Fix / 2 ^ 60) (2 ^ 60) 0

/-- Fraction bits of log2 of a mantissa m in [1, 2), by squaring. -/
def log2Bits : Nat → Nat → Nat → Nat
  | 0, _, acc => acc
  | fuel + 1, m, acc =>
    let q := m * m / 2 ^ 60
    if 2 ^ 61 ≤ q then log2Bits fuel (q / 2) (2 * acc + 1) else log2Bits fuel q (2 * acc)

/-- log2 of n > 0 in units of 2^-24. -/
def log2Fix (n : Nat) : Int :=
  let k := Nat.log2 n
  (k * 2 ^ 24 : Nat) + log2Bits 24 (n * 2 ^ 60 / 2 ^ k) 0

/-- LOG2. -/
def xLog2 (md a : Nat) : Nat × Nat :=
  if md = 1 then
    if a = 0 then (0x80000000, flagOv) else (natOf 32 (clampI 0 (32 * 2 ^ 24) (log2Fix a + dev 0 1 a 17)), 0)
  else
    let m := (intOf a).natAbs
    if m = 0 then (0x80000000, flagOv)
    else (natOf 32 (clampI (-31 * 2 ^ 24) 0 (log2Fix m - 31 * 2 ^ 24 + dev 0 0 a 17)), 0)

/-- 2^x in units of 2^-frac, x in Q8.24. -/
def exp2At (x : Int) (frac : Nat) : Nat :=
  let i := x / 2 ^ 24 + frac
  let m := exp2Frac (natOf 24 x * 2 ^ 36)
  if 0 ≤ i then m * 2 ^ i.toNat / 2 ^ 60 else m / 2 ^ ((-i).toNat + 60)

/-- EXP2. -/
def xExp2 (md a : Nat) : Nat × Nat :=
  let q31 := md == 1
  let x := intOf a
  if (if q31 then 0 else 7 * 2 ^ 24) ≤ x then (0x7FFFFFFF, flagOv)
  else
    let v := exp2At x (if q31 then 31 else 24)
    (natOf 32 (clampI 0 0x7FFFFFFF (v + dev 1 (if q31 then 1 else 0) a (v / 2 ^ 22 + 1 : Nat))), 0)

/-- Alternating series t - t^3/3! + ... (or 1 - t^2/2! + ...): `k` is the exponent of `term`. -/
def altSeries : Nat → Nat → Nat → Nat → Bool → Int → Int
  | 0, _, _, _, _, acc => acc
  | fuel + 1, k, t2, term, pos, acc =>
    altSeries fuel (k + 2) t2 (term * t2 / 2 ^ 60 / ((k + 1) * (k + 2))) (!pos) (if pos then acc + term else acc - term)

/-- Sine of a quarter turn's angle r in units of 2^-32 of a turn, r < 2^30, in units of 2^-60. -/
def sinQ (r : Nat) : Int :=
  let t := r * tauFix / 2 ^ 32
  altSeries 14 1 (t * t / 2 ^ 60) t true 0

/-- Cosine of the same. -/
def cosQ (r : Nat) : Int :=
  let t := r * tauFix / 2 ^ 32
  altSeries 14 0 (t * t / 2 ^ 60) (2 ^ 60) true 0

/-- Sine of an angle in units of 2^-32 of a turn. -/
def sinTurn (a : Nat) : Int :=
  match a / 2 ^ 30 % 4 with
  | 0 => sinQ (a % 2 ^ 30)
  | 1 => cosQ (a % 2 ^ 30)
  | 2 => -sinQ (a % 2 ^ 30)
  | _ => -cosQ (a % 2 ^ 30)

/-- A value in units of 2^-60 as q31 with the table's deviation; +1.0 as 0x7FFF_FFFF (R95). -/
def trigQ31 (op md a : Nat) (v : Int) : Nat :=
  natOf 32 (clampI (-2147483648) 2147483647 (v / 2 ^ 29 + dev op md a 257))

/-- Sine result of SINCOS. -/
def xSin (a : Nat) : Nat := trigQ31 2 0 a (sinTurn a)

/-- Cosine result of SINCOS. -/
def xCos (a : Nat) : Nat := trigQ31 3 0 a (sinTurn ((a + 2 ^ 30) % 2 ^ 32))

/-- TANH; the operand is in units of 2^-24 (MOD 0) or 2^-31 (MOD 1). -/
def xTanh (md a : Nat) : Nat :=
  let x := intOf a
  let y := 2 * x.natAbs * log2eFix / 2 ^ (if md = 1 then 31 else 24)
  let e := exp2Frac (2 ^ 60 - 1 - y % 2 ^ 60) / 2 ^ (y / 2 ^ 60 + 1)
  let v : Int := ((2 ^ 60 - e) * 2 ^ 60 / (2 ^ 60 + e) : Nat)
  trigQ31 4 (if md = 1 then 1 else 0) a (if x < 0 then -v else v)

end Sys2Proof.Machine
end

