-- ==== Sys2Proof/Machine/Operands.lean ====
section
/-! DEFINITION. Operand forms: register specifiers (R75), the register window (R58, R61), segments and their addressing
(R91, R117 to R123). -/

namespace Sys2Proof.Machine

/-- Entries of the physical file behind the window (R103). -/
def pfSize (k : Nat) : Nat := if k < 10 then 512 else if k = 10 then 128 else 64

/-- Accumulators a core has (R103). -/
def accCount (k : Nat) : Nat := if k < 10 then 4 else 2

/-- Index of general register `sp` of core `k`: 0 to 511 the physical file, 512 to 519 g, 520 to 523 x. -/
def gprIx (k : Nat) (core : Core) (sp : Nat) : Nat :=
  if sp < 8 then 512 + sp else if sp < 32 then (core.wb + (sp - 8)) % pfSize k else 520 + (sp - 32)

/-- The specifier names a general register. -/
def isGpr (sp : Nat) : Bool := decide (sp < 36)

/-- The specifier names an accumulator the core has. -/
def isAcc (k sp : Nat) : Bool := decide (36 ≤ sp) && decide (sp < 36 + accCount k)

/-- The specifier names a product register. -/
def isProd (sp : Nat) : Bool := sp == 40 || sp == 41

/-- The specifier names a special register. -/
def isSpecial (sp : Nat) : Bool := decide (48 ≤ sp) && decide (sp ≤ 54)

/-- General register by index. -/
def Core.gprAt (core : Core) (i : Nat) : Nat := (Tab.get (fun _ => (0 : Word)) core.gpr i).toNat

/-- Write it. -/
def Core.setGpr (core : Core) (i : Nat) (v : Nat) : Core :=
  { core with gpr := Tab.set (fun _ => (0 : Word)) core.gpr i (BitVec.ofNat 32 v) }

/-- General register by specifier. -/
def Core.rd (core : Core) (k sp : Nat) : Nat := core.gprAt (gprIx k core sp)

/-- An accumulator as A and L read it (R65), sign-extended. -/
def Core.accA (core : Core) (i : Nat) : Int := (Tab.get (fun _ => (0 : BitVec 56)) core.acc3 i).toInt

/-- An accumulator with every accumulation issued so far, as M forwards it. -/
def Core.accM (core : Core) (i : Nat) : Int := (Tab.get (fun _ => (0 : BitVec 56)) core.acc i).toInt

/-- Write an accumulator. -/
def Core.setAcc (core : Core) (i : Nat) (v : Nat) : Core :=
  { core with acc := Tab.set (fun _ => (0 : BitVec 56)) core.acc i (BitVec.ofNat 56 v) }

/-- A product register, sign-extended. -/
def Core.prodOf (core : Core) (i : Nat) : Int := (Tab.get (fun _ => (0 : BitVec 48)) core.prod i).toInt

/-- Write it. -/
def Core.setProd (core : Core) (i : Nat) (v : Nat) : Core :=
  { core with prod := Tab.set (fun _ => (0 : BitVec 48)) core.prod i (BitVec.ofNat 48 v) }

/-- Segment descriptor. -/
def Core.seg (core : Core) (i : Nat) : Seg := Tab.get (fun _ => {}) core.segs i

/-- Write it. -/
def Core.setSeg (core : Core) (i : Nat) (s : Seg) : Core := { core with segs := Tab.set (fun _ => {}) core.segs i s }

/-- All reads of accumulators see every accumulation, and reads of FLAGS every flag: so it stands once no bundle has
issued for three cycles. -/
def Core.flush (core : Core) : Core := { core with acc1 := core.acc, acc2 := core.acc, acc3 := core.acc, newFlags := 0 }

/-- CORE_ID (R59): the logical number of an engine (R188); a spare
in shadow computes what its source computes (R190). -/
def Chip.coreId (c : Chip) (k : Nat) : Nat := if k < 10 then c.actsAs k else k

/-- Special registers as the special move reads them (R59); a flag is seen one cycle after its result (R65). -/
def Chip.special (c : Chip) (k : Nat) (core : Core) (sp : Nat) : Nat :=
  match sp with
  | 48 => core.wb
  | 49 => core.repcnt
  | 50 => maskOff (c.fld ⟨Reg.ENG_FLAGS k, 8, 0⟩) core.newFlags
  | 51 => core.mode
  | 52 => c.coreId k
  | 53 => c.tick.stcl.toNat
  | _ => core.stack.length

/-! ### Segments -/

/-- MODE of a descriptor: 0 CIRC_HEAD, 1 CIRC_PTR, else LIN_BOUND. -/
def Seg.mode (s : Seg) : Nat := bits s.w0.toNat 31 30

/-- A circular mode. -/
def Seg.circ (s : Seg) : Bool := decide (s.mode < 2)

/-- ZOG. -/
def Seg.zog (s : Seg) : Bool := bits s.w0.toNat 29 29 == 1

/-- MEM. -/
def Seg.memCode (s : Seg) : Nat := bits s.w0.toNat 27 24

/-- BASE. -/
def Seg.base (s : Seg) : Nat := bits s.w0.toNat 17 0

/-- LENGTH as the circular modes use it: 0 acts as 1 (R119). -/
def Seg.clen (s : Seg) : Nat := max s.len.toNat 1

/-- STREAM. -/
def Seg.stream (s : Seg) : Nat := bits s.w3.toNat 11 0

/-- SRC_ENG. -/
def Seg.srcEng (s : Seg) : Nat := bits s.w3.toNat 19 16

/-- PTR as a number of its mode: signed in LIN_BOUND. -/
def Seg.ptrI (s : Seg) : Int := if s.circ then s.ptr.toNat else s.ptr.toInt

/-- PTR stored under the rules of R120. -/
def Seg.withPtr (s : Seg) (v : Int) : Seg :=
  { s with ptr := BitVec.ofInt 20 (if s.circ then v % (s.clen : Int) else v) }

/-- A post-modification (R68, R120). -/
def Seg.advance (s : Seg) (step : Int) : Seg := s.withPtr (s.ptrI + step)

/-- The index an offset reaches in the segment; none when out of range (R91, R119, R120). -/
def Seg.index (s : Seg) (off : Int) : Option Nat :=
  let i := s.ptrI + off
  if s.circ then some (i % (s.clen : Int)).toNat
  else if 0 ≤ i ∧ i < s.len.toNat then some i.toNat else none

/-- Descriptor words as SEGRD and the register-file window read them (R117). -/
def Seg.word (s : Seg) (w : Nat) : Nat :=
  match w with
  | 0 => s.w0.toNat
  | 1 => s.len.toNat + (if s.next.isSome then 2 ^ 31 else 0)
  | 2 => natOf 32 (sext s.ptr.toNat 20)
  | _ => s.w3.toNat

/-- The reserved bits of words 0 and 3 read 0 (R14). -/
def segMask (w : Nat) (v : Nat) : Word :=
  BitVec.ofNat 32 (v &&& (if w = 0 then 0xEF03FFFF else 0x000F0FFF))

/-- A write of descriptor word `w`; word 1 makes its value pending (R117, R122). A change to a circular mode brings PTR
into 0 to LENGTH - 1 (R120). -/
def Seg.write (s : Seg) (w v : Nat) : Seg :=
  match w with
  | 0 => let t := { s with w0 := segMask 0 v }; if t.circ && !s.circ then t.withPtr t.ptr.toInt else t
  | 1 => { s with next := some (BitVec.ofNat 18 v) }
  | 2 => s.withPtr (sext v 20)
  | _ => { s with w3 := segMask 3 v }

namespace Chip

/-- Tag the delay words `from`, `from + 1`, ... of an engine, `n` of them (R124), indices modulo the memory. -/
def tagWords (c : Chip) (p first n : Nat) : Chip :=
  let mark := fun t i => Tab.set (fun _ => false) t (p * 2 ^ 18 + (first + i) % 196608) true
  { c with tags := (List.range n).foldl mark c.tags }

/-- The pending length of segment `i` of engine `p` takes effect (R122 to R124). -/
def applyLength (c : Chip) (p i : Nat) : Chip :=
  let core := c.core p
  let s := core.seg i
  match s.next with
  | none => c
  | some n =>
    let s1 := { s with len := n, next := none }
    let s2 := if s.circ then s1.withPtr s.ptrI else s1
    (c.setCore p (core.setSeg i s2)).when (s.zog && s.memCode == 0 && decide (s.len.toNat < n.toNat))
      (·.tagWords p (s.base + s.len.toNat) (n.toNat - s.len.toNat))

/-- Every pending length of engine `p` takes effect. -/
def applyLengths (c : Chip) (p : Nat) : Chip := (List.range 16).foldl (fun c i => c.applyLength p i) c

/-- A write of a pending length: it waits for phase 0 in TICK, for the release in HELD, and takes effect at once in every
other state (R122). -/
def settleLength (c : Chip) (p i : Nat) : Chip :=
  if c.engState p = 4 ∨ c.engState p = 5 then c else c.applyLength p i

/-- CIRC_HEAD segments take PTR - 1 (R121). -/
def decrementHeads (c : Chip) (p : Nat) : Chip :=
  c.modCore p fun core => (List.range 16).foldl
    (fun core i => if (core.seg i).mode = 0 then core.setSeg i ((core.seg i).advance (-1)) else core) core

end Chip

end Sys2Proof.Machine
end

