-- ==== Sys2Proof/Machine/Control.lean ====
section
/-! DEFINITION. The event controller, traps and interrupts of the CP and SECP, mailboxes, bells, semaphores and reset
epochs (spec/14). -/

namespace Sys2Proof.Machine

/-! ### Masters (R328) -/

/-- SECP. -/
def mSecp : Nat := 0
/-- CP. -/
def mCp : Nat := 1
/-- Host over SPI. -/
def mSpi : Nat := 2
/-- Host over I2C. -/
def mI2c : Nat := 3
/-- USB vendor interface. -/
def mUsb : Nat := 4
/-- Tandem partner's CP. -/
def mPart : Nat := 5
/-- Debug access port. -/
def mDbg : Nat := 6
/-- Logical engine l. -/
def mEng (l : Nat) : Nat := 8 + l

/-- Master ID of a core: CP 10, SECP 11. -/
def coreMaster (k : Nat) : Nat := if k = 11 then mSecp else mCp

/-- Distance of the SECP's copy of a banked core register (R340). -/
def bankOf (k : Nat) : Nat := if k = 11 then 2 ^ 32 else 0

/-- A field in core k's copy. -/
def Field.bank (f : Field) (k : Nat) : Field := { f with reg := f.reg + bankOf k }

namespace Chip

/-! ### Events (R320, R324 to R326) -/

/-- Level at which event `e` is routed to core `k`: 0 not routed, values above 8 act as 8. -/
def evtLevel (c : Chip) (k e : Nat) : Nat :=
  min 8 (if k = 11 then c.fld (F.EVT_CFG_SECP_LVL e) else c.fld (F.EVT_CFG_CP_LVL e))

/-- The highest-priority pending event routed to core `k`: its level and number, level 0 for none (R320). -/
def topEvent (c : Chip) (k : Nat) : Nat × Nat :=
  (List.range 128).foldl
    (fun m e => if c.pends e ∧ m.1 < c.evtLevel k e then (c.evtLevel k e, e) else m) (0, 0)

/-- EVT_CLAIM as core `k` reads it. -/
def claim (c : Chip) (k : Nat) : Nat :=
  let (l, e) := c.topEvent k
  if l = 0 then 2 ^ 31 else l * 256 + e

/-- A pending event is routed to HOST_IRQ. -/
def hostPend (c : Chip) : Bool := (List.range 128).any fun e => c.pends e && c.bit (F.EVT_CFG_HOST e)

/-- RUNLVL of core `k`; values above 9 act as 9. -/
def runlvl (c : Chip) (k : Nat) : Nat := min 9 (c.fld (F.CORE_ESTAT_RUNLVL.bank k))

/-- The core may take the interrupt of its highest-priority event now (R320). -/
def interruptDue (c : Chip) (k : Nat) : Bool :=
  let core := c.core k
  c.bit (F.CORE_ESTAT_IE.bank k) && decide (c.runlvl k < (c.topEvent k).1) && core.xfer.isNone &&
    (!core.repOn || core.repI)

/-- EVWAIT ends: some routed pending event lies above RUNLVL (R324). -/
def evwaitOver (c : Chip) (k : Nat) : Bool := decide (c.runlvl k < (c.topEvent k).1)

/-! ### Epochs (R328) -/

/-- Release every semaphore of master `id` (R339). -/
def releaseAll (c : Chip) (id : Nat) : Chip :=
  (List.range 64).foldl (fun c k =>
    c.when (!c.bit (F.SEM_FREE k) && c.fld (F.SEM_OWNER k) == id) fun c =>
      (c.setFld (F.SEM_FREE k) 1).setFld (F.SEM_OWNER k) 0) c

/-- The epoch of master `id` increments. -/
def epochInc (c : Chip) (id : Nat) : Chip :=
  (c.setFld (F.EPOCH_EPOCH id) (c.fld (F.EPOCH_EPOCH id) + 1)).releaseAll id

/-! ### Traps (R321 to R324) -/

/-- Entry to a trap at level `n` (R321): resume address, event number. -/
def trapEnter (c : Chip) (k n resume evt : Nat) : Chip :=
  let core := c.core k
  let rep := if core.repOn then core.repcnt + 1 else 0
  let wb := (core.wb + 24) % pfSize k
  let fr : Nat := Reg.CORE_RSAVE n + bankOf k
  let ie := c.fld (F.CORE_ESTAT_IE.bank k)
  let save := c.runlvl k * 2 ^ 28 + ie * 2 ^ 27 + rep % 8192 * 2 ^ 14 + evt * 128 + core.wb % 128
  let c1 := (c.setReg (Reg.CORE_RPC n + bankOf k) (BitVec.ofNat 32 (resume / 2 * 2))).setReg fr (BitVec.ofNat 32 save)
  let c2 := (c1.setFld (F.CORE_ESTAT_RUNLVL.bank k) n).when (decide (wb < core.wb)) (·.setFlags k flagWrap)
  c2.setCore k { core with
    wb := wb, repOn := false, repcnt := if n = 9 then rep else 0, xfer := none
    pc := ((c.reg (Reg.CORE_VBASE + bankOf k)).toNat + 0x40 * n) % 2 ^ 32 }

/-- The registers of core `k` clear, as SOFT_RESET clears an engine's: MODE 2, generators 1 (R71, ENG_CTRL). -/
def clearCore (c : Chip) (k : Nat) : Chip := c.setCore k {}

/-- The banked core registers of core `k` return to their reset values. -/
def clearBank (c : Chip) (k : Nat) : Chip :=
  let lo := Reg.CORE_ESTAT + bankOf k
  let hi := Reg.CORE_RSAVE 9 + bankOf k
  { c with regs := Tab.keep (fun a => decide (a < lo) || decide (hi < a) || (a % 2 ^ 32 == Reg.CP_CTRL)) c.regs }

/-- The CP core is reset (R323, R328): `why` goes to CP_CTRL.LAST. -/
def cpReset (c : Chip) (why : Nat) : Chip :=
  let c1 := ((c.clearCore 10).clearBank 10).setReg (Reg.ENG_FLAGS 10) 0
  let c2 := (c1.modCore 10 fun x => { x with pc := (c.auxOf 10).entry }).modAux 10 fun a =>
    { a with run := if a.run = .stopped then .stopped else .running }
  (c2.epochInc mCp).setFld F.CP_CTRL_LAST why

/-- The SECP double-faults (R411): before hand-over the ROM restarts, after it the SECP halts. -/
def secpReset (c : Chip) : Chip :=
  let c1 := (((c.clearCore 11).clearBank 11).setReg (Reg.ENG_FLAGS 11) 0).epochInc mSecp
  let c2 := (c1.modAux 11 fun a => { a with run := .stopped }).setFld F.MB_LOCK_LOCK 0
  if c.bit F.SEC_CTRL_KEY_LOCK then
    (c2.setFld F.SEC_BOOT_STATUS_SECP_HALT 1).sticky F.SEC_EVT_FWFAIL 124
  else { c2.setFld F.SEC_BOOT_STATUS_DF_CNT (min 2 (c.fld F.SEC_BOOT_STATUS_DF_CNT + 1)) with
    sec := { c2.sec with romDue := true, woke := false, open_ := false } }

/-- A fault of core `k` (R319, R323): level 9, or a double fault. -/
def coreFault (c : Chip) (k cause eaddr resume : Nat) : Chip :=
  let c1 := (c.setFld (F.CORE_ECAUSE_CAUSE.bank k) cause).setReg (Reg.CORE_EADDR + bankOf k) (BitVec.ofNat 32 eaddr)
  if c.runlvl k = 9 then (if k = 10 then c1.cpReset 2 else c1.secpReset)
  else
    c1.trapEnter k 9 resume 0

/-- The interrupt of the highest-priority event (R320, R321), where it may be taken. -/
def takeInterrupt (c : Chip) (k : Nat) : Chip :=
  if c.interruptDue k then
    let (l, e) := c.topEvent k
    (c.trapEnter k l (c.core k).pc e).modAux k fun a => { a with run := .running }
  else c

/-- RESUME at a level above 0 (R322); at level 0 it is undefined, which the issue decides. -/
def resumeFrom (c : Chip) (k : Nat) : Chip :=
  let n := c.runlvl k
  let core := c.core k
  let fr := (c.reg (Reg.CORE_RSAVE n + bankOf k)).toNat
  let wb := bits fr 6 3 * 8 % pfSize k
  let rep := bits fr 26 14
  let c1 := ((c.setFld (F.CORE_ESTAT_IE.bank k) (bits fr 27 27)).setFld (F.CORE_ESTAT_RUNLVL.bank k) (min 9 (bits fr 31 28)))
  (c1.when (decide (core.wb < wb)) (·.setFlags k flagWrap)).setCore k
    { core with
      wb := wb, repOn := decide (0 < rep), repI := decide (0 < rep), repcnt := rep - 1, xfer := none
      pc := (c.reg (Reg.CORE_RPC n + bankOf k)).toNat }

/-! ### Mailboxes (R329 to R336) -/

/-- The device is in recovery boot. -/
def recovery (c : Chip) : Bool := c.fld F.SEC_BOOT_STATUS_PATH == 2

/-- Master `id` is a receiver of mailbox `m` (R329). -/
def receives (c : Chip) (m id : Nat) : Bool :=
  if m = 0 ∧ c.recovery then id == mSecp
  else if m < 4 then id == mCp
  else if m < 8 then id == mSpi || id == mI2c || (m == 4 && c.recovery && id == mUsb)
  else if m < 10 then id == mSecp
  else if m < 12 then id == mCp
  else if m < 14 then id == mPart
  else if m < 18 then id == mCp
  else if m < 20 then id == mUsb
  else id == mCp

/-- Master `id` is in MB_ACLm; bit 7 is ignored. -/
def listed (c : Chip) (m id : Nat) : Bool := id != 7 && c.fbit (F.MB_ACL_SENDERS m) id

/-- Current epoch of the receiver of mailbox `m` (R334). -/
def recvEpoch (c : Chip) (m : Nat) : Nat :=
  let e := fun i => c.fld (F.EPOCH_EPOCH i)
  if m = 0 ∧ c.recovery then e mSecp
  else if m < 4 then e mCp
  else if m < 8 then (e mSpi + e mI2c) % 256
  else if m < 10 then e mSecp
  else if m < 12 then e mCp
  else if m < 14 then e mPart
  else if m < 18 then e mCp
  else if m < 20 then e mUsb
  else e mCp

/-- Domain of the receiver of mailbox `m`: 10 CP, 11 SECP, 18 for receivers that are never woken (R333). -/
def recvDom (c : Chip) (m : Nat) : Nat :=
  if m = 0 ∧ c.recovery then 11
  else if m < 4 then 10
  else if m < 8 then 18
  else if m < 10 then 11
  else if m < 12 then 10
  else if m < 14 then 18
  else if m < 18 then 10
  else if m < 20 then 18
  else 10

/-- State of mailbox `m`: 0 IDLE, 1 POSTED, 2 ACKED. -/
def mbState (c : Chip) (m : Nat) : Nat := c.fld (F.MB_STATUS_STATE m)

/-- The result of the last GO of master `id` on mailbox `m`. -/
def setGores (c : Chip) (m id v : Nat) : Chip := c.setReg (Reg.MB_GORES m + id * 2 ^ 32) (BitVec.ofNat 32 v)

/-- A refused GO. -/
def mbRefuse (c : Chip) (m id v : Nat) : Chip := (c.setGores m id v).sticky (F.MB_STATUS_REJECT m) m

/-- The message of mailbox `m` is posted by master `id` (R330, R333). -/
def mbPost (c : Chip) (m id : Nat) : Chip :=
  let d := c.recvDom m
  let stamp := id * 2 ^ 24 + c.fld (F.EPOCH_EPOCH id) * 2 ^ 16 + c.recvEpoch m * 2 ^ 8
  let c1 := (((c.setFld (F.MB_STATUS_STATE m) 1).setFld (F.MB_STATUS_TIMEOUT m) 0).setReg (Reg.MB_STAMP m)
    (BitVec.ofNat 32 stamp)).setReg (Reg.MB_POST_TICK m) (BitVec.ofNat 32 c.now)
  ((c1.setGores m id 1).raise m).when (!c.domOn d) fun c =>
    { c.setFld (F.MB_STATUS_WAKE m) 1 with mbWake := withBit c.mbWake d }

/-- GO by master `id` (R330). -/
def mbGo (c : Chip) (m id : Nat) : Chip :=
  if !c.listed m id then c.mbRefuse m id 2
  else if c.mbState m ≠ 0 then c.mbRefuse m id 3
  else c.mbPost m id

/-- ACK by master `id` with return code `rc`. -/
def mbAck (c : Chip) (m id rc : Nat) : Chip :=
  if c.receives m id ∧ c.mbState m = 1 then
    ((c.setFld (F.MB_STATUS_STATE m) 2).setFld (F.MB_ACK_RC m) rc).raise m
  else c

/-- WITHDRAW by master `id`. -/
def mbWithdraw (c : Chip) (m id : Nat) : Chip :=
  if c.fld (F.MB_STAMP_SENDER m) = id ∧ c.mbState m = 1 then
    c.setFld (F.MB_STATUS_STATE m) 0
  else c

/-- CLEAR by master `id`. -/
def mbClear (c : Chip) (m id : Nat) : Chip :=
  if c.listed m id ∧ c.mbState m = 2 then c.setFld (F.MB_STATUS_STATE m) 0 else c

/-- EPOCH_INC by master `id`: IDs 2 to 4 only. -/
def mbEpochInc (c : Chip) (id : Nat) : Chip := if 2 ≤ id ∧ id ≤ 4 then c.epochInc id else c

/-- A write of MB_CTRL (R330, R331). -/
def writeMbCtrl (c : Chip) (m id v : Nat) : Chip :=
  (((c.when (bitAt v 28) (·.mbEpochInc id)).when (bitAt v 30) (·.mbWithdraw m id)).when (bitAt v 29)
    (·.mbClear m id)).when (bitAt v 31) (·.mbGo m id)

/-- A write of MB_DATA word `k`. -/
def writeMbData (c : Chip) (m id k : Nat) (v : Word) : Chip :=
  if c.listed m id ∧ c.mbState m ≠ 1 then c.setReg (Reg.MB_DATA m k) v else c

/-- MB_DATA is readable by the receiver, listed senders and the debug port; others read 0. -/
def mbReadable (c : Chip) (m id : Nat) : Bool := c.receives m id || c.listed m id || id == mDbg

/-- The timeout counter of mailbox `m` reaches UNITS (R332). -/
def mbTimeout (c : Chip) (m : Nat) : Chip :=
  if c.mbState m = 1 ∧ c.fld (F.MB_TIMEOUT_UNITS m) ≠ 0 ∧ !c.bit (F.MB_STATUS_WAKE m) then
    c.sticky (F.MB_STATUS_TIMEOUT m) m
  else c

/-- MB_STATUS as it reads: EPOCH_STALE and ACKED_STALE are compared live (R334). -/
def mbStatusWord (c : Chip) (m : Nat) : Nat :=
  let st := c.mbState m
  let stale := st != 0 && c.recvEpoch m != c.fld (F.MB_STAMP_R_EPOCH m)
  let acked := st == 2 && c.fld (F.EPOCH_EPOCH (c.fld (F.MB_STAMP_SENDER m))) != c.fld (F.MB_STAMP_S_EPOCH m)
  (c.reg (Reg.MB_STATUS m)).toNat + (if acked then 64 else 0) + (if stale then 32 else 0)

/-- ENGINE_POST (R336): the flagged block of DIAG slot `i` from the frozen image; `publishes` says whether a physical
engine's image may post. -/
def enginePost (publishes : Nat → Bool) (c : Chip) (i : Nat) : Chip :=
  let l := c.fld (F.MB_DIAG_CFG_ENG i)
  let p := c.phys l
  let w := 16 * c.fld (F.MB_DIAG_CFG_BASE i)
  if c.bit (F.MB_DIAG_CFG_EN i) ∧ l < 10 ∧ publishes p ∧ bitAt (c.frozen p w).toNat 31 then
    if c.listed (20 + i) (mEng l) ∧ c.mbState (20 + i) = 0 then
      ((List.range 16).foldl (fun c k => c.setReg (Reg.MB_DATA (20 + i) k) (c.frozen p (w + k))) c).mbPost (20 + i) (mEng l)
    else (c.mbGo (20 + i) (mEng l)).bump (F.MB_DIAG_CFG_DROP_CNT i)
  else c

/-! ### Bells (R337) and semaphores (R338, R339) -/

/-- Ring the bells of `mask` in group `g`. -/
def bellRing (c : Chip) (g mask : Nat) : Chip :=
  let new := maskOff mask (c.fld (F.BELL_BELL g))
  (c.setFld (F.BELL_BELL g) (c.fld (F.BELL_BELL g) ||| mask)).when (new &&& c.fld (F.BELL_MASK g) != 0) (·.raise (24 + g))

/-- Clear the bells of `mask` in group `g`. -/
def bellClear (c : Chip) (g mask : Nat) : Chip := c.setFld (F.BELL_BELL g) (maskOff (c.fld (F.BELL_BELL g)) mask)

/-- A read of SEMk by master `id`: the word read and what becomes of the semaphore (R338). -/
def semRead (c : Chip) (k id : Nat) : Word × Chip :=
  let owner := c.fld (F.SEM_OWNER k)
  if c.bit (F.SEM_FREE k) then
    if id = mDbg then (0x80000000, c)
    else (BitVec.ofNat 32 (2 ^ 31 + id), (c.setFld (F.SEM_FREE k) 0).setFld (F.SEM_OWNER k) id)
  else if owner = id ∨ id = mDbg then (BitVec.ofNat 32 owner, c)
  else (BitVec.ofNat 32 owner, (c.sticky F.SEM_STATUS_CONT 119).bump F.SEM_STATUS_CONT_CNT)

/-- Semaphore `k` becomes free. -/
def semFree (c : Chip) (k : Nat) : Chip := (c.setFld (F.SEM_FREE k) 1).setFld (F.SEM_OWNER k) 0

/-- A write of SEM_REL by master `id` (R339). -/
def writeSemRel (c : Chip) (id v : Nat) : Chip :=
  let k := bits v 5 0
  let own := bitAt v 31 && !c.bit (F.SEM_FREE k) && c.fld (F.SEM_OWNER k) == id
  c.when (own || (bitAt v 30 && id == mSecp)) (·.semFree k)

end Chip

end Sys2Proof.Machine
end

