-- ==== Sys2Proof/Machine/Streamer.lean ====
section
/-! DEFINITION. The outrider streamer and the external memory (spec/06): stream descriptors, the command queue, positions
and control values, planning, bursts, the views the engines read, and LPDDR training. -/

namespace Sys2Proof.Machine

/-- Descriptor word. -/
def dword (d : List (Nat × Word)) (k : Nat) : Nat := (Tab.get (fun _ => (0 : Word)) d k).toNat

/-- KIND of a descriptor: 0 off, 1 tap, 2 playback, 3 writer (R139). -/
def dKind (d : List (Nat × Word)) : Nat := bits (dword d 0) 31 30

/-- FMT, 3 acting as 0. -/
def dFmt (d : List (Nat × Word)) : Nat := bits (dword d 0) 29 28 % 3

/-- Bytes of an external sample. -/
def fmtBytes (f : Nat) : Nat := match f with | 1 => 3 | 2 => 2 | _ => 4

/-- GUARD. -/
def dGuard (d : List (Nat × Word)) : Bool := bits (dword d 0) 27 27 == 1

/-- LOOP. -/
def dLoop (d : List (Nat × Word)) : Bool := bits (dword d 0) 26 26 == 1

/-- OWNER, a logical engine. -/
def dOwner (d : List (Nat × Word)) : Nat := bits (dword d 0) 25 22

/-- K, the samples of a view. -/
def dK (d : List (Nat × Word)) : Nat := if dKind d = 3 then 1 else bits (dword d 0) 20 18 + 1

/-- PRE. -/
def dPre (d : List (Nat × Word)) : Nat := bits (dword d 0) 17 15

/-- MARGIN. -/
def dMargin (d : List (Nat × Word)) : Nat := bits (dword d 0) 14 12

/-- LINE. -/
def dLine (d : List (Nat × Word)) : Nat := bits (dword d 0) 11 0

/-- LB_BASE. -/
def dLb (d : List (Nat × Word)) : Nat := bits (dword d 1) 21 0

/-- Ring size in words: 64 for a writer (R144), 16 × RING16 for a reader (R146). -/
def dRing (d : List (Nat × Word)) : Nat := if dKind d = 3 then 64 else 16 * bits (dword d 1) 31 22

/-- External byte address. -/
def dExt (d : List (Nat × Word)) : Nat := bits (dword d 3) 1 0 * 2 ^ 32 + dword d 2

/-- LENGTH or END. -/
def dLen (d : List (Nat × Word)) : Nat := bits (dword d 4) 30 0

/-- LSTART. -/
def dStart (d : List (Nat × Word)) : Nat := bits (dword d 5) 30 0

/-- The view size of R150. -/
def viewSize (d : List (Nat × Word)) : Nat := if dKind d = 3 then 1 else dK d + 1

namespace Chip

/-- Stream `s`. -/
def stream (c : Chip) (s : Nat) : Stream := Tab.get (fun _ => {}) c.strm.streams s

/-- Write it. -/
def setStream (c : Chip) (s : Nat) (v : Stream) : Chip :=
  { c with strm := { c.strm with streams := Tab.set (fun _ => {}) c.strm.streams s v } }

/-- Change it. -/
def modStream (c : Chip) (s : Nat) (f : Stream → Stream) : Chip := c.setStream s (f (c.stream s))

/-- The streams that are listed, in order of index. -/
def streamIxs (c : Chip) : List Nat := c.strm.streams.map (·.1)

/-- STRM_CFG.WINDOW with its clamped values. -/
def window (c : Chip) : Nat := max 4 (min 1024 (c.fld F.STRM_CFG_WINDOW))

/-- Installed capacity in bytes. -/
def ddrSize (c : Chip) : Nat :=
  (match bits c.strm.cfg.toNat 9 8 with | 0 => 2 | 1 => 4 | _ => 8) * 2 ^ 30

/-- CAP of R149 with the derating of R137. -/
def burstCap (c : Chip) : Nat :=
  if !c.bit F.DDR_STATUS_READY then 0
  else
    let mts := match bits c.strm.cfg.toNat 1 0 with | 0 => 3200 | 1 => 4267 | 2 => 5500 | _ => 6400
    let cap := mts * 25000 / fsHz c.rate
    if c.bit F.DDR_STATUS_DERATE then cap * 9 / 10 else cap

end Chip

/-- A stream that is running: a tap or writer, or a started playback (STRM_STATE.RUN). -/
def Stream.running (x : Stream) : Bool := dKind x.d2 == 1 || dKind x.d2 == 3 || x.started

/-- The offset limits of a tap (R145). -/
def tapLimits (w : Nat) (tap line : List (Nat × Word)) : Int × Int :=
  ((w + dPre tap + dMargin tap + 17 + (if dFmt line = 2 then 16 else 0) : Nat),
    (dLen line : Int) - dK tap + dPre tap - dMargin tap)

/-! ### Control values and positions (R143, R145) -/

/-- The control value of a descriptor with relay word `m`. -/
def controlOf (d : List (Nat × Word)) (m : Nat) : Int :=
  let modOn := bits (dword d 0) 21 21 == 1
  if dKind d = 1 then
    ((bits (dword d 6) 30 0 * 2 ^ 32 + dword d 7 : Nat) : Int) + (if modOn then sext m 32 * 2 ^ 20 else 0)
  else if dKind d = 2 then
    clampI (-(2 ^ 31)) (2 ^ 31) (truncDiv (sext (dword d 6) 32 * ((if modOn then m else 2 ^ 28) : Nat)) (2 ^ 28))
  else 0

namespace Chip

/-- The relay word MOD_WORD of engine MOD_ENG in the frozen image (R143). -/
def modWord (c : Chip) (d : List (Nat × Word)) : Nat :=
  let e := bits (dword d 3) 23 20
  if e < 10 then (c.frozen (c.phys e) (bits (dword d 3) 31 24)).toNat else 0

/-- Integer position of a tap for head `h` and offset value `d` (R145), and whether it is clamped. -/
def tapPos (c : Chip) (tap : List (Nat × Word)) (h d : Int) : Int × Bool :=
  let (lo, hi) := tapLimits c.window tap (c.stream (dLine tap)).d0
  let f := d / 2 ^ 32
  (clampI lo hi f + h, clampI lo hi f != f)

end Chip

/-- The stored sample a playback position reads: none for a position that reads 0 (R145). -/
def playIx (d : List (Nat × Word)) (q : Int) : Option Nat :=
  let e : Int := dLen d
  let s : Int := dStart d
  if dLoop d ∧ e ≤ q then (if s < e then some (s + (q - s) % (e - s)).toNat else none)
  else if q < 0 ∨ e ≤ q then none
  else some q.toNat

namespace Chip

/-- External byte address of the sample at position `q` of a reader, and its format; none where it reads 0. -/
def extAt (c : Chip) (d : List (Nat × Word)) (q : Int) : Option (Nat × Nat) :=
  if dKind d = 1 then
    let l := (c.stream (dLine d)).d2
    if dLen l = 0 then none else some (dExt l + (q % (dLen l : Int)).toNat * fmtBytes (dFmt l), dFmt l)
  else (playIx d q).map fun i => (dExt d + i * fmtBytes (dFmt d), dFmt d)

/-- A sample read from external memory as a Q1.23 word (R140, R146). -/
def extSample (c : Chip) (a fmt : Nat) : Word :=
  let b := fun i => (c.ddrByte (a + i)).toNat
  BitVec.ofNat 32 <|
    match fmt with
    | 1 => (b 0 + b 1 * 256 + b 2 * 65536) * 256
    | 2 => (b 0 + b 1 * 256) * 65536
    | _ => (b 1 + b 2 * 256 + b 3 * 65536) * 256

/-- Serai address of the ring word of position `q`. -/
def ringAddr (_c : Chip) (d : List (Nat × Word)) (q : Int) : Nat :=
  seraiAddr (dLb d + (if dKind d = 3 then 0 else 16) + (q % (max (dRing d) 1 : Nat)).toNat)

/-! ### Commands (R141, R142, R152) -/

/-- Why a LOAD is rejected; the lowest reason that holds (log entry 20). -/
def loadReject (c : Chip) (s : Nat) (d : List (Nat × Word)) : Nat :=
  let old := c.stream s
  let k := dKind d
  let named := c.strm.streams.any fun p => dKind p.2.d2 == 1 && dLine p.2.d2 == s
  let line := (c.stream (dLine d)).d2
  let bytes := fmtBytes (dFmt d)
  let lims := tapLimits c.window d line
  if !c.bit F.DDR_STATUS_READY then 1
  else if k != 0 && decide (9 < dOwner d) then 2
  else if (k == 1 && dKind line != 3) || (k == 0 && dKind old.d2 == 3 && named) then 3
  else if k != 0 && (dLb d % 16 != 0 || (k == 3 && dExt d % 64 != 0)) then 4
  else if (decide (2 ≤ k) && decide (c.ddrSize < dExt d + dLen d * bytes)) ||
      (k != 0 && decide (2 ^ 22 < dLb d + (if k = 3 then 64 else 16 + dRing d))) then 5
  else if ((k == 1 || k == 2) && (decide (dK d ≤ dPre d) || decide (dRing d < 64))) ||
      (k == 3 && (dLen d == 0 || dLen d % 32 != 0 || dFmt d == 1)) ||
      (k == 2 && dLoop d && decide (dLen d ≤ dStart d)) || (k == 1 && decide (lims.2 < lims.1)) then 6
  else if old.running && k != 0 && k != dKind old.d2 then 7
  else 0

/-- A rejected command (R142). -/
def strmReject (c : Chip) (s why : Nat) : Chip :=
  ((c.setFld F.STRM_REJ_REASON why).setFld F.STRM_REJ_STREAM s).sticky F.STRM_STATUS_REJECT 99

/-- Fields a LOAD of a running reader may change without emptying the landing buffer (R141). -/
def sameGeometry (a b : List (Nat × Word)) : Bool :=
  (List.range 6).all fun k =>
    let m := if k = 0 then 0xF7DFFFFF else if k = 3 then 0x000FFFFF else 0xFFFFFFFF
    dword a k &&& m == dword b k &&& m

/-- Install a descriptor (R141): with the streamer stopped in all ticks at once, else from tick n+2 on. -/
def strmInstall (c : Chip) (s : Nat) (d : List (Nat × Word)) : Chip :=
  let old := c.stream s
  let keep := old.running && dKind d == dKind old.d2 && sameGeometry d old.d2
  let base : Stream :=
    if keep then { old with d2 := d }
    else { old with d2 := d, landed := [], ready := false, lo := 0, hi := -1, ended := false
                    started := old.started && dKind d == 2
                    startAt := none, stopAt := none, primed := false, missed := false
                    head := if dKind d = 3 then dStart d else 0 }
  let ctl := controlOf d (c.modWord d)
  let now := if c.bit F.STRM_CFG_EN then base else { base with d0 := d, d1 := d, c0 := ctl, c1 := ctl, c2 := ctl }
  ((c.setStream s now).when (!keep && (dKind d == 1 || dKind d == 2)) (·.pokeW (seraiAddr (dLb d)) 0))

/-- Word 5 of a writer as READ returns it: the line index of its head. -/
def strmReadBack (c : Chip) (s : Nat) : Chip :=
  let x := c.stream s
  (List.range 8).foldl (fun c k => c.setReg (Reg.STRM_D k) (BitVec.ofNat 32 <|
    if k = 5 ∧ dKind x.d2 = 3 then (x.head % (max (dLen x.d2) 1 : Nat)).toNat else dword x.d2 k)) c

/-- START or STOP named a tick too close. -/
def strmLate (c : Chip) (late : Bool) : Chip := c.when late (·.sticky F.STRM_STATUS_START_LATE 99)

/-- One command takes effect (R141). -/
def strmDo (c : Chip) (q : StrmCmd) : Chip :=
  let x := c.stream q.stream
  let soon := c.now + 2
  let t := max q.at_ soon
  match q.op with
  | 1 =>
    let d := (List.range 8).zip q.words
    let why := c.loadReject q.stream d
    if why = 0 then c.strmInstall q.stream d else c.strmReject q.stream why
  | 2 => c.strmReadBack q.stream
  | 3 =>
    if dKind x.d2 ≠ 2 then c.strmReject q.stream 8
    else (c.setStream q.stream { x with startAt := some t }).strmLate (decide (q.at_ < soon))
  | 4 =>
    if dKind x.d2 ≠ 2 then c.strmReject q.stream 8
    else
      let x' := match x.startAt with
        | some u => if t ≤ u then { x with startAt := none } else { x with stopAt := some t }
        | none => { x with stopAt := some t }
      (c.setStream q.stream x').strmLate (decide (q.at_ < soon))
  | _ => c.setStream q.stream { x with missCnt := 0 }

/-- A write of OP to STRM_CMD (R141): queued in a 64-entry queue, or done at once while the streamer is stopped. -/
def strmCommand (c : Chip) (op : Nat) : Chip :=
  let q : StrmCmd := ⟨op, c.fld F.STRM_SEL_STREAM, (List.range 8).map fun k => c.reg (Reg.STRM_D k),
    c.reg64 Reg.STRM_AT_LO Reg.STRM_AT_HI⟩
  if op = 0 ∨ 5 < op then c
  else if !c.bit F.STRM_CFG_EN then c.strmDo q
  else if 64 ≤ c.strm.queue.length then c.sticky F.STRM_STATUS_CMD_OVF 99
  else { c with strm := { c.strm with queue := c.strm.queue ++ [q] } }

/-! ### Phase 0 (R144, R145, R151, R152) -/

/-- The owner of stream `x` executes phase 1 in this tick. -/
def ownerRuns (c : Chip) (x : Stream) : Bool :=
  !c.tick.skipped && c.inTick (c.phys (dOwner x.d0)) && !c.held (c.phys (dOwner x.d0))

/-- The window of position `i` has landed. -/
def windowLanded (x : Stream) (d : List (Nat × Word)) (i : Int) : Bool :=
  (List.range (dK d)).all fun (k : Nat) => x.landed.contains (i - dPre d + k)

/-- A stream delivers a guard value: one miss in this tick (R151). -/
def strmMiss (c : Chip) (s : Nat) : Chip :=
  let x := c.stream s
  if x.missed then c
  else
    (((c.setStream s { x with missed := true, missCnt := min (x.missCnt + 1) 65535 }).bump F.STRM_MISS_TOTAL_COUNT).setReg
      Reg.STRM_LAST_MISS (BitVec.ofNat 32 s)).sticky F.STRM_STATUS_MISS 92

/-- The descriptor and control value of the new tick come into force, starts and stops due take effect, a playback
advances (R141, R143, R145, R152). -/
def strmShift (c : Chip) (s : Nat) : Chip :=
  let t := c.now
  c.modStream s fun x =>
    let p := if x.started then x.p + x.c0 else x.p
    let x := { x with d0 := x.d1, d1 := x.d2, c0 := x.c1, c1 := x.c2, stored := false, moved := false, missed := false
                      p := p, pos := BitVec.ofInt 64 x.head }
    let x := match x.stopAt with
      | some u => if u ≤ t then { x with started := false, ended := false, p := 0, stopAt := none } else x
      | none => x
    match x.startAt with
    | some u => if u ≤ t then { x with started := true, ended := false, ready := false, p := 0, startAt := none } else x
    | none => x

/-- A writer's head decrements where its owner executes phase 1 (R144); a queued block whose ring word is now reused is
lost. -/
def strmHead (c : Chip) (s : Nat) : Chip :=
  let x := c.stream s
  if dKind x.d0 = 3 ∧ c.ownerRuns x then
    let h := x.head - 1
    let n : Int := if dFmt x.d0 = 2 then 32 else 16
    let dead := fun (b : Burst) => b.stream == s &&
      (match b.drain with | some q => decide (q ≤ h + 64) && decide (h + 64 < q + n) | none => false)
    let c1 := c.setStream s { x with head := h, moved := true }
    if c1.strm.bursts.any dead then
      { c1 with strm := { c1.strm with bursts := c1.strm.bursts.filter (!dead ·) } }.sticky F.STRM_STATUS_WR_OVR 98
    else c1
  else c

/-- The position of this tick of reader `s`: FRAC, i, whether a tap is clamped. -/
def strmPlace (c : Chip) (s : Nat) : Chip :=
  let x := c.stream s
  if dKind x.d0 = 1 then
    let l := c.stream (dLine x.d0)
    let h := l.head - (if dKind l.d0 = 3 ∧ c.ownerRuns l then 1 else 0)
    let (i, cl) := c.tapPos x.d0 h x.c0
    (c.setStream s { x with i := i, frac := BitVec.ofInt 32 x.c0, clamped := cl, pos := BitVec.ofInt 64 i }).when cl
      (·.sticky F.STRM_STATUS_OFFCLAMP 99)
  else if dKind x.d0 = 2 then
    c.setStream s { x with i := x.p / 2 ^ 28, frac := BitVec.ofInt 32 (x.p * 16), clamped := false, pos := BitVec.ofInt 64 x.p }
  else c

/-- A one-shot playback has ended: its whole window lies at or beyond END or below 0 (R145). -/
def playEnded (x : Stream) : Bool :=
  let lo := x.i - dPre x.d0
  dKind x.d0 == 2 && x.started && !dLoop x.d0 &&
    (decide ((dLen x.d0 : Int) ≤ lo) || decide (lo + dK x.d0 - 1 < 0))

/-- The ready check of R151 on reader `s`. -/
def strmCheck (c : Chip) (s : Nat) : Chip :=
  let x := c.stream s
  let active := dKind x.d0 == 1 || (dKind x.d0 == 2 && x.started)
  if !active then c.setStream s { x with ok := false }
  else if x.ended || playEnded x then c.setStream s { x with ended := true, ok := false }
  else if windowLanded x x.d0 x.i then
    (c.setStream s { x with ok := true, ready := true }).pokeW (seraiAddr (dLb x.d0)) (c.peek (c.ringAddr x.d0 x.i))
  else
    (c.setStream s { x with ok := false }).when (x.ready || dKind x.d0 == 2) (·.strmMiss s)

/-- STREAM_READY_CHECK: the streamer's part of phase 0. -/
def strmPhase0 (c : Chip) : Chip :=
  if c.bit F.STRM_CFG_EN && c.domOn 16 then
    let ix := c.streamIxs
    let c1 := ix.foldl strmShift c
    let c2 := ix.foldl strmPlace c1
    let c3 := ix.foldl strmCheck c2
    ix.foldl strmHead c3
  else c

/-! ### Phase 2 (R143, R144, R147, R148) -/

/-- A writer's position of this tick is complete: an unstored position takes 0, one of a stand-in tick the guard value;
the block whose lowest position it is becomes a burst (R144). -/
def strmWrite (standIn : Nat → Bool) (c : Chip) (s : Nat) : Chip :=
  let x := c.stream s
  if dKind x.d0 = 3 ∧ x.moved then
    let here := c.ringAddr x.d0 x.head
    let c1 :=
      if standIn (c.phys (dOwner x.d0)) then c.pokeW here (if dGuard x.d0 then c.peek (c.ringAddr x.d0 (x.head + 1)) else 0)
      else if x.stored then c else c.pokeW here 0
    let n : Int := if dFmt x.d0 = 2 then 32 else 16
    if x.head % n = 0 then
      let blk := (dExt x.d0 + (x.head % (max (dLen x.d0) 1 : Nat)).toNat * fmtBytes (dFmt x.d0)) / 64
      { c1 with strm := { c1.strm with bursts := c1.strm.bursts ++ [⟨s, blk, c.now + 2, some x.head⟩] } }
    else c1
  else c

/-- Positions i of the ticks from the first planned one on, `fuel` of them: a tap's head falls by one each tick, a
playback advances at `r`. -/
def planList (c : Chip) (d : List (Nat × Word)) : Nat → Int → Int → List Int
  | 0, _, _ => []
  | fuel + 1, a, r =>
    if dKind d = 1 then (c.tapPos d a r).1 :: planList c d fuel (a - 1) r
    else (a / 2 ^ 28) :: planList c d fuel (a + r) r

/-- The longest prefix whose target range spans at most `room` positions: its length and range (R147). -/
def fitRange (pre k m : Nat) (room : Nat) : List Int → Nat → Int → Int → Nat × Int × Int
  | [], n, lo, hi => (n, lo, hi)
  | i :: t, n, lo, hi =>
    let lo' := if n = 0 then i - pre - m else min lo (i - pre - m)
    let hi' := if n = 0 then i - pre + k - 1 + m else max hi (i - pre + k - 1 + m)
    if n = 0 ∨ hi' - lo' + 1 ≤ (room : Int) then fitRange pre k m room t (n + 1) lo' hi' else (n, lo, hi)

/-- The planned positions of reader `x` for ticks n+1 (or n+2 where it is primed) on. -/
def planned (c : Chip) (x : Stream) : List Int :=
  if dKind x.d2 = 1 then
    let h := (c.stream (dLine x.d2)).head
    (if dKind x.d1 = 1 then (c.tapPos x.d1 (h - 1) x.c1).1 else (c.tapPos x.d2 (h - 1) x.c2).1) ::
      c.planList x.d2 (c.window - 1) (h - 2) x.c2
  else if x.started then
    let p1 := x.p + x.c0
    p1 / 2 ^ 28 :: c.planList x.d2 (c.window - 1) (p1 + x.c1) x.c2
  else c.planList x.d2 c.window 0 x.c2

/-- First planned index whose window holds position `q`, else the last. -/
def needIx (d : List (Nat × Word)) (q : Int) : List Int → Nat → Nat
  | [], n => n
  | i :: t, n =>
    if i - dPre d ≤ q ∧ q ≤ i - dPre d + dK d - 1 then n else if t.isEmpty then n else needIx d q t (n + 1)

/-- Queue the bursts of the positions of T that have not landed; positions that read 0 land at once (R148). -/
def queueBursts (c : Chip) (s : Nat) (d : List (Nat × Word)) (plan : List Int) (t0 : Nat) : List Int → Chip
  | [] => c
  | q :: rest =>
    let x := c.stream s
    if x.landed.contains q then queueBursts c s d plan t0 rest
    else
      match c.extAt d q with
      | none =>
        queueBursts ((c.pokeW (c.ringAddr d q) 0).setStream s { x with landed := q :: x.landed }) s d plan t0 rest
      | some (a, _) =>
        if c.strm.bursts.any fun b => b.stream == s && b.block == a / 64 && b.drain.isNone then
          queueBursts c s d plan t0 rest
        else
          queueBursts { c with strm := { c.strm with bursts :=
            c.strm.bursts ++ [⟨s, a / 64, t0 + needIx d q plan 0, none⟩] } } s d plan t0 rest

/-- Plan reader `s` (R147, R148); `n` counts the squashes of this phase 2. -/
def planStream (c : Chip) (n : Nat) (s : Nat) : Chip × Nat :=
  let x := c.stream s
  let d := x.d2
  if dKind d = 0 ∨ dKind d = 3 ∨ x.ended then (c, n)
  else
    let plan := c.planned x
    let (depth, lo, hi) := fitRange (dPre d) (dK d) (dMargin d) (dRing d - 32) plan 0 0 0
    let inT := fun (q : Int) => decide (lo ≤ q) && decide (q ≤ hi)
    let gone := !x.landed.isEmpty && !x.landed.any inT
    let tooMany := gone && decide (256 ≤ n)
    let landed := if tooMany then x.landed else x.landed.filter inT
    let c1 := c.setStream s { x with lo := lo, hi := hi, depth := depth, landed := landed }
    let c2 := if tooMany then c1.sticky F.STRM_STATUS_SQ_OVF 93 else c1.when gone (·.bump F.STRM_SQUASH_CNT_COUNT)
    let c3 := { c2 with strm := { c2.strm with bursts := c2.strm.bursts.filter fun b => b.stream != s || b.drain.isSome } }
    let t0 := c.now + (if dKind d = 2 ∧ !x.started then 2 else 1)
    let c4 := c3.queueBursts s d (plan.take depth) t0 ((List.range (hi - lo + 1).toNat).map fun (k : Nat) => lo + k)
    let y := c4.stream s
    let first3 := (List.range 3).all fun (j : Nat) => windowLanded y d ((j : Int) * y.c2 / 2 ^ 28)
    (c4.setStream s { y with primed := dKind d == 2 && !y.started && first3 }, if gone && !tooMany then n + 1 else n)

/-- The streamer's part of phase 2: commands, control values, writers' blocks, plans. `standIn` names the physical engines
whose tick took the stand-in. -/
def strmPhase2 (c : Chip) (standIn : Nat → Bool) : Chip :=
  if c.bit F.STRM_CFG_EN && c.domOn 16 then
    let c1 := c.streamIxs.foldl (strmWrite standIn) c
    let c2 := c1.strm.queue.foldl strmDo { c1 with strm := { c1.strm with queue := [] } }
    let c3 := c2.streamIxs.foldl (fun c s => c.modStream s fun x => { x with c2 := controlOf x.d2 (c.modWord x.d2) }) c2
    let c4 := (c3.streamIxs.foldl (fun (p : Chip × Nat) s => p.1.planStream p.2 s) (c3, 0)).1
    let out := c4.strm.bursts.length
    c4.when (decide (c4.fld F.STRM_CAP_PEAK < out)) (·.setFld F.STRM_CAP_PEAK (min out 65535))
  else c

/-! ### Bursts (R138, R148, R149) -/

/-- `a` is served before `b`: by need tick, then stream. -/
def Burst.before (a b : Burst) : Bool :=
  decide (a.need < b.need) || (a.need == b.need && decide (a.stream < b.stream))

/-- The burst served next: the first by need tick; a tap's burst waits for an earlier writer burst of its block. -/
def nextBurst (c : Chip) : Option Burst :=
  match c.strm.bursts with
  | [] => none
  | b :: t =>
    let m := t.foldl (fun m x => if Burst.before x m then x else m) b
    if m.drain.isSome then some m
    else
      match (c.strm.bursts.takeWhile (· != m)).find? fun x => x.drain.isSome && x.block == m.block with
      | some w => some w
      | none => some m

/-- The words of a read burst land in the positions of the target range whose sample starts in its block. -/
def landBurst (c : Chip) (s blk : Nat) : Chip :=
  let x := c.stream s
  let d := x.d2
  (List.range (x.hi - x.lo + 1).toNat).foldl (fun c (k : Nat) =>
    let q := x.lo + k
    match c.extAt d q with
    | some (a, f) =>
      if a / 64 = blk ∧ !(c.stream s).landed.contains q then
        let c1 := c.pokeW (c.ringAddr d q) (c.extSample a f)
        { c1 with strm := { c1.strm with last := some ⟨c.ringAddr d q, 15, 2⟩ } }.modStream s fun y => { y with landed := q :: y.landed }
      else c
    | none => c) c

/-- The words of a writer's block go to the line (R144). -/
def drainBurst (c : Chip) (s : Nat) (q0 : Int) : Chip :=
  let d := (c.stream s).d2
  let half := dFmt d == 2
  (List.range (if half then 32 else 16)).foldl (fun c (k : Nat) =>
    let q := q0 + k
    let a := dExt d + (q % (max (dLen d) 1 : Nat)).toNat * fmtBytes (dFmt d)
    let w := c.peek (c.ringAddr d q)
    if half then
      if a % 4 = 0 then c.pokeDdr a 3 (w >>> 16) else c.pokeDdr (a - 2) 12 w
    else c.pokeDdr a 15 w) c

/-- Link ECC is enabled (R135, R138). -/
def linkEcc (c : Chip) : Bool := bits c.strm.cfg.toNat 12 12 == 1

/-- A corrected link error on a read (R138). -/
def linkCe (c : Chip) : Chip := (c.bump F.DDR_ECC_CNT_CE_CNT).sticky F.DDR_STATUS_ECC_CE 94

/-- An uncorrectable link error on a read (R138). -/
def linkUe (c : Chip) : Chip := (c.bump F.DDR_ECC_CNT_UE_CNT).sticky F.DDR_STATUS_ECC_UE 95

/-- A burst completes: `link` 0 clean, 1 a corrected link error, 2 an uncorrectable one (R138). -/
def burstComplete (c : Chip) (link : Nat) : Chip :=
  if !(c.domOn 16 && c.bit F.DDR_STATUS_READY) then c
  else
    match c.nextBurst with
    | none => c
    | some b =>
      let c1 := { c with strm := { c.strm with bursts := c.strm.bursts.erase b } }
      match b.drain with
      | some q => c1.drainBurst b.stream q
      | none =>
        if c.linkEcc && link == 2 then c1.linkUe
        else (c1.landBurst b.stream b.block).when (c.linkEcc && link == 1) linkCe

/-! ### The engines' views (R150, R151) and LPDDR training (R136, R137) -/

/-- The engine reaches the stream: it is the owner and the stream is on (R150). -/
def reaches (c : Chip) (p s : Nat) : Bool :=
  dKind (c.stream s).d0 != 0 && dOwner (c.stream s).d0 == c.actsAs p

/-- A serai word can be read: its bank is on (R133). -/
def seraiBankOn (c : Chip) (a : Nat) : Bool := c.seraiState (memNo a - 110) == 0

/-- The guard value (R151). -/
def guardValue (c : Chip) (s : Nat) : Word :=
  let x := c.stream s
  if dGuard x.d0 && x.ready then c.peek (seraiAddr (dLb x.d0)) else 0

/-- LPDDR training starts (R136): ignored while the streamer runs. -/
def ddrInit (c : Chip) : Chip :=
  if c.bit F.STRM_CFG_EN then c
  else (({ c with strm := { c.strm with training := true, cfg := c.reg Reg.DDR_CFG } }.setFld F.DDR_STATUS_READY 0).setFld
    F.DDR_STATUS_TRAIN_FAIL 0).setFld F.DDR_STATUS_FAIL_STEP 0

/-- The training sequence ends: at step `fail` (1 to 6), or well (0) (R136). -/
def ddrTrained (c : Chip) (fail : Nat) : Chip :=
  if !c.strm.training then c
  else
    let c1 := { c with strm := { c.strm with training := false } }
    let c2 := if fail = 0 then c1.setFld F.DDR_STATUS_READY 1
      else (c1.setFld F.DDR_STATUS_TRAIN_FAIL 1).setFld F.DDR_STATUS_FAIL_STEP (min fail 6)
    c2.sticky F.DDR_STATUS_TRAINED 96

/-- A poll of MR4 (R137): the rate code, whether it is above nominal, whether the device is too hot. -/
def mr4Poll (c : Chip) (code : Nat) (above hot : Bool) : Chip :=
  if !(c.domOn 16 && c.bit F.DDR_STATUS_READY) then c
  else
    let c1 := c.setFld F.DDR_STATUS_MR4_RATE code
    let c2 := if above then c1.sticky F.DDR_STATUS_DERATE 97 else c1.setFld F.DDR_STATUS_DERATE 0
    c2.when hot (·.sticky F.DDR_STATUS_HOT 97)

end Chip

end Sys2Proof.Machine
end

