-- ==== Sys2Proof/Machine/EngMem.lean ====
section
/-! DEFINITION. An engine's accesses to memory through its segments: bank slots (R114, R115), the journal (R127), the
relay crossbar (R52, R179, R180, R183), stream views (R150, R151), ECC (R128). -/

namespace Sys2Proof.Machine

/-- Slots of interleave banks already granted in a cycle: memory code, word. -/
abbrev Slots := List (Nat × Nat)

/-- A slot for a word: granted (a second read of one word shares), or a conflict (R114, R115). -/
def takeSlot (g : Slots) (code w : Nat) : Option Slots :=
  if g.contains (code, w) then some g
  else if 2 ≤ (g.filter fun x => x.1 == code && x.2 % 8 == w % 8).length then none
  else some ((code, w) :: g)

/-- A direct store takes a slot of its own (R114): its word is kept apart from the words read. -/
def storeSlot (g : Slots) (w : Nat) : Slots := (0, w + 8 * 196608) :: g

/-- The value of a delay word with the journaled stores over it, the newest first in the list (R125). -/
def overlay (w : Nat) (v : Word) : List JEntry → Word
  | [] => v
  | e :: t => if e.word = w then merge (overlay w v t) e.data e.mask else overlay w v t

/-- Bytes of the word the journal covers. -/
def covered (w : Nat) : List JEntry → Nat
  | [] => 0
  | e :: t => (if e.word = w then e.mask else 0) ||| covered w t

/-- V(t) of R52 from the present content: the stores made after cycle t undone, the newest first. -/
def relayAt (w : Nat) (t : Int) (v : Word) : List (Nat × Nat × Word) → Word
  | [] => v
  | (cyc, x, before) :: rest => if x = w ∧ t < cyc then relayAt w t before rest else relayAt w t v rest

namespace Chip

/-- Logical number and event of the engine for replay records. -/
def replayEvent (c : Chip) (p : Nat) : Nat := 42 + c.logi p

/-- A detector meets its fault in engine `p` now: in TICK it stays to be decided (R176), in setup mode it is recorded and
reported (R187). -/
def detect (c : Chip) (p code : Nat) : Chip :=
  if c.inTick p then c.modAux p fun a => { a with det := if a.det.isNone then some (code, a.cyc) else a.det }
  else
    let l := c.logi p
    ((((c.setFld (F.REPLAY_REC_DET l) code).setFld (F.REPLAY_REC_OUTCOME l) 0).setFld (F.REPLAY_REC_CONE l) (2 ^ l)).setFld
      (F.REPLAY_REC_CYCLE l) 0).raise (42 + l)

/-- An engine read of the array word at address `a` for engine `p`: corrected, or 0 with the MEM detector (R128). -/
def readEcc (c : Chip) (p a : Nat) : Word × Chip :=
  match c.eccOf a with
  | 2 => (0, (c.recordUe p a).detect p 5)
  | 1 => (c.peek a, c.recordCe p a)
  | _ => (c.peek a, c)

/-- A relay-out of physical engine `j` can be read by others: it runs a tick program (R46, R70, R118). -/
def relayLive (c : Chip) (j : Nat) : Bool := c.inTick j && !c.held j && c.domOn j

/-- A read that escapes the effective cone sets ESC of the engine read (R180, R183). -/
def escape (c : Chip) (j : Nat) : Chip := c.stickyBit ⟨Reg.REPLAY_STATUS, 29, 20⟩ (c.logi j) (c.replayEvent j)

/-- A crossbar read by engine `p` of word `w` of engine `j` (R52, R179, R180, R183). -/
def crossbar (c : Chip) (p j w : Nat) : Word × Chip :=
  let me := c.auxOf p
  let it := c.auxOf j
  let a := relayAddr j w
  let rel : Int := (me.cyc : Int) - me.start
  let inCone := match me.replay with | some cone => bitAt cone (c.logi j) | none => false
  if !c.relayLive j then (0, c)
  else
    let (now, c1) := c.readEcc p a
    if !c.inTick p then (now, c1)
    else
      if it.standIn.isSome then (now, c1.when (!inCone) (·.escape j))
      else if it.replay.isSome && !inCone then (now, c1.escape j)
      else if me.replay.isSome && !inCone then
        let old := ((it.old.find? fun x => x.1 == w).map (·.2)).getD now
        match (it.wcyc.find? fun x => x.1 == w).map (·.2) with
        | some y => if (y : Int) ≤ rel - 24 then (now, c1) else (old, c1)
        | none => (old, c1)
      else (relayAt w (rel - 24) now it.relayLog, c1)

/-- A serai bank's two engine slots of the cycle (R131). -/
def grant (c : Chip) (cyc bank : Nat) : Option Chip :=
  let g := if c.strm.grants.1 = cyc then c.strm.grants.2 else []
  if 2 ≤ g.count bank then none else some { c with strm := { c.strm with grants := (cyc, bank :: g) } }

/-- A read of view word `w` of stream `s` by engine `p` that reaches it (R150, R151). -/
def viewRead (c : Chip) (p s w : Nat) : Word × Chip :=
  let x := c.stream s
  if dKind x.d0 = 3 then (0, c)
  else if w = 0 then (x.frac, c)
  else if x.ended || (dKind x.d0 == 2 && !x.started) || (dKind x.d0 == 1 && !x.ready && !x.ok) then (0, c)
  else if !x.ok then (c.guardValue s, c)
  else
    let a := c.ringAddr x.d0 (x.i - dPre x.d0 + (w - 1 : Nat))
    let granted := if c.inTick p then c.grant (c.auxOf p).cyc (memNo a - 110) else some c
    match granted with
    | some c1 =>
      if !c1.seraiBankOn a then (c.guardValue s, c.strmMiss s)
      else
        match c1.eccOf a with
        | 2 => (0, (c1.seraiUe a).detect p 5)
        | 1 => (c1.peek a, c1.seraiCe a)
        | _ => (c1.peek a, c1)
    | none => (c.guardValue s, c.strmMiss s)

/-- The word index of an access: the segment's index over BASE, modulo the memory (R119). -/
def wordIndex (s : Seg) (ix size : Nat) : Nat := if size = 0 then 0 else (s.base + ix) % size

/-- A bank conflict (R115). -/
def bankConflict (c : Chip) (p : Nat) : Chip := (c.memFlag p 2).bump (F.ENG_COLL_CNT_BANKC_CNT p)

/-- A read through segment `s` at offset `off` by engine `p`: value, flags (BOUND), the block, the slots. -/
def segRead (c : Chip) (p : Nat) (g : Slots) (s : Seg) (off : Int) : Nat × Nat × Chip × Slots :=
  match s.index off with
  | none => (0, flagBound, c, g)
  | some ix =>
    let code := s.memCode
    match code with
    | 0 =>
      let w := wordIndex s ix 196608
      match takeSlot g 0 w with
      | none => (0, 0, c.bankConflict p, g)
      | some g' =>
        let j := (c.auxOf p).journal
        if covered w j = 15 then ((overlay w 0 j).toNat, 0, c, g')
        else
          let (v, c1) := c.readEcc p (delayAddr p w)
          ((overlay w v j).toNat, 0, c1, g')
    | 1 =>
      let w := wordIndex s ix 32768
      match takeSlot g 1 w with
      | none => (0, 0, c.bankConflict p, g)
      | some g' => let (v, c1) := c.readEcc p (c.frontAddr p w); (v.toNat, 0, c1, g')
    | 2 => let (v, c1) := c.readEcc p (relayAddr p (wordIndex s ix 256)); (v.toNat, 0, c1, g)
    | 3 => let (v, c1) := c.readEcc p (inputAddr p (wordIndex s ix 64)); (v.toNat, 0, c1, g)
    | 4 => let (v, c1) := c.readEcc p (senseAddr p (wordIndex s ix 1024)); (v.toNat, 0, c1, g)
    | 5 =>
      let w := wordIndex s ix 256
      if 9 < s.srcEng then (0, 0, c.memFlag p 1, g)
      else if s.srcEng = c.actsAs p then let (v, c1) := c.readEcc p (relayAddr p w); (v.toNat, 0, c1, g)
      else let (v, c1) := c.crossbar p (c.phys s.srcEng) w; (v.toNat, 0, c1, g)
    | 6 =>
      if c.reaches p s.stream then
        let (v, c1) := c.viewRead p s.stream (wordIndex s ix (viewSize (c.stream s.stream).d0))
        (v.toNat, 0, c1, g)
      else (0, 0, c.memFlag p 1, g)
    | _ => (0, 0, c.memFlag p 1, g)

/-- A store of the bytes of `mask` through segment `s` at offset `off` by engine `p` (R118, R127, R132). -/
def segStore (c : Chip) (p : Nat) (g : Slots) (s : Seg) (off : Int) (mask : Nat) (data : Word) : Nat × Chip × Slots :=
  match s.index off with
  | none => (flagBound, c, g)
  | some ix =>
    match s.memCode with
    | 0 =>
      let w := wordIndex s ix 196608
      let last := fun (c : Chip) => c.modAux p fun a => { a with lastStore := some ⟨delayAddr p w, mask, 2⟩ }
      if c.inTick p && !c.bit (F.ENG_STATUS_REPLAY_OFF p) then
        (0, last (c.modAux p fun a => { a with journal := ⟨w, mask, data⟩ :: a.journal }), g)
      else (0, last (c.poke (delayAddr p w) mask data), storeSlot g w)
    | 2 =>
      let w := wordIndex s ix 256
      let old := c.peek (relayAddr p w)
      let c1 := c.modAux p fun a =>
        let rel := a.cyc - a.start
        { a with
          lastStore := some ⟨relayAddr p w, mask, 2⟩
          relayLog := (rel, w, old) :: a.relayLog
          wcyc := (w, rel) :: a.wcyc.filter (·.1 != w)
          old := if a.old.any (·.1 == w) then a.old else (w, old) :: a.old }
      (0, (if c.inTick p then c1 else c).poke (relayAddr p w) mask data, g)
    | 6 =>
      let st := s.stream
      let x := c.stream st
      if !c.reaches p st then (0, c.memFlag p 1, g)
      else if dKind x.d0 ≠ 3 then (0, c.memFlag p 0, g)
      else if c.logi p ≠ dOwner x.d0 then (0, c, g)
      else
        let a := c.auxOf p
        if 64 ≤ a.wbuf.length then (0, c.strmMiss st, g)
        else
          let e : WEntry := ⟨a.cyc, (c.ringAddr x.d0 x.head - 0x20000000) / 4, mask, data, st⟩
          (0, (c.setAux p { a with wbuf := a.wbuf ++ [e] }).setStream st { x with stored := true }, g)
    | 1 => (0, c.memFlag p 0, g)
    | 3 => (0, c.memFlag p 0, g)
    | 4 => (0, c.memFlag p 0, g)
    | 5 => (0, if 9 < s.srcEng then c.memFlag p 1 else c.memFlag p 0, g)
    | _ => (0, c.memFlag p 1, g)

/-- The oldest entry of engine `p`'s serai write buffer drains (R132). -/
def drainOne (c : Chip) (p : Nat) : Chip :=
  match (c.auxOf p).wbuf with
  | [] => c
  | e :: t =>
    let a := seraiAddr e.word
    (c.modAux p fun x => { x with wbuf := t }).when (c.seraiBankOn a) fun c =>
      { c.poke a e.mask e.data with strm := { c.strm with last := some ⟨a, e.mask, 2⟩ } }

/-- The oldest entry may drain now: eight cycles after its store, or outside phase 1. -/
def mayDrain (c : Chip) (p : Nat) : Bool :=
  match (c.auxOf p).wbuf with
  | [] => false
  | e :: _ => c.tick.phase != .p1 || !c.inTick p || decide (e.cyc + 8 ≤ (c.auxOf p).cyc)

end Chip

end Sys2Proof.Machine
end

