-- ==== Sys2Proof/Machine/Engine.lean ====
section
/-! DEFINITION. The Drunus core: which syllables are defined (R75, R103, R109), what each unit does (R82, R84, R93, R95 to
R98, R100), how results land (R63 to R68), and the issue of one bundle or compact instruction (R54 to R57, R69, R107).
One issue serves every core: engines in setup and tick mode, the CP and the SECP. -/

namespace Sys2Proof

/-- RA field of the RR and RI layouts. -/
def AArgs.ra (x : AArgs) : Nat := bits x.low.toNat 15 10
/-- RB field. -/
def AArgs.rb (x : AArgs) : Nat := bits x.low.toNat 9 4
/-- MOD field. -/
def AArgs.md (x : AArgs) : Nat := bits x.low.toNat 3 0
/-- IMM10 field. -/
def AArgs.imm10 (x : AArgs) : Nat := bits x.low.toNat 9 0

/-- The syllable as an undefined operation of its class, with the destination field of R109. -/
def Syl.asUndef : Syl → Syl
  | .m _ y => .undef .m y.unit (BitVec.ofNat 6 y.dst.toNat)
  | .a _ y => .undef .a false y.rd
  | .l _ y => .undef .l false y.rt
  | .x _ y => .undef .x false y.rd
  | .c _ _ => .undef .c false 0
  | .undef k v d => .undef k v d
  | .reserved => .reserved

/-- The unit a syllable is for: M0 0, M1 1, A 2, L 3, X 4, C 5; none for a reserved CLASS. -/
def Syl.unit : Syl → Option Nat
  | .m _ y => some (if y.unit then 1 else 0)
  | .a _ _ => some 2
  | .l _ _ => some 3
  | .x _ _ => some 4
  | .c _ _ => some 5
  | .undef .m u _ => some (if u then 1 else 0)
  | .undef .a _ _ => some 2
  | .undef .l _ _ => some 3
  | .undef .x _ _ => some 4
  | .undef .c _ _ => some 5
  | .reserved => none

/-- Number of the p register OPA of ADDP names. -/
def MOpd.prodIx (o : MOpd) : Nat := match o with | .reg sp => sp.toNat - 40 | _ => 0

/-- Rank of a class in a collision (R67). -/
def Cls.rank (k : Cls) : Nat := match k with | .x => 4 | .l => 3 | .a => 2 | .m => 1 | .c => 0

end Sys2Proof

namespace Sys2Proof.Machine

/-- How a core reaches addresses that are not its own memory: a read of the aligned word that holds an address, with the
access size, and a masked write; both say whether the bus answered with an error. -/
structure Port where
  /-- Read: core, address, size. -/
  rd : Chip → Nat → Nat → Nat → Chip × Word × Bool
  /-- Write: core, address, size, byte mask, data. -/
  wr : Chip → Nat → Nat → Nat → Nat → Word → Chip × Bool

/-- No bus: an engine has no path to it (R25). -/
def Port.none : Port := ⟨fun c _ _ _ => (c, 0, true), fun c _ _ _ _ _ => (c, true)⟩

/-! ### Which syllables are defined -/

/-- An M operand core `k` accepts (R81, R103). -/
def mOpdOk (k : Nat) (o : MOpd) : Bool :=
  match o with
  | .reg sp => isGpr sp.toNat
  | _ => decide (k < 10)

/-- OPA of ADDP names p0 or p1 (R82). -/
def mProdOk (o : MOpd) : Bool := match o with | .reg sp => isProd sp.toNat | _ => false

/-- The source of MOV and its destination go together (R88). -/
def movOk (k rd ra : Nat) : Bool :=
  if isSpecial ra then isGpr rd
  else if isSpecial rd then isGpr ra && rd != 48
  else (isGpr rd || isAcc k rd || isProd rd) && (isGpr ra || isAcc k ra || isProd ra)

/-- An A syllable is defined on core `k`. -/
def aOk (k : Nat) (op : AOp) (x : AArgs) : Bool :=
  let rd := x.rd.toNat
  let g := isGpr rd && isGpr x.ra
  let ap := fun s => isAcc k s || isProd s
  match op with
  | .add | .sub | .and | .or | .xor | .shl | .shr | .sra | .ror | .min | .max | .cmp | .sel => g && isGpr x.rb
  | .addi | .neg | .abs | .andi | .ori | .xori | .not | .shi | .clz | .cmpi | .ext => g
  | .mov => movOk k rd x.ra
  | .movi => isGpr rd || ap rd
  | .movhi => isGpr rd
  | .rnd => isGpr rd && ap x.ra
  | .ash => isAcc k rd && ap x.ra
  | .adda | .suba => isAcc k rd && ap x.ra && ap x.rb

/-- An M syllable is defined. -/
def mOk (k : Nat) (op : MOp) (x : MArgs) : Bool :=
  let d := x.dst.toNat
  let acc := decide (d < accCount k)
  match op with
  | .mpy | .mpyn => mOpdOk k x.a && mOpdOk k x.b && (acc || d == 4 || d == 5)
  | .mac | .msu => mOpdOk k x.a && mOpdOk k x.b && acc
  | .addp => mProdOk x.a && acc

/-- RX of FORM 1 is a general register or 63 (R91). -/
def rxOk (low : Nat) : Bool :=
  bits low 12 12 == 0 || isGpr (bits low 11 6) || bits low 11 6 == 63

/-- An L syllable is defined: the segment form on an engine, the register-base form on the CP and SECP (R90, R104). -/
def lOk (k : Nat) (op : LOp) (x : LArgs) : Bool :=
  let rt := x.rt.toNat
  let low := x.low.toNat
  let form := if k < 10 then rxOk low else decide (bits low 16 11 < 32)
  match op with
  | .ldw | .ldh | .ldhu | .ldb | .ldbu | .stw | .sth | .stb => isGpr rt && form
  | .sta => (isAcc k rt || isProd rt) && form
  | .addr => isGpr rt && isGpr (bits low 16 11) && isGpr (bits low 10 5)
  | .addri | .lmov => isGpr rt && isGpr (bits low 16 11)
  | .segrd | .segwr | .ptradd => decide (k < 10) && isGpr rt

/-- ra names wk with k at most `n` (R98). -/
def windowed (sp n : Nat) : Bool := decide (8 ≤ sp) && decide (sp ≤ 8 + n)

/-- An X syllable is defined. -/
def xOk (op : XOp) (x : XArgs) : Bool :=
  let d := isGpr x.rd.toNat
  let a := isGpr x.ra.toNat
  let b := isGpr x.rb.toNat
  match op with
  | .log2 | .exp2 | .tanh => d && a
  | .sincos => d && a && (b || x.md == 1 || x.md == 2)
  | .idiv | .irem | .udiv | .urem | .fdiv => d && a && b
  | .noise | .getstate => d
  | .rand => d && b
  | .seed => a
  | .interp4 => d && windowed x.ra.toNat 20 && b
  | .interp6 => d && windowed x.ra.toNat 18 && b

/-- A C syllable is defined: TICKWAIT exists on engines only (R101, R103). -/
def cOk (k : Nat) (op : COp) : Bool := op != .tickwait || decide (k < 10)

/-- A syllable is a defined operation of core `k`. -/
def sylOk (k : Nat) (s : Syl) : Bool :=
  match s with
  | .m op x => mOk k op x
  | .a op x => aOk k op x
  | .l op x => lOk k op x
  | .x op x => xOk op x
  | .c op _ => cOk k op
  | .undef _ _ _ => false
  | .reserved => false

/-- A C syllable that a delay bundle (R62) or a repeated bundle (R69) makes undefined. -/
def badC (delay rep : Bool) (s : Syl) : Bool :=
  match s with
  | .c .win _ => delay
  | .c .nop _ => false
  | .c _ _ => delay || rep
  | _ => false

/-! ### Effects of one issue -/

/-- A result for an accumulator, which lands in the cycle of its issue (R64). -/
structure AccRes where
  /-- The accumulator. -/
  ix : Nat
  /-- A result of class A (of class M otherwise). -/
  isA : Bool
  /-- A clear form (R67). -/
  clear : Bool
  /-- Value, or product with its sign. -/
  val : Int
  /-- Flag bits of R60. -/
  flags : Nat
  /-- Address of the syllable. -/
  addr : Nat
  deriving DecidableEq, Repr

/-- What the syllables of one issue have done so far. -/
structure Fx where
  /-- The block, with stores, memory flags and generator steps. -/
  c : Chip
  /-- Results issued, oldest first. -/
  fl : List Flight := []
  /-- Accumulator results. -/
  acc : List AccRes := []
  /-- Post-modifications. -/
  posts : List (Nat × Int) := []
  /-- Bank slots granted. -/
  slots : Slots := []
  /-- A precise fault of the CP or SECP: cause and address. -/
  fault : Option (Nat × Nat) := Option.none
  /-- Core cycles without issue after this one (R104). -/
  stall : Nat := 0

/-- Add a result. -/
def Fx.fly (fx : Fx) (wait : Nat) (cls : Cls) (d : Dest) (v flags addr : Nat) : Fx :=
  { fx with fl := fx.fl ++ [⟨wait, cls, d, v, flags, addr⟩] }

/-- An undefined operation (R56): 0 to its destination with the timing of its class, UNDEF. -/
def Fx.undef (fx : Fx) (k : Nat) (core : Core) (cls : Cls) (dst addr : Nat) : Fx :=
  match cls with
  | .a =>
    if isGpr dst then fx.fly 0 .a (.gpr (gprIx k core dst)) 0 flagUndef addr
    else if isAcc k dst then { fx with acc := fx.acc ++ [⟨dst - 36, true, true, 0, flagUndef, addr⟩] }
    else if isProd dst then fx.fly 0 .a (.prod (dst - 40)) 0 flagUndef addr
    else fx.fly 0 .a .nothing 0 flagUndef addr
  | .l => fx.fly 0 .l (if isGpr dst then .gpr (gprIx k core dst) else .nothing) 0 flagUndef addr
  | .m =>
    if dst < accCount k then { fx with acc := fx.acc ++ [⟨dst, false, true, 0, flagUndef, addr⟩] }
    else if dst = 4 ∨ dst = 5 then fx.fly 2 .m (.prod (dst - 4)) 0 flagUndef addr
    else fx.fly 0 .m .nothing 0 flagUndef addr
  | .x => fx.fly 5 .x (if isGpr dst then .gpr (gprIx k core dst) else .nothing) 0 flagUndef addr
  | .c => fx.fly 0 .c .nothing 0 flagUndef addr

/-! ### M class (R82) -/

/-- The q23 value of an M operand, with the flags its fetch sets. -/
def Fx.mOperand (fx : Fx) (k : Nat) (core : Core) (o : MOpd) : Int × Nat × Fx :=
  match o with
  | .reg sp => (q23Of (core.rd k sp.toNat), 0, fx)
  | .mem sg imm =>
    let (v, f, c, g) := fx.c.segRead k fx.slots (core.seg sg.toNat) imm.toNat
    (q23Of v, f, { fx with c := c, slots := g })
  | .step sg st =>
    let (v, f, c, g) := fx.c.segRead k fx.slots (core.seg sg.toNat) 0
    (q23Of v, f, { fx with c := c, slots := g, posts := (sg.toNat, st.toInt) :: fx.posts })

/-- A defined M syllable. -/
def Fx.mUnit (fx : Fx) (k : Nat) (core : Core) (op : MOp) (x : MArgs) (addr : Nat) : Fx :=
  let d := x.dst.toNat
  let put := fun (fx : Fx) (clear : Bool) (v : Int) (f : Nat) =>
    if d < 4 then { fx with acc := fx.acc ++ [⟨d, false, clear, v, f, addr⟩] }
    else fx.fly 2 .m (.prod (d - 4)) (natOf 48 v) f addr
  match op with
  | .addp => put fx false (core.prodOf x.a.prodIx) 0
  | _ =>
    let (va, fa, fx1) := fx.mOperand k core x.a
    let (vb, fb, fx2) := fx1.mOperand k core x.b
    let p := va * vb
    let f := fa ||| fb
    match op with
    | .mpy => put fx2 true p f
    | .mac => put fx2 false p f
    | .msu => put fx2 false (-p) f
    | _ => put fx2 true (-p) f

/-! ### A class (R84) -/

/-- Saturation of ADD, SUB, NEG, ABS (R85). -/
def asatOf (core : Core) (md : Nat) : Bool :=
  match md % 4 with
  | 1 => true
  | 2 => false
  | _ => bitAt core.mode 3

/-- An accumulator or p source as A reads it. -/
def Core.apSrc (core : Core) (sp : Nat) : Int := if sp < 40 then core.accA (sp - 36) else core.prodOf (sp - 40)

/-- Rounding mode of MODE.RND or of the field of RND (R78, R89): 0 TRUNC, 1 HALF_UP, 2 HALF_EVEN. -/
def rndMode (core : Core) (field : Nat) : Nat :=
  match field with
  | 1 => 0 | 2 => 1 | 3 => 2
  | _ => core.mode % 4

/-- Whether rounding wraps, by MODE.STW or the field of RND. -/
def rndWrap (core : Core) (field : Nat) : Bool :=
  match field with
  | 1 => false
  | 2 => true
  | _ => bitAt core.mode 2

/-- A result of MOV (R88): destination, value and flags. -/
def movResult (c : Chip) (k : Nat) (core : Core) (rd ra md : Nat) : Dest × Nat × Nat :=
  let gv := core.rd k ra
  if isSpecial rd then
    match rd with
    | 51 => (.mode, gv % 16, 0)
    | 50 => if 10 ≤ k then (.clrFlags, gv % 512, 0) else (.nothing, 0, 0)
    | _ => (.nothing, 0, 0)
  else if isGpr rd then
    let i := gprIx k core rd
    if isSpecial ra then (.gpr i, c.special k core ra, 0)
    else if isGpr ra then (.gpr i, gv, 0)
    else
      let v := core.apSrc ra
      (.gpr i, natOf 32 (if md % 2 = 1 then v / 2 ^ 32 else v), 0)
  else if isAcc k rd then
    let (v, f) := acc56 (if isGpr ra then intOf gv * 2 ^ 15 else core.apSrc ra)
    (.acc (rd - 36), v, if isGpr ra then 0 else f)
  else
    (.prod (rd - 40), natOf 48 (if isGpr ra then intOf gv * 2 ^ 15 else core.apSrc ra), 0)

/-- The result of a defined A syllable. -/
def aResult (c : Chip) (k : Nat) (core : Core) (op : AOp) (x : AArgs) : Dest × Nat × Nat :=
  let rd := x.rd.toNat
  let a := core.rd k x.ra
  let b := core.rd k x.rb
  let i10 := x.imm10
  let g := fun (r : Nat × Nat) => (Dest.gpr (gprIx k core rd), r.1, r.2)
  let sat := asatOf core x.md
  match op with
  | .add => g (arith32 sat (intOf a + intOf b))
  | .sub => g (arith32 sat (intOf a - intOf b))
  | .addi => g (arith32 (bitAt core.mode 3) (intOf a + sext i10 10))
  | .neg => g (arith32 sat (-intOf a))
  | .abs => g (arith32 sat (intOf a).natAbs)
  | .and => g (a &&& b, 0)
  | .or => g (a ||| b, 0)
  | .xor => g (a ^^^ b, 0)
  | .andi => g (a &&& i10, 0)
  | .ori => g (a ||| i10, 0)
  | .xori => g (a ^^^ i10, 0)
  | .not => g (0xFFFFFFFF - a, 0)
  | .shl => g (shift32 0 a (b % 64), 0)
  | .shr => g (shift32 1 a (b % 64), 0)
  | .sra => g (shift32 2 a (b % 64), 0)
  | .ror => g (shift32 3 a (b % 64), 0)
  | .shi => g (shift32 (bits i10 7 6) a (bits i10 5 0), 0)
  | .min => g (if intOf b < intOf a then b else a, 0)
  | .max => g (if intOf a < intOf b then b else a, 0)
  | .clz => g (clz32 a, 0)
  | .cmp => g (if condHolds x.md a b then 1 else 0, 0)
  | .cmpi => g (if condHolds (bits i10 9 7) a (natOf 32 (sext (bits i10 6 0) 7)) then 1 else 0, 0)
  | .sel => g (if (core.rd k (x.md % 8) != 0) != bitAt x.md 3 then a else b, 0)
  | .mov => movResult c k core rd x.ra x.md
  | .movi =>
    let v := sext x.low.toNat 16
    if isGpr rd then g (natOf 32 v, 0)
    else if isAcc k rd then (.acc (rd - 36), natOf 56 (v * 2 ^ 31), 0)
    else (.prod (rd - 40), natOf 48 (v * 2 ^ 31), 0)
  | .movhi => g (x.low.toNat * 65536 + core.rd k rd % 65536, 0)
  | .rnd => g (roundQ23 (rndMode core (bits x.md 3 2)) (rndWrap core (x.md % 4)) (core.apSrc x.ra))
  | .ash => let (v, f) := ash56 (core.apSrc x.ra) (sext i10 10); (.acc (rd - 36), v, f)
  | .adda => let (v, f) := acc56 (core.apSrc x.ra + core.apSrc x.rb); (.acc (rd - 36), v, f)
  | .suba => let (v, f) := acc56 (core.apSrc x.ra - core.apSrc x.rb); (.acc (rd - 36), v, f)
  | .ext => g (ext32 (x.md % 4) a, 0)

/-- A defined A syllable. -/
def Fx.aUnit (fx : Fx) (k : Nat) (core : Core) (op : AOp) (x : AArgs) (addr : Nat) : Fx :=
  match aResult fx.c k core op x with
  | (.acc i, v, f) => { fx with acc := fx.acc ++ [⟨i, true, true, v, f, addr⟩] }
  | (d, v, f) => fx.fly 0 .a d v f addr

/-! ### L class (R91 to R93, R104) -/

/-- Bytes of an L memory operation. -/
def lSize (op : LOp) : Nat :=
  match op with
  | .ldh | .ldhu | .sth => 2
  | .ldb | .ldbu | .stb => 1
  | _ => 4

/-- The operation is a store. -/
def isStore (op : LOp) : Bool :=
  match op with
  | .stw | .sth | .stb | .sta => true
  | _ => false

/-- The operation accesses memory. -/
def isMemL (op : LOp) : Bool :=
  match op with
  | .ldw | .ldh | .ldhu | .ldb | .ldbu | .stw | .sth | .stb | .sta => true
  | _ => false

/-- A word rotated right by 8 × k bits. -/
def rotr8 (w k : Nat) : Nat := w / 256 ^ (k % 4) + w * 256 ^ (4 - k % 4) % 2 ^ 32

/-- What a load returns from the word holding it, at lane `k` (R92, R104). -/
def loadValue (op : LOp) (w k : Nat) : Nat :=
  let r := rotr8 w k
  match op with
  | .ldh => natOf 32 (sext r 16)
  | .ldhu => r % 65536
  | .ldb => natOf 32 (sext r 8)
  | .ldbu => r % 256
  | _ => r

/-- Byte mask and rotated data of a store of `size` bytes at lane `k`. -/
def storeLanes (size k : Nat) (v : Nat) : Nat × Word :=
  let m := (2 ^ size - 1) * 2 ^ k
  (m % 16 ||| m / 16, BitVec.ofNat 32 (rotr8 v (4 - k % 4)))

/-- Offset, post-modification and lane of a memory operation in the segment form (R91, R92). -/
def segForm (k : Nat) (core : Core) (op : LOp) (low : Nat) : Int × Option Int × Nat :=
  let sub := lSize op != 4
  let rx := bits low 11 6
  let step : Int := (if rx = 63 then 0 else intOf (core.rd k rx)) * (2 ^ bits low 5 4 : Nat)
  let imm := if bits low 12 12 = 0 then bits low 11 0 else bits low 2 0
  let woff : Int := (if sub then imm / 4 else imm : Nat)
  let lane := if sub then imm % 4 else 0
  if bits low 12 12 = 0 then (woff, none, lane)
  else if bits low 3 3 = 0 then (step + woff, none, lane)
  else (woff, some step, lane)

/-- The data a store writes, with its flags (STA rounds under MODE). -/
def storeData (k : Nat) (core : Core) (op : LOp) (rt : Nat) : Nat × Nat :=
  match op with
  | .sta => roundQ23 (rndMode core 0) (rndWrap core 0) (core.apSrc rt)
  | _ => (core.rd k rt, 0)

/-- A store in the segment form. -/
def Fx.segSt (fx : Fx) (k : Nat) (core : Core) (op : LOp) (x : LArgs) (addr : Nat) : Fx :=
  let low := x.low.toNat
  let (off, post, lane) := segForm k core op low
  let (v, f) := storeData k core op x.rt.toNat
  let (mask, data) := storeLanes (lSize op) lane v
  let (fb, c, g) := fx.c.segStore k fx.slots (core.seg (bits low 16 13)) off mask data
  let fx1 := { fx with c := c, slots := g, posts := (match post with | some s => [(bits low 16 13, s)] | none => []) ++ fx.posts }
  if f ||| fb = 0 then fx1 else fx1.fly 0 .l .nothing 0 (f ||| fb) addr

/-- A load in the segment form. -/
def Fx.segLd (fx : Fx) (k : Nat) (core : Core) (op : LOp) (x : LArgs) (addr : Nat) : Fx :=
  let low := x.low.toNat
  let (off, post, lane) := segForm k core op low
  let (w, f, c, g) := fx.c.segRead k fx.slots (core.seg (bits low 16 13)) off
  let fx1 := { fx with c := c, slots := g, posts := (match post with | some s => [(bits low 16 13, s)] | none => []) ++ fx.posts }
  fx1.fly 2 .l (.gpr (gprIx k core x.rt.toNat)) (loadValue op w lane) f addr

/-- Address of the CP's or SECP's own memory (R104, R318). -/
def ownMem (k a : Nat) : Bool :=
  if k = 10 then decide (0x10000000 ≤ a) && decide (a < 0x10100000)
  else decide (a < 0x20000) || (decide (0x18000000 ≤ a) && decide (a < 0x18020000))

namespace Chip

/-- The CP's or SECP's own word at aligned address `a`: value, block, uncorrectable (R318). -/
def ownRead (c : Chip) (k a : Nat) : Word × Chip × Bool :=
  match c.eccOf a with
  | 2 =>
    (0, c.when (k == 10) fun c =>
      (c.sticky F.CPMEM_ECC_STATUS_UE 127).setFld F.CPMEM_ECC_ADDR_OFFSET ((a - 0x10000000) / 4), true)
  | 1 =>
    (c.peek a, (c.setEcc a 0).when (k == 10) fun c =>
      (c.sticky F.CPMEM_ECC_STATUS_CE 127).bump F.CPMEM_ECC_STATUS_CE_CNT, false)
  | _ => (c.peek a, c, false)

end Chip

/-- A memory operation in the register-base form (R104, R319). -/
def Fx.busL (fx : Fx) (port : Port) (wait k : Nat) (core : Core) (op : LOp) (x : LArgs) (addr : Nat) : Fx :=
  let low := x.low.toNat
  let ea := natOf 32 ((core.rd k (bits low 16 11) : Int) + sext (bits low 10 0) 11)
  let a := ea / 4 * 4
  let size := lSize op
  if isStore op then
    let (v, f) := storeData k core op x.rt.toNat
    let (mask, data) := storeLanes size (ea % 4) v
    let fx1 := if f = 0 then fx else fx.fly 0 .l .nothing 0 f addr
    if ownMem k a then
      if a < 0x20000 then { fx with fault := some (3, ea) } else { fx1 with c := fx.c.poke a mask data }
    else
      let (c, err) := port.wr fx.c k ea size mask data
      if err then { fx with c := c, fault := some (3, ea) } else { fx1 with c := c, stall := wait }
  else
    let d := Dest.gpr (gprIx k core x.rt.toNat)
    if ownMem k a then
      let (w, c, bad) := fx.c.ownRead k a
      if bad then { fx with c := c, fault := some (5, a) }
      else { fx with c := c }.fly 2 .l d (loadValue op w.toNat (ea % 4)) 0 addr
    else
      let (c, w, err) := port.rd fx.c k ea size
      if err then { fx with c := c, fault := some (2, ea) }
      else { fx with c := c, stall := wait }.fly 0 .l d (loadValue op w.toNat (ea % 4)) 0 addr

/-- A defined L syllable that accesses no memory. -/
def Fx.lReg (fx : Fx) (k : Nat) (core : Core) (op : LOp) (x : LArgs) (addr : Nat) : Fx :=
  let low := x.low.toNat
  let rt := x.rt.toNat
  let d := Dest.gpr (gprIx k core rt)
  let ra := core.rd k (bits low 16 11)
  match op with
  | .addr => fx.fly 0 .l d ((ra + core.rd k (bits low 10 5) * 2 ^ bits low 4 3) % 2 ^ 32) 0 addr
  | .addri => fx.fly 0 .l d (natOf 32 ((ra : Int) + sext (bits low 10 0) 11)) 0 addr
  | .lmov => fx.fly 0 .l d ra 0 addr
  | .segrd => fx.fly 0 .l d ((core.seg (bits low 16 13)).word (bits low 12 11)) 0 addr
  | .segwr => fx.fly 1 .l (.seg (bits low 16 13) (bits low 12 11)) (core.rd k rt) 0 addr
  | .ptradd => { fx with posts := (bits low 16 13, intOf (core.rd k rt)) :: fx.posts }
  | _ => fx

/-! ### X class (R95 to R98) -/

/-- General registers from windowed register `sp` on. -/
def Core.window (core : Core) (k sp n : Nat) : List Nat := (List.range n).map fun i => core.rd k (sp + i)

/-- A defined X syllable. -/
def Fx.xUnit (fx : Fx) (k : Nat) (core : Core) (op : XOp) (x : XArgs) (addr : Nat) : Fx :=
  let d := Dest.gpr (gprIx k core x.rd.toNat)
  let a := core.rd k x.ra.toNat
  let b := core.rd k x.rb.toNat
  let md := x.md.toNat
  let sat := bitAt core.mode 3
  let put := fun (l : Nat) (r : Nat × Nat) => fx.fly (l - 1) .x d r.1 r.2 addr
  let n := core.genN.toNat
  let u := core.genU.toNat
  let gen := fun (fx : Fx) (n u : Nat) => { fx with c := fx.c.modCore k fun y => { y with genN := BitVec.ofNat 32 n, genU := BitVec.ofNat 32 u } }
  match op with
  | .log2 => put 8 (xLog2 md a)
  | .exp2 => put 8 (xExp2 md a)
  | .sincos =>
    let d2 := Dest.gpr (gprIx k core x.rb.toNat)
    match md with
    | 1 => fx.fly 9 .x d (xSin a) 0 addr
    | 2 => fx.fly 9 .x d (xCos a) 0 addr
    | _ => (fx.fly 9 .x d (xSin a) 0 addr).fly 9 .x d2 (xCos a) 0 addr
  | .tanh => put 10 (xTanh md a, 0)
  | .idiv => put 12 (idiv sat a b)
  | .irem => put 12 (irem a b)
  | .udiv => put 12 (udiv a b)
  | .urem => put 12 (urem a b)
  | .fdiv => put 14 (fdiv sat a b)
  | .noise => let (n', r) := noise md n; gen (put 6 (r, 0)) n' u
  | .rand => let u' := stepU u; gen (put 6 (if b = 0 then u' else u' * b / 2 ^ 32, 0)) n u'
  | .seed => fx.fly 5 .x (.seed (if md = 3 then 0 else md)) (max a 1) 0 addr
  | .getstate => put 6 (if md = 1 then u else n, 0)
  | .interp4 =>
    match core.window k x.ra.toNat 4 with
    | [ym, y0, y1, y2] => put 6 (interp4 md ym y0 y1 y2 b)
    | _ => fx
  | .interp6 => put 8 (interp6 (core.window k x.ra.toNat 6) b)

/-! ### Landing (R63 to R68) -/

/-- The kept results among those that land together, given in issue order: `later` are those after the present one,
`best` holds each destination's highest rank before it (R67). -/
def keptFlights : List Flight → List Flight → List Flight
  | _, [] => []
  | before, f :: later =>
    let lose := f.dst != .nothing &&
      (later.any (fun g => g.dst == f.dst && decide (f.cls.rank ≤ g.cls.rank)) ||
        before.any (fun g => g.dst == f.dst && decide (f.cls.rank < g.cls.rank)))
    if lose then keptFlights (before ++ [f]) later else f :: keptFlights (before ++ [f]) later

namespace Chip

/-- Flags set by results. -/
def landFlags (c : Chip) (k flags : Nat) : Chip := if flags = 0 then c else c.setFlags k flags

/-- ENG_FAULT_PC takes the address of the first syllable to set UNDEF while it was clear: the lowest address in `addrs`,
the syllables that set UNDEF in one cycle (log entry 65); `was` is UNDEF before the cycle. -/
def noteUndef (c : Chip) (k : Nat) (was : Bool) (addrs : List Nat) : Chip :=
  match addrs with
  | [] => c
  | a :: l => if was || decide (10 ≤ k) then c else c.setFld (F.ENG_FAULT_PC_ADDR k) (l.foldl min a / 2)

/-- One kept result lands. -/
def landOne (k : Nat) (c : Chip) (f : Flight) : Chip :=
  let c1 := match f.dst with
    | .gpr i => c.modCore k fun x => x.setGpr i f.val
    | .prod i => c.modCore k fun x => x.setProd i f.val
    | .acc i => c.modCore k fun x => x.setAcc i f.val
    | .mode => c.modCore k fun x => { x with mode := f.val }
    | .clrFlags => c.setFld ⟨Reg.ENG_FLAGS k, 8, 0⟩ (maskOff (c.fld ⟨Reg.ENG_FLAGS k, 8, 0⟩) f.val)
    | .seg i w => (c.modCore k fun x => x.setSeg i ((x.seg i).write w f.val)).when (w == 1) (·.settleLength k i)
    | .seed s =>
      let v := BitVec.ofNat 32 f.val
      c.modCore k fun x => { x with
        genN := if s = 1 then x.genN else v
        genU := if s = 0 then x.genU else v }
    | .nothing => c
  c1.landFlags k f.flags

/-- Post-modifications of the cycle: the sum of the steps of each segment (R68), lost where a descriptor write lands. -/
def landPosts (c : Chip) (k : Nat) (posts : List (Nat × Int)) (written : List Nat) : Chip :=
  (List.range 16).foldl (fun c i =>
    let steps := (posts.filter (·.1 == i)).map (·.2)
    if steps.isEmpty || written.contains i then c
    else c.modCore k fun x => x.setSeg i ((x.seg i).advance steps.sum)) c

/-- Accumulator results of the cycle that are kept (R67): an A result is kept over M results, and M results of one bundle
all count. -/
def keptAccs (accs : List AccRes) : List AccRes :=
  accs.filter fun m => m.isA || !accs.any fun g => g.isA && g.ix == m.ix

/-- The kept accumulator results land: an A result as it is; M results add up, with the prior content unless all are clear
forms (R67). -/
def landAccs (c : Chip) (k : Nat) (accs : List AccRes) : Chip :=
  (List.range (accCount k)).foldl (fun c i =>
    match accs.filter (·.ix == i) with
    | [] => c
    | m :: l =>
      let prior : Int := if (m :: l).any (!·.clear) then (c.core k).accM i else 0
      let (v, f) := if m.isA then (natOf 56 m.val, 0) else acc56 ((m :: l).foldl (fun s m => s + m.val) prior)
      (c.modCore k fun x => x.setAcc i v).landFlags k ((m :: l).foldl (fun s m => s ||| m.flags) f)) c

/-- The flags that the cycle has set, where FLAGS held `old` before it (R65). -/
def markFlags (c : Chip) (k old : Nat) : Chip :=
  let new := maskOff (c.fld ⟨Reg.ENG_FLAGS k, 8, 0⟩) old
  c.modCore k fun x => { x with newFlags := new }

/-- The end of a core cycle: accumulator results, post-modifications, and the results whose cycle it is. -/
def endCycle (c : Chip) (k : Nat) (fl : List Flight) (accs : List AccRes) (posts : List (Nat × Int)) : Chip :=
  let core := c.core k
  let all := core.flights ++ fl
  let due := keptFlights [] (all.filter (·.wait == 0))
  let dueAcc := keptAccs accs
  let rest := (all.filter (·.wait != 0)).map fun f => { f with wait := f.wait - 1 }
  let c1 := c.setCore k { core with flights := rest, acc1 := core.acc, acc2 := core.acc1, acc3 := core.acc2 }
  let c2 := c1.landAccs k dueAcc
  let written := due.filterMap fun f => match f.dst with | .seg i _ => some i | _ => none
  let c3 := c2.landPosts k posts written
  let undef := (dueAcc.filter fun m => bitAt m.flags 4).map (·.addr) ++ (due.filter fun f => bitAt f.flags 4).map (·.addr)
  ((due.foldl (landOne k) c3).noteUndef k (c.bit (F.ENG_FLAGS_UNDEF k)) undef).markFlags k (c.fld ⟨Reg.ENG_FLAGS k, 8, 0⟩)

/-- A cycle in which the core issues nothing. -/
def idleCycle (c : Chip) (k : Nat) : Chip := c.endCycle k [] [] []

/-- `n` cycles without issue. -/
def idleCycles : Nat → Chip → Nat → Chip
  | 0, c, _ => c
  | n + 1, c, k => idleCycles n (c.idleCycle k) k

/-- Every result in flight lands and every accumulation is visible: what time does once a core has stopped issuing. -/
def drainCore (c : Chip) (k : Nat) : Chip := (c.idleCycles 16 k).modCore k Core.flush

/-! ### Control flow (R61, R62, R69, R100, R101) -/

end Chip

/-- What the C or B operation of an issue does to the flow of control. -/
inductive Ctl where
  | next
  | win (n : Int)
  | call (target frame : Nat)
  | ret
  | rep (n : Nat) (i : Bool)
  | wait
  | jump (target : Nat)
  deriving DecidableEq, Repr

/-- Size of the address space a core executes in: program memory wraps on an engine. -/
def wrapPc (k : Nat) (a : Int) : Nat := if k < 10 then (a % 262144).toNat else natOf 32 a

/-- Repetitions: 0 means 4096. -/
def repCount (n : Nat) : Nat := if n = 0 then 4096 else n

/-- A defined C syllable at address `addr`. -/
def cFlow (k : Nat) (core : Core) (op : COp) (arg addr : Nat) : Ctl :=
  match op with
  | .nop => .next
  | .win => .win (sext (bits arg 5 0) 6)
  | .call => .call (wrapPc k (addr + 4 * sext (bits arg 21 0) 22)) (8 * max 1 (bits arg 23 22))
  | .ret => .ret
  | .rep => .rep (repCount (bits arg 11 0)) (bitAt arg 12)
  | .repg => .rep (repCount (core.rd k (bits arg 2 0) % 4096)) (bitAt arg 12)
  | .tickwait => .wait

namespace Chip

/-- CALL or RET issues: its transfer waits for the delay bundle. -/
def startXfer (c : Chip) (k : Nat) (core : Core) (ctl : Ctl) : Chip :=
  match ctl with
  | .call target frame =>
    let wb := (core.wb + frame) % pfSize k
    c.modCore k fun x => { x with xfer := some ⟨some target, wb, some core.wb, false,
      (if wb < core.wb then flagWrap else 0) ||| (if core.stack.length = 16 then flagRsovf else 0)⟩ }
  | .ret =>
    match core.stack with
    | (a, wb) :: _ =>
      c.modCore k fun x => { x with xfer := some ⟨some a, wb, none, true, if core.wb < wb then flagWrap else 0⟩ }
    | [] => c.modCore k fun x => { x with xfer := some ⟨none, core.wb, none, false, flagRsunf⟩ }
  | _ => c

/-- The delay bundle of transfer `x` has issued; `next` is the address after it. -/
def endXfer (c : Chip) (k : Nat) (x : Xfer) (next : Nat) : Chip :=
  (c.modCore k fun y => { y with
    xfer := none, wb := x.wb, pc := x.target.getD next
    stack := match x.push with
      | some w => ((next, w) :: y.stack).take 16
      | none => if x.pop then y.stack.drop 1 else y.stack }).landFlags k x.flags

/-- After an issue whose successor is `next`, with control effect `ctl`: the window, the repeat, the transfer,
the program counter. `core` is the core as it stood when it issued. -/
def flow (c : Chip) (k : Nat) (core : Core) (ctl : Ctl) (next : Nat) : Chip :=
  let c1 := match ctl with
    | .win n =>
      let wb := ((core.wb + 8 * n) % (pfSize k : Int)).toNat
      let wr := (decide (0 < n) && decide (wb < core.wb)) || (decide (n < 0) && decide (core.wb < wb))
      (c.modCore k fun x => { x with wb := wb }).landFlags k (if wr then flagWrap else 0)
    | _ => c.startXfer k core ctl
  match core.xfer with
  | some x => c1.endXfer k x next
  | none =>
    match ctl with
    | .rep n i => c1.modCore k fun x => { x with pc := next, repOn := true, repI := i, repcnt := n - 1 }
    | .jump t => c1.modCore k fun x => { x with pc := t }
    | _ =>
      if core.repOn then
        if core.repcnt = 0 then c1.modCore k fun x => { x with pc := next, repOn := false }
        else c1.modCore k fun x => { x with repcnt := core.repcnt - 1 }
      else c1.modCore k fun x => { x with pc := next }

end Chip

/-! ### One issue -/

/-- The unit a syllable takes in its bundle is free (R54, R55): X and C exclude each other. -/
def unitFree (used : List Nat) (s : Syl) : Bool :=
  match s.unit with
  | none => true
  | some u => !used.contains u && !(u == 4 && used.contains 5) && !(u == 5 && used.contains 4)

/-- The syllables of a bundle with those that R55, R62, R69 or R75 make undefined turned into undefined operations. -/
def resolve (k : Nat) (delay rep : Bool) : List Nat → List (Nat × Syl) → List (Nat × Syl)
  | _, [] => []
  | used, (addr, s) :: t =>
    let ok := unitFree used s && sylOk k s && !badC delay rep s
    (addr, if ok then s else s.asUndef) :: resolve k delay rep (s.unit.toList ++ used) t

/-- The L store of a bundle, before its fetches (R125). -/
def Fx.stores (fx : Fx) (k : Nat) (core : Core) (l : List (Nat × Syl)) : Fx :=
  l.foldl (fun fx p => match p.2 with
    | .l op x => if k < 10 ∧ isStore op then fx.segSt k core op x p.1 else fx
    | _ => fx) fx

/-- The M syllable of unit `u`. -/
def Fx.ms (fx : Fx) (k : Nat) (core : Core) (u : Bool) (l : List (Nat × Syl)) : Fx :=
  l.foldl (fun fx p => match p.2 with
    | .m op x => if x.unit = u then fx.mUnit k core op x p.1 else fx
    | .undef .m v d => if v = u then fx.undef k core .m d.toNat p.1 else fx
    | _ => fx) fx

/-- The A syllables. -/
def Fx.as (fx : Fx) (k : Nat) (core : Core) (l : List (Nat × Syl)) : Fx :=
  l.foldl (fun fx p => match p.2 with
    | .a op x => fx.aUnit k core op x p.1
    | .undef .a _ d => fx.undef k core .a d.toNat p.1
    | _ => fx) fx

/-- The L syllables that are not stores. -/
def Fx.ls (fx : Fx) (port : Port) (wait k : Nat) (core : Core) (l : List (Nat × Syl)) : Fx :=
  l.foldl (fun fx p => match p.2 with
    | .l op x =>
      if !isMemL op then fx.lReg k core op x p.1
      else if 10 ≤ k then fx.busL port wait k core op x p.1
      else if isStore op then fx
      else fx.segLd k core op x p.1
    | .undef .l _ d => fx.undef k core .l d.toNat p.1
    | _ => fx) fx

/-- The X and C syllables and the reserved ones. -/
def Fx.xs (fx : Fx) (k : Nat) (core : Core) (l : List (Nat × Syl)) : Fx :=
  l.foldl (fun fx p => match p.2 with
    | .x op x => fx.xUnit k core op x p.1
    | .undef .x _ d => fx.undef k core .x d.toNat p.1
    | .undef .c _ d => fx.undef k core .c d.toNat p.1
    | .reserved => fx.undef k core .c 0 p.1
    | _ => fx) fx

/-- The control effect of the bundle's C syllable. -/
def bundleCtl (k : Nat) (core : Core) (l : List (Nat × Syl)) : Ctl :=
  l.foldl (fun r p => match p.2 with | .c op arg => cFlow k core op arg.toNat p.1 | _ => r) .next

/-- Of the results of `l`, one is kept of each set of tied ones; R67 does not say which, so it is a free value (log entry
64). `kept` are those before `l`. -/
def keepOne {α : Type} [DecidableEq α] (tied : α → α → Bool) (c : Chip) (kept : List α) : List α → Chip × List α
  | [] => (c, kept)
  | f :: l =>
    match kept.find? (tied f) with
    | none => keepOne tied c (kept ++ [f]) l
    | some g =>
      let (w, c) := c.draw
      keepOne tied c (if w.getLsbD 0 then kept.erase g ++ [f] else kept) l

/-- The unit of the syllable at an address of the bundle. -/
def unitAt (l : List (Nat × Syl)) (a : Nat) : Option Nat := (l.find? (·.1 == a)).elim none (·.2.unit)

/-- Two syllables of one unit (the second undefined by R55) that write one register in one cycle leave one result. -/
def Fx.untie (fx : Fx) (l : List (Nat × Syl)) : Fx :=
  let (c1, fl) := keepOne (fun f g : Flight => f.dst != .nothing && f.dst == g.dst && f.wait == g.wait && f.addr != g.addr &&
    unitAt l f.addr == unitAt l g.addr) fx.c [] fx.fl
  let (c2, acc) := keepOne (fun f g : AccRes => f.isA && g.isA && f.ix == g.ix) c1 [] fx.acc
  { fx with c := c2, fl := fl, acc := acc }

/-- All units of one bundle, each with the core as it stood at the start of the cycle; M0 and M1 fetch before L loads
(R114). -/
def runUnits (c : Chip) (port : Port) (wait k : Nat) (core : Core) (l : List (Nat × Syl)) : Fx :=
  ((((((({ c := c } : Fx).stores k core l).ms k core false l).ms k core true l).as k core l).ls port wait k core l).xs k
    core l).untie l

namespace Chip

/-- A bundle of resolved syllables issues (R54, R63): units, control flow, the end of the cycle. `extra` are flags of the
fetch of the sixth syllable (R55), at `next`. The second result is the control effect. -/
def issueSyls (c : Chip) (k : Nat) (l : List (Nat × Syl)) (extra next : Nat) : Chip × Ctl :=
  let core := c.core k
  let fx := runUnits c Port.none 0 k core l
  let ctl := bundleCtl k core l
  let c1 := fx.c.endCycle k fx.fl fx.acc fx.posts
  let c2 := c1.noteUndef k (c1.bit (F.ENG_FLAGS_UNDEF k)) (if extra = 0 then [] else [next])
  (((c2.flow k core ctl next).landFlags k extra).markFlags k (c.fld ⟨Reg.ENG_FLAGS k, 8, 0⟩), ctl)

/-- Words of a bundle from `pc` on: at most five, up to the STOP (R55), with their addresses; `ended` says a STOP came. -/
def bundleWords (c : Chip) (p : Nat) : Nat → Nat → List (Nat × Word) × Bool
  | 0, _ => ([], false)
  | n + 1, pc =>
    let w := c.peek (engBase p + pc)
    if sylStop w then ([(pc, w)], true)
    else
      let (l, e) := bundleWords c p n ((pc + 4) % 262144)
      ((pc, w) :: l, e)

/-- The encoding of the region of engine `p` that holds address `pc`: true for bundle (R57). -/
def bundleRegion (c : Chip) (p pc : Nat) : Bool := c.fbit (F.ENG_ENC_ENC p) (pc / 16384 % 16)

/-- The worst check-bit state of the words fetched. -/
def fetchEcc (c : Chip) (p : Nat) (l : List (Nat × Word)) : Nat :=
  l.foldl (fun m x => max m (c.eccOf (engBase p + x.1))) 0

/-- Corrected and uncorrectable words of a fetch are recorded (R128). -/
def recordFetch (c : Chip) (p : Nat) (l : List (Nat × Word)) : Chip :=
  l.foldl (fun c x =>
    let a := engBase p + x.1
    match c.eccOf a with
    | 2 => c.recordUe p a
    | 1 => c.recordCe p a
    | _ => c) c

/-- A setup exception (R70, R109, R128): HALTED with a REASON, the fault address, event 32+p; results in flight land. -/
def setupException (c : Chip) (p reason addr : Nat) : Chip :=
  ((((c.drainCore p).setEngState p 6).setFld (F.ENG_STATUS_REASON p) reason).setFld (F.ENG_FAULT_PC_ADDR p) (addr / 2)).raise
    (32 + p)

/-- Setup code executes TICKWAIT: SETUP_WAIT (R101), and SCAN where tick mode is requested (R71). -/
def setupWait (c : Chip) (p : Nat) : Chip := (c.drainCore p).setEngState p (if c.bit (F.ENG_CTRL_TICK_EN p) then 3 else 2)

/-- One bundle at the engine's program counter: fetch, R55, issue (R54). -/
def issueBundle (c : Chip) (p : Nat) : Chip × Ctl :=
  let core := c.core p
  let b := c.bundleWords p 5 core.pc
  let syls := b.1.map fun x => (x.1, decodeSyl x.2)
  let next := (core.pc + 4 * b.1.length) % 262144
  let c1 := (c.recordFetch p b.1).modAux p fun a => { a with lastPc := core.pc, lastStore := none }
  c1.issueSyls p (resolve p core.xfer.isSome core.repOn [] syls) (if b.2 then 0 else flagUndef) next

/-! ### Compact code (R102 to R109) -/

/-- Executable memory of the CP and SECP (R319). -/
def executable (k a : Nat) : Bool := k < 10 || ownMem k a

end Chip

/-- The branch is taken (R105). -/
def branchTaken (cond : BCond) (v : Nat) : Bool :=
  match cond with
  | .b | .jr | .jal => true
  | .beqz => v == 0
  | .bnez => v != 0
  | .bltz => decide (intOf v < 0)
  | .bgez => decide (0 ≤ intOf v)
  | .bgtz => decide (0 < intOf v)
  | .blez => decide (intOf v ≤ 0)

/-- RS of a branch is accepted: a general register; B has none. -/
def branchOk (cond : BCond) (rs : Nat) : Bool := cond == .b || isGpr rs

namespace Chip

/-- A branch (R105), taken or not. The outcome is the block and, where the instruction raises an exception, its cause and
address. -/
def issueBranch (c : Chip) (k : Nat) (cond : BCond) (rs : Nat) (off : Int) (addr next : Nat) : Chip × Ctl × Option (Nat × Nat) :=
  let core := c.core k
  if !branchOk cond rs ∨ core.xfer.isSome ∨ core.repOn then (c, .next, some (1, addr))
  else
    let v := core.rd k rs
    let t := if cond = .jr then wrapPc k (v / 2 * 2 : Nat) else wrapPc k (addr + 2 * off)
    if branchTaken cond v then
      if !executable k t then (c, .next, some (4, t))
      else
        let fl : List Flight := if cond = .jal then [⟨0, .a, .gpr (gprIx k core rs), next, 0, addr⟩] else []
        (((c.endCycle k fl [] []).flow k core (.jump t) next).idleCycle k, .jump t, none)
    else ((c.idleCycle k).flow k core .next next, .next, none)

/-- Where a call or a return of core `k` would leave its executable memory, the address. -/
def leaves (core : Core) (k : Nat) (ctl : Ctl) : Option Nat :=
  match ctl with
  | .call t _ => if executable k t then none else some t
  | .ret => core.stack.head?.elim none fun x => if executable k x.1 then none else some x.1
  | _ => none

/-- A syllable alone in compact code (R102, R106). -/
def issueSyl (c : Chip) (port : Port) (wait k : Nat) (s : Syl) (addr next : Nat) : Chip × Ctl × Option (Nat × Nat) :=
  let core := c.core k
  if !sylOk k s ∨ badC core.xfer.isSome core.repOn s then (c, .next, some (1, addr))
  else
    let ctl := bundleCtl k core [(addr, s)]
    let fx := runUnits c port wait k core [(addr, s)]
    let c1 := ((fx.c.endCycle k fx.fl fx.acc fx.posts).flow k core ctl next).markFlags k (c.fld ⟨Reg.ENG_FLAGS k, 8, 0⟩)
    (leaves core k ctl).elim
      (fx.fault.elim (idleCycles fx.stall c1 k, ctl, none) fun f => (fx.c, .next, some f))
      fun t => (c, .next, some (4, t))

/-- A compact instruction of core `k` at `addr` of length `len` (R102 to R107); `wait` are the bus cycles R104 leaves open.
The outcome is the block and, for an instruction that raises an exception, its cause and address. -/
def issueCompact (c : Chip) (port : Port) (wait k : Nat) (ins : Compact) (addr len : Nat) : Chip × Ctl × Option (Nat × Nat) :=
  let core := c.core k
  let next := wrapPc k (addr + len)
  let delay := core.xfer.isSome
  match ins with
  | .undef => (c, .next, some (1, addr))
  | .resume =>
    if k < 10 ∨ c.runlvl k = 0 ∨ delay ∨ core.repOn then (c, .next, some (1, addr))
    else ((c.idleCycle k).resumeFrom k, .next, none)
  | .evwait =>
    if k < 10 ∨ delay then (c, .next, some (1, addr))
    else
      let c1 := (c.idleCycle k).flow k core .next next
      (c1.modAux k fun a => { a with run := if c.evwaitOver k then .running else .waiting }, .next, none)
  | .branch cond rs off => c.issueBranch k cond rs.toNat off addr next
  | .syl s => c.issueSyl port wait k s addr next

/-- The half-word at a program address of core `k`. -/
def fetchHalf (c : Chip) (k a : Nat) : Nat :=
  let base := if k < 10 then engBase k else 0
  let w := (c.peek (base + a / 4 * 4)).toNat
  if a % 4 < 2 then w % 65536 else w / 65536

/-- The compact instruction at `pc` with its length. -/
def fetchCompact (c : Chip) (k pc : Nat) : Compact × Nat :=
  let h := c.fetchHalf k pc
  if isWide h then (decode32 (BitVec.ofNat 32 (h + c.fetchHalf k (wrapPc k (pc + 2)) * 65536)), 4)
  else (decode16 (decide (10 ≤ k)) h, 2)

/-! ### Setup mode -/

/-- After a setup-mode issue: TICKWAIT moves the engine to SETUP_WAIT. -/
def afterSetup (p : Nat) (r : Chip × Ctl) : Chip := if r.2 = .wait then r.1.setupWait p else r.1

/-- A compact instruction of an engine in setup mode, with its exception (R109). -/
def setupCompact (c : Chip) (p : Nat) (ins : Compact) (len : Nat) : Chip :=
  let pc := (c.core p).pc
  match c.issueCompact Port.none 0 p ins pc len with
  | (_, _, some _) => c.setupException p 7 pc
  | (c1, ctl, none) => afterSetup p (c1, ctl)

/-- One issue of engine `p` in SETUP_RUN (R70). -/
def setupIssue (c : Chip) (p : Nat) : Chip :=
  let pc := (c.core p).pc
  let c0 := c.modAux p fun a => { a with lastPc := pc }
  if c.bundleRegion p pc then
    let ws := (c.bundleWords p 5 pc).1
    if c.fetchEcc p ws = 2 then ((c0.recordFetch p ws).detect p 4).setupException p 8 pc
    else afterSetup p (c0.issueBundle p)
  else
    let ws := [(pc / 4 * 4, (0 : Word)), ((pc + 2) / 4 * 4 % 262144, 0)].take (if isWide (c.fetchHalf p pc) then 2 else 1)
    if c.fetchEcc p ws = 2 then ((c0.recordFetch p ws).detect p 4).setupException p 8 pc
    else
      let (ins, len) := c.fetchCompact p pc
      (c0.recordFetch p ws).setupCompact p ins len

/-! ### CP and SECP -/

/-- The outcome of a compact instruction of the CP or SECP, with its fault (R319). -/
def cpFinish (k pc : Nat) (r : Chip × Ctl × Option (Nat × Nat)) : Chip :=
  match r with
  | (c1, _, some (cause, ea)) => (c1.idleCycle k).coreFault k cause ea pc
  | (c1, _, none) => c1

/-- An issue of the CP or SECP, made by `go`: an interrupt that is due is taken first (R320), EVWAIT goes on waiting
(R324). -/
def cpTurn (go : Chip → Chip) (c : Chip) (k : Nat) : Chip :=
  let a := c.auxOf k
  if a.run = .stopped ∨ !c.domOn k then c
  else if a.run = .waiting ∧ !c.evwaitOver k then c
  else
    let c0 := c.setAux k { a with run := .running }
    if c.interruptDue k then c0.takeInterrupt k else go c0

/-- The instruction at the program counter of the CP or SECP, with the faults of its fetch (R319). -/
def cpFetchIssue (port : Port) (wait k : Nat) (c0 : Chip) : Chip :=
  let pc := (c0.core k).pc
  let wide := isWide (c0.fetchHalf k pc)
  if !executable k pc ∨ (wide ∧ !executable k (pc + 2)) then c0.coreFault k 4 (if executable k pc then pc + 2 else pc) pc
  else
    let (_, c1, bad1) := c0.ownRead k (pc / 4 * 4)
    let (_, c2, bad2) := if wide then c1.ownRead k ((pc + 2) / 4 * 4) else (0, c1, false)
    if bad1 ∨ bad2 then c2.coreFault k 5 (if bad1 then pc / 4 * 4 else (pc + 2) / 4 * 4) pc
    else
      let (ins, len) := c2.fetchCompact k pc
      cpFinish k pc (c2.issueCompact port wait k ins pc len)

/-- One issue of the CP or SECP from its memory. -/
def cpIssue (c : Chip) (port : Port) (wait k : Nat) : Chip := cpTurn (cpFetchIssue port wait k) c k

end Chip

end Sys2Proof.Machine
end

