-- ==== Sys2Proof/Machine/EngCtl.lean ====
section
/-! DEFINITION. Engine states (R71), ENG_CTRL (R453), the install scan (R72) and engine holds (R46, R47). -/

namespace Sys2Proof.Machine

/-! ### The install scan (R72) -/

/-- What a scan ends with: PLEN and STORES, or a REASON with the address of the offending syllable. -/
inductive ScanOut where
  | pass (plen stores : Nat)
  | fail (reason addr : Nat)
  deriving DecidableEq, Repr

/-- The first syllable that breaks R54. -/
def slotBreak : List Nat → List (Nat × Syl) → Option Nat
  | _, [] => none
  | used, (addr, s) :: t => if unitFree used s then slotBreak (s.unit.toList ++ used) t else some addr

/-- The first undefined syllable or REP g, in address order: REASON and address. -/
def sylBreak (k : Nat) (delay rep : Bool) : List (Nat × Syl) → Option (Nat × Nat)
  | [] => none
  | (addr, s) :: t =>
    if !sylOk k s || badC delay rep s then some (2, addr)
    else match s with
      | .c .repg _ => some (5, addr)
      | _ => sylBreak k delay rep t

/-- The C syllable of a bundle that has an effect on control flow. -/
def cSyl (l : List (Nat × Syl)) : Option (Nat × COp × Nat) :=
  l.findSome? fun x => match x.2 with | .c op arg => some (x.1, op, arg.toNat) | _ => none

/-- L stores of a bundle. -/
def storeCount (l : List (Nat × Syl)) : Nat :=
  (l.filter fun x => match x.2 with | .l op _ => isStore op | _ => false).length

/-- Where a scan stands: program counter, call stack of return addresses, PLEN and STORES so far, the repetitions of this
bundle (0: not repeated), and the transfer that follows this bundle: its target, and whether the address after this bundle
is pushed. -/
structure ScanPos where
  pc : Nat
  stack : List Nat := []
  plen : Nat := 0
  stores : Nat := 0
  rep : Nat := 0
  after : Option (Nat × Bool) := none
  deriving DecidableEq, Repr

/-- What the scan finds wrong with a bundle of core `p` at `pc` (R55, R72): the reason and the address. -/
def bundleBreak (p : Nat) (delay rep : Bool) (pc : Nat) (l : List (Nat × Syl)) (ended : Bool) : Option (Nat × Nat) :=
  (slotBreak [] l).elim (if ended then sylBreak p delay rep l else some (3, (pc + 16) % 262144)) fun a => some (3, a)

namespace Chip

/-- The bundle the scan of engine `p` stands at (R72), where R55 finds nothing wrong with it: the end of the scan, or where
it goes on. -/
def scanBundle (p : Nat) (x : ScanPos) (l : List (Nat × Syl)) (next : Nat) : ScanOut ⊕ ScanPos :=
  let w := if x.rep = 0 then 1 else x.rep
  let push := (x.after.map (·.2)).getD false
  let y : ScanPos :=
    { pc := x.after.elim next (·.1), stack := if push then next :: x.stack else x.stack, plen := x.plen + w
      stores := x.stores + w * storeCount l }
  match cSyl l with
  | some (a, .call, arg) =>
    if 16 ≤ x.stack.length then .inl (.fail 6 a)
    else .inr { y with after := some (wrapPc p (a + 4 * sext (bits arg 21 0) 22), true) }
  | some (a, .ret, _) =>
    match x.stack with
    | [] => .inl (.fail 6 a)
    | r :: rest => .inr { y with stack := rest, after := some (r, false) }
  | some (_, .rep, arg) => .inr { y with rep := repCount (bits arg 11 0) }
  | some (_, .tickwait, _) => if x.stack.isEmpty then .inl (.pass y.plen y.stores) else .inr y
  | _ => .inr y

/-- One bundle of the scan of engine `p` (R72). -/
def scanStep (c : Chip) (p limit : Nat) (x : ScanPos) : ScanOut ⊕ ScanPos :=
  let b := c.bundleWords p 5 x.pc
  let l := b.1.map fun x => (x.1, decodeSyl x.2)
  if !c.bundleRegion p x.pc then .inl (.fail 4 x.pc)
  else if limit < x.plen + (if x.rep = 0 then 1 else x.rep) then .inl (.fail 1 x.pc)
  else (bundleBreak p x.after.isSome (x.rep != 0) x.pc l b.2).elim (scanBundle p x l ((x.pc + 4 * b.1.length) % 262144))
    fun r => .inl (.fail r.1 r.2)

/-- Follow the tick code of engine `p` in execution order. -/
def scanFrom (c : Chip) (p limit : Nat) : Nat → ScanPos → ScanOut
  | 0, x => .fail 1 x.pc
  | fuel + 1, x => (c.scanStep p limit x).elim id (scanFrom c p limit fuel)

/-- The limit of R45: min(B, B_next). -/
def scanLimit (c : Chip) : Nat := min c.budget c.budgetNext

/-- Tick entry of engine `p` as a byte address. -/
def tickEntry (c : Chip) (p : Nat) : Nat := 4 * c.fld (F.ENG_TICK_ENTRY_ENTRY p)

/-- The install scan of engine `p`. -/
def scan (c : Chip) (p : Nat) : ScanOut := c.scanFrom p c.scanLimit (c.scanLimit + 1) { pc := c.tickEntry p }

/-- SCAN_COMPLETE: the scan ends (R72). -/
def scanComplete (c : Chip) (p : Nat) : Chip :=
  if c.engState p ≠ 3 ∨ (c.auxOf p).passed then c
  else
    match c.scan p with
    | .pass plen stores =>
      (((c.setFld (F.ENG_PLEN_PLEN p) plen).setFld (F.ENG_PLEN_STORES p) (min stores 65535)).setFld
        (F.ENG_STATUS_REPLAY_OFF p) (if 1024 < stores then 1 else 0)).modAux p fun a => { a with passed := true }
    | .fail reason addr =>
      ((((c.setFld (F.ENG_STATUS_REASON p) reason).setFld (F.ENG_FAULT_PC_ADDR p) (addr / 2)).setFld
        (F.ENG_CTRL_TICK_EN p) 0).setEngState p 2).raise (32 + p)

/-! ### ENG_CTRL (R71, R453) -/

/-- HALT. -/
def engHalt (c : Chip) (p : Nat) : Chip :=
  match c.engState p with
  | 1 => (c.drainCore p).setEngState p 6
  | 2 => c.setEngState p 6
  | 3 => (c.setEngState p 6).modAux p fun a => { a with passed := false }
  | 4 => c.modAux p fun a => { a with leave := true }
  | 5 => c.modAux p fun a => { a with leave := true }
  | _ => c

/-- SOFT_RESET: the registers of R58 return to their reset state; FLAGS and memories stay. The logical engine's epoch
advances (R328). -/
def engSoftReset (c : Chip) (p : Nat) : Chip :=
  if c.engState p = 6 ∨ c.engState p = 0 then ((c.setCore p {}).setEngState p 0).epochInc (mEng (c.logi p)) else c

/-- SETUP_GO: setup code starts at ENG_SETUP_PC. -/
def engSetupGo (c : Chip) (p : Nat) : Chip :=
  if c.engState p = 6 ∨ c.engState p = 0 then
    let pc := 2 * c.fld (F.ENG_SETUP_PC_PC p)
    (c.setEngState p 1).modCore p fun x => { x with pc := pc, repOn := false, xfer := none }
  else c

/-- TICK_EN takes a new value. -/
def engTickEn (c : Chip) (p : Nat) (on : Bool) : Chip :=
  let c1 := c.setFld (F.ENG_CTRL_TICK_EN p) (if on then 1 else 0)
  let st := c.engState p
  if on then (if st = 2 then c1.setEngState p 3 else c1)
  else if st = 3 then (c1.setEngState p 2).modAux p fun a => { a with passed := false }
  else if st = 4 ∨ st = 5 then c1.modAux p fun a => { a with leave := true }
  else c1

/-- A write of ENG_CTRL (R453). -/
def writeEngCtrl (c : Chip) (p v : Nat) : Chip :=
  (((c.when (bitAt v 3) (·.engHalt p)).when (bitAt v 4) (·.engSoftReset p)).when (bitAt v 2) (·.engSetupGo p)).engTickEn p
    (bitAt v 0)

/-- The engine leaves tick mode (R71). -/
def leaveTick (c : Chip) (p : Nat) : Chip :=
  let e := c.tickEntry p
  ((c.setEngState p 6).modCore p fun x => { x with pc := e, repOn := false, xfer := none }).modAux p fun a =>
    { a with leave := false, shadowBad := false, lastPc := e }

/-! ### Holds (R46, R47) -/

/-- PLEN of engine `p`. -/
def plen (c : Chip) (p : Nat) : Nat := c.fld (F.ENG_PLEN_PLEN p)

/-- Engine `p` enters hold. -/
def engHold (c : Chip) (p : Nat) : Chip :=
  (((c.setEngState p 5).setFbit F.TICK_HOLD_HELD p).setFld F.TICK_STATUS_HOLD_EVT 1).raise 53

/-- The check of R46 on engine `p`. -/
def checkHold (c : Chip) (p : Nat) : Chip := if c.inTick p && decide (c.budget < c.plen p) then c.engHold p else c

/-- Every engine is checked. -/
def checkHolds (c : Chip) : Chip := (List.range 10).foldl checkHold c

/-- A write of 1 to bit `p` of TICK_HOLD (R47). -/
def holdRelease (c : Chip) (p : Nat) : Chip :=
  let c1 := c.clrFbit F.TICK_HOLD_HELD p
  if c.engState p = 5 ∧ c.plen p ≤ c.budget then c1.setEngState p 4 else c1

/-- At the start of a tick: a held engine whose PLEN exceeds B has its bit set again (R47). -/
def rehold (c : Chip) : Chip :=
  (List.range 10).foldl (fun c p => c.when (c.engState p == 5 && decide (c.budget < c.plen p)) (·.setFbit F.TICK_HOLD_HELD p)) c

end Chip

end Sys2Proof.Machine
end

