-- ==== Sys2Proof/Machine/Clocks.lean ====
section
/-! DEFINITION. The tick generator's controls (R41 to R51) and the clock block: PLLs, the safe clock, reference tracking
(spec/12). -/

namespace Sys2Proof.Machine

namespace Chip

/-- Change the tick generator's state. -/
def modTick (c : Chip) (f : Tick → Tick) : Chip := { c with tick := f c.tick }

/-- Change the clock block's state. -/
def modClk (c : Chip) (f : Clk → Clk) : Chip := { c with clk := f c.clk }

/-- The tick is stopped or paused: no tick is in progress and none begins by itself (R43). -/
def halted (c : Chip) : Bool := !c.bit F.TICK_STATUS_RUNNING || c.bit F.TICK_STATUS_PAUSED

/-! ### Tick control (R41 to R44, R50) -/

/-- ALARM_EN goes from 0 to 1 (R44). -/
def alarmArm (c : Chip) : Chip :=
  let t := c.reg64 Reg.STC_ALARM_LO Reg.STC_ALARM_HI
  c.modTick fun x => { x with alarm := BitVec.ofNat 64 t, alarmLate := decide (t ≤ c.now) }

/-- STC_LOAD is written 1 (R43). -/
def stcLoad (c : Chip) : Chip :=
  let v := BitVec.ofNat 64 (c.reg64 Reg.STC_LOAD_LO Reg.STC_LOAD_HI)
  if c.halted && c.tick.phase == .idle then c.modTick fun x => { x with stc := v, load := none }
  else c.modTick fun x => { x with load := some v }

/-- RUN written 0 outside a tick stops the tick at once. -/
def runStop (c : Chip) : Chip :=
  if c.tick.phase = .idle then (c.setFld F.TICK_STATUS_RUNNING 0).setFld F.TICK_STATUS_PAUSED 0 else c

/-- A write of TICK_CTRL. -/
def writeTickCtrl (c : Chip) (v : Nat) : Chip :=
  let c1 := c.when (bitAt v 2 && !c.bit F.TICK_CTRL_ALARM_EN) alarmArm
  let c2 := ((c1.setFld F.TICK_CTRL_ALARM_EN (bits v 2 2)).setFld F.TICK_CTRL_RUN (bits v 0 0)).when (bitAt v 3) stcLoad
  c2.when (!bitAt v 0) runStop

/-- A read of STC_LO by master `id`: bits 31:0, and bits 63:32 go to its shadow (R42). -/
def readStcLo (c : Chip) (id : Nat) : Word × Chip :=
  (BitVec.ofNat 32 c.now,
    c.modTick fun x => { x with shadows := Tab.set (fun _ => 0) x.shadows id (BitVec.ofNat 32 (c.now / 2 ^ 32)) })

/-- A read of STC_HI by master `id`. -/
def readStcHi (c : Chip) (id : Nat) : Word := Tab.get (fun _ => 0) c.tick.shadows id

/-- The alarm is compared in phase-0 cycle 0 (R44). -/
def alarmCheck (c : Chip) : Chip :=
  if c.bit F.TICK_CTRL_ALARM_EN ∧ (c.tick.alarm.toNat ≤ c.now ∨ c.tick.alarmLate) then
    ((c.setFld F.TICK_CTRL_ALARM_EN 0).raise 54).when (c.tick.alarmLate || decide (c.tick.alarm.toNat < c.now))
      (·.setFld F.TICK_STATUS_ALARM_LATE 1)
  else c

/-! ### Cadence and ECLK changes (R48, R49, R275) -/

/-- The change takes effect: late where T was not later than the STC (R48). -/
def chgLate (c : Chip) : Chip := (c.setFld F.TICK_STATUS_CHG_LATE 1).raise 53

/-- A committed change names the tick T: 0 for the next tick. -/
def commitAt (c : Chip) (atMode : Bool) (lo hi : Nat) : Nat × Bool :=
  if atMode then (c.reg64 lo hi, decide (c.reg64 lo hi ≤ c.now)) else (0, false)

/-- The pause of a family change begins (R49): AUDPLL retunes. -/
def familyPause (c : Chip) : Chip :=
  match c.tick.cadence with
  | some (code, _, late) =>
    let c1 := (((c.modTick fun x => { x with cadence := none, family := some code, famReady := false }).setFld
      F.TICK_CADENCE_PENDING 0).setFld F.CLK_STATUS_AUD_LOCK 0).setFld F.TICK_STATUS_PAUSED 1
    (c1.when late chgLate).refreshBudget
  | none => c

/-- A committed change goes to the other family. -/
def otherFamily (c : Chip) (code : Nat) : Bool := code % 2 != c.rate % 2

/-- The next tick is T or later. -/
def dueNext (c : Chip) (t : Nat) : Bool := decide (t ≤ c.now + 1)

/-- A family change is due at the next tick: the pause begins now (R49). -/
def familyDue (c : Chip) : Bool :=
  match c.tick.cadence with
  | some (code, t, _) => c.otherFamily code && c.dueNext t
  | none => false

/-- COMMIT of RATE_NEXT (R48). -/
def cadenceCommit (c : Chip) : Chip :=
  if c.bit F.TICK_CADENCE_PENDING then c
  else
    let (t, late) := c.commitAt (c.bit F.TICK_CADENCE_AT_MODE) Reg.TICK_CHANGE_AT_LO Reg.TICK_CHANGE_AT_HI
    let t' := if t = 0 ∧ c.tick.phase = .p0 then c.now + 1 else t
    let c1 := ((c.modTick fun x => { x with cadence := some (c.fld F.TICK_CADENCE_RATE_NEXT, t', late) }).setFld
      F.TICK_CADENCE_PENDING 1).refreshBudget
    c1.when (c1.tick.phase == .idle && c1.familyDue) familyPause

/-- CANCEL of a pending cadence change. -/
def cadenceCancel (c : Chip) : Chip :=
  ((c.modTick fun x => { x with cadence := none }).setFld F.TICK_CADENCE_PENDING 0).refreshBudget

/-- A write of TICK_CADENCE: CANCEL acts before COMMIT; neither acts while the tick is paused (R48). -/
def writeCadence (c : Chip) (v : Nat) : Chip :=
  let c1 := (c.setFld F.TICK_CADENCE_AT_MODE (bits v 30 30)).setFld F.TICK_CADENCE_RATE_NEXT (bits v 2 0)
  if c.bit F.TICK_STATUS_PAUSED then c1
  else (c1.when (bitAt v 28) cadenceCancel).when (bitAt v 29) cadenceCommit

/-- A cadence takes effect. -/
def cadenceTake (c : Chip) (code : Nat) : Chip :=
  ((c.setFld F.TICK_CADENCE_RATE code).setFld F.TICK_CADENCE_PENDING 0).modTick fun x => { x with cadence := none }

/-- ECLK takes effect. -/
def eclkTake (c : Chip) (code : Nat) : Chip :=
  ((c.setFld F.CLK_ECLK_DIV code).setFld F.CLK_ECLK_PENDING 0).modTick fun x => { x with eclk := none }

/-- Cadence and ECLK changes due in phase-0 cycle 0 of the tick that now begins, and the check of R46. -/
def changesDue (c : Chip) : Chip :=
  let c1 := match c.tick.family, c.tick.famReady with
    | some code, true =>
      (((c.setFld F.TICK_CADENCE_RATE code).setFld F.TICK_STATUS_PAUSED 0).modTick fun x =>
        { x with family := none, famReady := false })
    | _, _ => c
  let c2 := match c1.tick.cadence with
    | some (code, t, late) =>
      if t ≤ c1.now ∧ !c1.otherFamily code then
        (c1.cadenceTake code).when (late || decide (t ≠ 0 ∧ t < c1.now)) chgLate
      else c1
    | none => c1
  let c3 := match c2.tick.eclk with
    | some (code, t, late) =>
      if t ≤ c2.now then (c2.eclkTake code).when (late || decide (t ≠ 0 ∧ t < c2.now)) chgLate else c2
    | none => c2
  let changed := c3.rate != c.rate || c3.eclkDiv != c.eclkDiv || c.tick.eclk.isSome && c3.tick.eclk.isNone
  c3.refreshBudget.when changed checkHolds

/-- COMMIT of DIV_NEXT (R275): at once while the tick is stopped. -/
def eclkCommit (c : Chip) : Chip :=
  if c.bit F.CLK_ECLK_PENDING then c
  else
    let code := c.fld F.CLK_ECLK_DIV_NEXT
    if !c.bit F.TICK_STATUS_RUNNING ∧ c.tick.phase = .idle then ((c.eclkTake code).refreshBudget).checkHolds
    else
      let (t, late) := c.commitAt (c.bit F.CLK_ECLK_AT_MODE) Reg.CLK_ECLK_AT_LO Reg.CLK_ECLK_AT_HI
      let t' := if t = 0 ∧ c.tick.phase = .p0 then c.now + 1 else t
      ((c.modTick fun x => { x with eclk := some (code, t', late) }).setFld F.CLK_ECLK_PENDING 1).refreshBudget

/-- CANCEL of a pending ECLK change. -/
def eclkCancel (c : Chip) : Chip :=
  ((c.modTick fun x => { x with eclk := none }).setFld F.CLK_ECLK_PENDING 0).refreshBudget

/-- A write of CLK_ECLK. -/
def writeClkEclk (c : Chip) (v : Nat) : Chip :=
  let c1 := (c.setFld F.CLK_ECLK_AT_MODE (bits v 30 30)).setFld F.CLK_ECLK_DIV_NEXT (bits v 1 0)
  (c1.when (bitAt v 28) eclkCancel).when (bitAt v 29) eclkCommit

/-! ### The control value (R272) -/

/-- The control value in force. -/
def cval (c : Chip) : Int := sext (c.fld F.TRK_CVAL_C) 16

/-- Limit of R272. -/
def cLimit (x : Int) : Int := clampI (-16777) 16777 x

/-- AUDPLL's integer ratio (R273). -/
def audN (c : Chip) : Int := if c.rate % 2 = 0 then 147 else 128

/-- A new control value, and the fraction words that follow from it. -/
def setC (c : Chip) (v : Int) : Chip :=
  let x := cLimit v
  ((c.setFld F.TRK_CVAL_C (natOf 16 x)).setReg Reg.AUD_FRAC (BitVec.ofInt 32 (c.audN * x))).setReg Reg.SYS_FRAC
    (BitVec.ofInt 32 (144 * x))

/-! ### Gated outputs (R280) -/

/-- SRC as it acts: 12 to 15 act as 0 (R277). -/
def trkSrc (c : Chip) : Nat := let s := c.fld F.TRK_CTRL_SRC; if 11 < s then 0 else s

/-- NUM as it acts. -/
def trkNum (c : Chip) : Nat := max 1 (c.fld F.TRK_CTRL_NUM)

/-- DEN as it acts. -/
def trkDen (c : Chip) : Nat := max 1 (c.fld F.TRK_CTRL_DEN)

/-- The source is phase-tracked (R277). -/
def phaseTracked (c : Chip) : Bool :=
  c.trkDen == 1 && decide (c.trkNum ≤ 16) && c.trkSrc != 10 && c.trkSrc != 0

/-- Reference-slaved outputs stop low (R280). -/
def gateSlaved (c : Chip) : Chip :=
  let c1 := (c.setFld F.TRK_STATUS_GATED 1).setFld F.WCLK_CTRL_RUNNING 0
  (List.range 4).foldl (fun c k => c.when (c.bit (F.MCLK_CTRL_SLAVED k)) (·.setFld (F.MCLK_CTRL_RUNNING k) 0)) c1

/-- MCLK and WCLK outputs that wait for a tick edge start at E(n) (R248, R276, R280). -/
def outputsStart (c : Chip) : Chip :=
  let gated := c.bit F.TRK_STATUS_GATED
  let c1 := c.when (c.bit F.WCLK_CTRL_EN && !(gated && c.trkSrc != 0)) (·.setFld F.WCLK_CTRL_RUNNING 1)
  (List.range 4).foldl (fun c k =>
    c.when (c.bit (F.MCLK_CTRL_EN k) && c.domOn 12 && !(gated && c.bit (F.MCLK_CTRL_SLAVED k) && c.trkSrc != 0))
      (·.setFld (F.MCLK_CTRL_RUNNING k) 1)) c1

/-- A write of WCLK_CTRL: cleared, the output stops low; set, it starts at the next E(n). -/
def writeWclk (c : Chip) (v : Nat) : Chip :=
  (c.setFld F.WCLK_CTRL_EN (bits v 31 31)).when (!bitAt v 31) (·.setFld F.WCLK_CTRL_RUNNING 0)

/-! ### Reference tracking (R277 to R285) -/

/-- TRK_STATUS.STATE. -/
def trkState (c : Chip) : Nat := c.fld F.TRK_STATUS_STATE

/-- Change it. -/
def setTrk (c : Chip) (s : Nat) : Chip := c.setFld F.TRK_STATUS_STATE s

/-- PERR as an integer. -/
def perr (c : Chip) : Int := sext (c.fld F.TRK_STATUS_PERR) 16

/-- C_HOLD: the mean of c over the last 256 ticks, rounded to the nearest unit. -/
def cMean (c : Chip) : Int :=
  match c.clk.hist with
  | [] => c.cval
  | l => (2 * l.foldl (· + ·) 0 + l.length) / (2 * l.length : Nat)

/-- The reference is lost (R279): freewheel. -/
def trkLoss (c : Chip) (why : Nat) : Chip :=
  let m := c.cMean
  let c1 := ((c.setC m).setFld F.TRK_CVAL_C_HOLD (natOf 16 (cLimit m))).setFld F.TRK_STATUS_LOSS why
  (((c1.setTrk 3).sticky F.TRK_STATUS_FREEWHEEL 78).gateSlaved).modClk fun x =>
    { x with back := false, acquired := false, slewed := false, fine := 0, snapReq := false }

/-- The states in which a loss counts. -/
def trackingNow (c : Chip) : Bool := c.trkState == 2 || c.trkState == 4 || c.trkState == 5

/-- Loss of the reference where one is tracked; none while TLK_TICK is the source and the tick is paused (R222, R284). -/
def refLoss (c : Chip) (why : Nat) : Chip :=
  if c.trackingNow && !(c.trkSrc == 11 && c.bit F.TICK_STATUS_PAUSED) then c.trkLoss why else c

/-- Freewheel of a promoted follower's loop (R222). -/
def freewheel (c : Chip) : Chip := if c.trackingNow then c.trkLoss 1 else c

/-- A write of TRK_CTRL: SRC, NUM or DEN change (R279, R285); SNAP requests the snap of RET = 3. -/
def writeTrkCtrl (c : Chip) (v : Nat) : Chip :=
  let old := (c.trkSrc, c.trkNum, c.trkDen)
  let c1 := c.setReg Reg.TRK_CTRL (BitVec.ofNat 32 (maskOff v (63 * 2 ^ 17 + 2 ^ 23)))
  let c2 :=
    if (c1.trkSrc, c1.trkNum, c1.trkDen) = old then c1
    else
      let lost := if c1.trackingNow then c1.trkLoss 3 else c1
      if c1.trkSrc = 0 then
        ((lost.setTrk 0).setFld F.TRK_STATUS_GATED 0).modClk fun x => { x with offTicks := 0, acquired := false }
      else if lost.trkState = 3 then lost
      else ((lost.setTrk 1).gateSlaved).modClk fun x => { x with acquired := false, back := false, slewed := false }
  c2.when (bitAt v 23) (·.modClk fun x => { x with snapReq := true })

/-- Alignment begins after acquisition or return (R278, R281): frequency only, step by step with TLK_TICK, or by RET. -/
def trkAlign (c : Chip) (perr : Int) : Chip :=
  if !c.phaseTracked then ((c.setTrk 1).setFld F.TRK_STATUS_PERR 0).modClk fun x => { x with acquired := true, slewed := true }
  else if c.trkSrc = 11 then
    ((c.setTrk 1).setFld F.TRK_STATUS_PERR (natOf 16 perr)).modClk fun x => { x with acquired := true, slewed := true }
  else
    let c1 := c.setFld F.TRK_STATUS_PERR (natOf 16 perr)
    if c.fld F.TRK_CTRL_RET = 0 then
      (c1.setTrk 4).modClk fun x => { x with fine := perr.natAbs * (256 * c.trkNum : Nat), slewed := false, acquired := true }
    else (c1.setTrk 5).modClk fun x => { x with slewed := false, acquired := true, snapReq := false }

/-- TRK_ACQUIRE: sixteen edges have been measured (R278). While the tick is stopped alignment is immediate. -/
def trkAcquire (c : Chip) (cRef perr : Int) : Chip :=
  if c.trkState ≠ 1 ∨ c.clk.acquired then c
  else
    let c1 := (c.setC cRef).modClk fun x => { x with cRef := cLimit cRef }
    if c.halted then (c1.setFld F.TRK_STATUS_PERR 0).modClk fun x => { x with acquired := true, slewed := true }
    else c1.trkAlign perr

/-- TRK_REF_BACK: sixteen edges in range while freewheeling (R281). -/
def trkRefBack (c : Chip) (cRef perr : Int) : Chip :=
  if c.trkState ≠ 3 ∨ c.trkSrc = 0 then c
  else
    let c1 := (c.sticky F.TRK_STATUS_REF_BACK 79).modClk fun x => { x with cRef := cLimit cRef, back := true }
    c1.trkAlign perr

/-- The phase error has come within 256 units: c returns to the estimate (R281). -/
def slewComplete (c : Chip) : Chip :=
  if c.trkState = 4 ∧ !c.clk.slewed ∧ c.clk.fine ≤ 256 * (256 * c.trkNum : Nat) then
    (c.setC c.clk.cRef).modClk fun x => { x with slewed := true }
  else c

/-- TRK_LOCK: 64 edges within bound, the last with phase error `perr` (R278, R281). -/
def trkLock (c : Chip) (perr : Int) : Chip :=
  let ok := (c.trkState == 1 && c.clk.acquired) || ((c.trkState == 4 || c.trkState == 5) && c.clk.slewed)
  if !ok then c
  else
    let c1 := (c.setTrk 2).setFld F.TRK_STATUS_GATED 0
    let c2 := c1.setFld F.TRK_STATUS_PERR (if c.phaseTracked then natOf 16 (clampI (-256) 256 perr) else 0)
    (c2.when c.clk.back (·.sticky F.TRK_STATUS_PHASE_DONE 79)).modClk fun x => { x with back := false, slewed := false }

/-- The snap of this tick is due (R282). -/
def snapDue (c : Chip) : Bool :=
  c.trkState == 5 && !c.clk.slewed &&
    (match c.fld F.TRK_CTRL_RET with
      | 1 =>
        let m := (c.reg Reg.TRK_SIL_MASK).toNat
        maskOff m (c.reg (Reg.SIL_STATE (c.fld F.TRK_PHASE_SIL_WORD))).toNat == 0
      | 2 => decide (c.reg64 Reg.TRK_SNAP_AT_LO Reg.TRK_SNAP_AT_HI ≤ c.now)
      | 3 => c.clk.snapReq
      | _ => false)

/-- The snap (R282, R283) but for the ASRC: outputs stop low until the next tick edge; PERR then reads some value within
256 units. -/
def trkSnap (c : Chip) : Chip :=
  let (w, c0) := c.draw
  let e := clampI (-256) 256 w.toInt
  let c1 := ((c0.sticky F.TRK_STATUS_SNAPPED 79).setFld F.TRK_STATUS_PERR (natOf 16 e)).setFld F.WCLK_CTRL_RUNNING 0
  ((List.range 4).foldl (fun c k => c.setFld (F.MCLK_CTRL_RUNNING k) 0) c1).modClk fun x =>
    { x with slewed := true, snapReq := false }

/-- c moves one unit toward 0 (R285). -/
def cDecay (c : Chip) : Chip :=
  if c.trkState = 0 ∧ 1024 ≤ c.clk.offTicks then
    let v := c.cval
    (c.setC (if 0 < v then v - 1 else if v < 0 then v + 1 else 0)).modClk fun x => { x with offTicks := x.offTicks - 1024 }
  else c

/-- What the loop does in one tick: the control value of R278 to R285. In LOCKED and WAIT_SNAP it is what the loop makes of
the reference. -/
def trkTick (c : Chip) : Chip :=
  let c1 :=
    match c.trkState with
    | 0 => c.cDecay.modClk fun x => { x with offTicks := x.offTicks + 1 }
    | 1 =>
      if c.clk.acquired && c.clk.back then
        let d := clampI (-167) 167 (c.clk.cRef - c.cval)
        c.setC (c.cval + d)
      else c
    | 2 => let (w, d) := c.draw; d.setC w.toInt
    | 4 =>
      let s := c.slewComplete
      if s.clk.slewed then s
      else
        let later := decide (0 ≤ s.perr)
        let fine := s.clk.fine - 167
        let mag : Int := fine / (256 * s.trkNum : Nat)
        ((s.setC (s.clk.cRef + (if later then -167 else 167))).setFld F.TRK_STATUS_PERR
          (natOf 16 (if later then mag else -mag))).modClk fun x => { x with fine := fine }
    | 5 => let (w, d) := c.draw; d.setC w.toInt
    | _ => c
  c1.modClk fun x => { x with hist := (c1.cval :: x.hist).take 256 }

/-! ### PLLs and the safe clock (R286 to R288) -/

/-- The clocks run from SAFECLK or the RC oscillator. -/
def goSafe (c : Chip) : Chip := (c.setFld F.CLK_STATUS_SAFE 1).setFld F.TICK_STATUS_SAFE_ECLK 1

/-- SYSPLL's outputs are gated and relock begins (R286, steps 1 and 2). -/
def sysRelock (c : Chip) : Chip :=
  (((c.setFld F.CLK_STATUS_SYS_LOCK 0).sticky F.CLK_STATUS_SYS_UNLOCK 76).goSafe).modClk fun x =>
    { x with sysTry := false, backDue := false }

/-- The clocks switch back (R286, step 4); installed lengths are checked again (R51, R289). -/
def goBack (c : Chip) : Chip :=
  ((((c.setFld F.CLK_STATUS_SAFE 0).setFld F.TICK_STATUS_SAFE_ECLK 0).sticky F.CLK_STATUS_SYS_RELOCK 76).modClk fun x =>
    { x with backDue := false }).checkHolds

/-- SYSPLL locks. -/
def sysLocked (c : Chip) : Chip :=
  if c.bit F.CLK_STATUS_SYS_LOCK then c
  else
    let c1 := (c.setFld F.CLK_STATUS_SYS_LOCK 1).modClk fun x => { x with sysTry := false }
    if !c.bit F.CLK_STATUS_SAFE then c1
    else if c.tick.phase = .idle then c1.goBack
    else c1.modClk fun x => { x with backDue := true }

/-- SYSPLL does not lock in time: one restart, then SYS_FAIL. -/
def sysTimeout (c : Chip) : Chip :=
  if c.bit F.CLK_STATUS_SYS_LOCK then c
  else if c.clk.sysTry then (c.sticky F.CLK_STATUS_SYS_FAIL 76).modClk fun x => { x with sysTry := false }
  else c.modClk fun x => { x with sysTry := true }

/-- The tick pauses: now between ticks, else at the end of phase 2 (R287, R288). -/
def pauseTick (c : Chip) : Chip :=
  if !c.bit F.TICK_STATUS_RUNNING then c
  else if c.tick.phase = .idle then c.setFld F.TICK_STATUS_PAUSED 1
  else c.modClk fun x => { x with pauseDue := true }

/-- AUDPLL loses lock (R287). -/
def audUnlock (c : Chip) : Chip :=
  (((c.setFld F.CLK_STATUS_AUD_LOCK 0).sticky F.CLK_STATUS_AUD_UNLOCK 77).modClk fun x => { x with audTry := false }).pauseTick

/-- The dither LFSR loads the seed (R274). -/
def seedLoad (c : Chip) : Chip :=
  c.modClk fun x => { x with lfsr := BitVec.ofNat 23 (max 1 (c.fld F.AUD_CFG_SEED)) }

/-- AUDPLL locks (R273, R287): a paused tick resumes at the first edge. -/
def audLocked (c : Chip) : Chip :=
  if c.bit F.CLK_STATUS_AUD_LOCK then c
  else
    let c1 := (((c.setFld F.CLK_STATUS_AUD_LOCK 1).sticky F.CLK_STATUS_AUD_LOCKED 77).seedLoad).modClk fun x =>
      { x with audTry := false, pauseDue := false }
    if c.tick.family.isSome then c1.modTick fun x => { x with famReady := true }
    else c1.setFld F.TICK_STATUS_PAUSED 0

/-- AUDPLL does not lock in time. -/
def audTimeout (c : Chip) : Chip :=
  if c.bit F.CLK_STATUS_AUD_LOCK then c
  else if c.clk.audTry then (c.sticky F.CLK_STATUS_AUD_FAIL 77).modClk fun x => { x with audTry := false }
  else c.modClk fun x => { x with audTry := true }

/-- The reference fails (R288). -/
def xtalFail (c : Chip) : Chip :=
  (((c.setFld F.CLK_STATUS_XTAL_OK 0).sticky F.CLK_STATUS_XTAL_FAIL 76).goSafe).pauseTick

/-- The reference is back (R288): both PLLs relock where it had failed. -/
def xtalOk (c : Chip) : Chip :=
  let c1 := c.setFld F.CLK_STATUS_XTAL_OK 1
  if c.bit F.CLK_STATUS_XTAL_OK then c
  else if c.bit F.CLK_STATUS_SAFE then c1.sysRelock.audUnlock
  else c1

/-- A write of CLK_CFG: SYS_RESTART; REFCLK_SEL is ignored while the tick runs. -/
def writeClkCfg (c : Chip) (v : Nat) : Chip :=
  (c.when (!c.bit F.TICK_STATUS_RUNNING) (·.setFld F.CLK_CFG_REFCLK_SEL (bits v 0 0))).when (bitAt v 31) sysRelock

/-- A write of AUD_CFG. -/
def writeAudCfg (c : Chip) (v : Nat) : Chip :=
  ((c.setFld F.AUD_CFG_DITHER (bits v 31 31)).setFld F.AUD_CFG_SEED (bits v 22 0)).when (bitAt v 30) seedLoad

end Chip

end Sys2Proof.Machine
end

