-- ==== Sys2Proof/Machine/Pannier.lean ====
section
/-! DEFINITION. Pannier banks, group swaps, copy-forward and glide channels (spec/07). -/

namespace Sys2Proof.Machine

namespace Chip

/-- A swap slot's captured state. -/
def slot (c : Chip) (k : Nat) : SwapSlot := Tab.get (fun _ => {}) c.pan.slots k

/-- Write it. -/
def setSlot (c : Chip) (k : Nat) (v : SwapSlot) : Chip :=
  { c with pan := { c.pan with slots := Tab.set (fun _ => {}) c.pan.slots k v } }

/-- A glide channel. -/
def glide (c : Chip) (k : Nat) : Glide := Tab.get (fun _ => {}) c.pan.glides k

/-- Write it. -/
def setGlide (c : Chip) (k : Nat) (v : Glide) : Chip :=
  { c with pan := { c.pan with glides := Tab.set (fun _ => {}) c.pan.glides k v } }

/-- The channels listed, in order. -/
def glideIxs (c : Chip) : List Nat := c.pan.glides.map (·.1)

/-- The block is powered and not in retention (R175). -/
def panOn (c : Chip) : Bool := c.domOn 10

/-- The word's dirty bit. -/
def dirty (c : Chip) (l w : Nat) : Bool := Tab.get (fun _ => false) c.pan.dirty (l * 2 ^ 15 + w)

/-- Set it. -/
def setDirty (c : Chip) (l w : Nat) : Chip :=
  { c with pan := { c.pan with dirty := Tab.set (fun _ => false) c.pan.dirty (l * 2 ^ 15 + w) true } }

/-- Clear a logical engine's dirty bitmap. -/
def clearDirty (c : Chip) (l : Nat) : Chip :=
  { c with pan := { c.pan with dirty := Tab.keep (fun k => k / 2 ^ 15 != l) c.pan.dirty } }

/-- An armed slot names logical engine `l` (R158); `but` is a slot left out. -/
def armedNames (c : Chip) (l but : Nat) : Bool :=
  (List.range 4).any fun k => k != but && c.bit (F.SWAP_CTRL_ARMED k) && c.fbit (F.SWAP_CTRL_MASK k) l

/-! ### Arming and disarming (R159 to R162) -/

/-- DISARM of slot `k` (R162): its synchronised glide settings are discarded; in phase-0 cycles 0 to 2 of the tick in which
the slot executes it is ignored. -/
def disarm (c : Chip) (k : Nat) : Chip :=
  if c.bit (F.SWAP_CTRL_ARMED k) && !(c.tick.stage != 0 && c.tick.due.contains k) then
    c.glideIxs.foldl (fun c ch =>
      let g := c.glide ch
      match g.next with
      | some n =>
        if bits n.ctrl.toNat 22 22 = 1 ∧ bits n.ctrl.toNat 21 20 = k ∧ !n.caught then c.setGlide ch { g with next := none } else c
      | none => c) (c.setFld (F.SWAP_CTRL_ARMED k) 0)
  else c

/-- Why an arm of slot `k` is rejected, 0 for none; the lowest code that holds. -/
def armReject (c : Chip) (k mask : Nat) : Nat :=
  let names := fun (f : Nat → Bool) => (List.range 10).any fun l => bitAt mask l && f l
  if c.bit (F.SWAP_CTRL_ARMED k) then 1
  else if mask = 0 then 2
  else if names (fun l => c.armedNames l k) then 3
  else if names (fun l => c.fbit F.PAN_STATUS_CF_BUSY l) then 4
  else 0

/-- ARM of slot `k` with the MASK, IMM and CF now stored (R159, R160). -/
def arm (c : Chip) (k mask : Nat) : Chip :=
  let why := c.armReject k mask
  if why ≠ 0 then c.setFld (F.SWAP_CTRL_REASON k) why
  else
    let t := c.reg64 (Reg.SWAP_AT_LO k) (Reg.SWAP_AT_HI k)
    (((c.setFld (F.SWAP_CTRL_ARMED k) 1).setFld (F.SWAP_CTRL_SWAPPED k) 0).setFld (F.SWAP_CTRL_REASON k) 0).setSlot k
      { target := t, late := decide (t ≤ c.now) }

/-- A write of SWAP_CTRLk (R159): DISARM acts before ARM; MASK, IMM and CF are ignored while armed, but where one write
disarms and arms; DONE and LATE are W1C. -/
def writeSwapCtrl (c : Chip) (k v : Nat) : Chip :=
  let c1 := c.when (bitAt v 30) (·.disarm k)
  let keep := c1.bit (F.SWAP_CTRL_ARMED k) || (c.bit (F.SWAP_CTRL_ARMED k) && !bitAt v 31)
  let c2 := if keep then c1
    else ((c1.setFld (F.SWAP_CTRL_IMM k) (bits v 29 29)).setFld (F.SWAP_CTRL_CF k) (bits v 28 28)).setFld
      (F.SWAP_CTRL_MASK k) (bits v 9 0)
  let c3 := (c2.when (bitAt v 25) (·.setFld (F.SWAP_CTRL_DONE k) 0)).when (bitAt v 24) (·.setFld (F.SWAP_CTRL_LATE k) 0)
  c3.when (bitAt v 31) (·.arm k (bits v 9 0))

/-! ### Execution and copy-forward (R163 to R165) -/

/-- The slot is due at the present STC (R160, R161). -/
def slotDue (c : Chip) (k : Nat) : Bool :=
  c.bit (F.SWAP_CTRL_ARMED k) && (c.bit (F.SWAP_CTRL_IMM k) || decide ((c.slot k).target ≤ c.now))

/-- Engine `l`'s role bit inverts; a powered engine's dirty bitmap clears. -/
def swapEngine (c : Chip) (l : Nat) : Chip :=
  let p := c.phys l
  let c1 := if c.fbit F.PAN_ROLE_FRONT p then c.clrFbit F.PAN_ROLE_FRONT p else c.setFbit F.PAN_ROLE_FRONT p
  c1.when (c.domOn p) (·.clearDirty l)

/-- Slot `k` executes (R163). -/
def swapRun (c : Chip) (k : Nat) : Chip :=
  let mask := c.fld (F.SWAP_CTRL_MASK k)
  let ls := (List.range 10).filter (bitAt mask ·)
  let late := !c.bit (F.SWAP_CTRL_IMM k) && ((c.slot k).late || decide ((c.slot k).target < c.now))
  let c1 := ((ls.foldl swapEngine c).setFld (F.SWAP_CTRL_ARMED k) 0).setFld (F.SWAP_CTRL_SWAPPED k) 1
  let c2 := c1.when late (·.sticky (F.SWAP_CTRL_LATE k) 56)
  let busy := if c.bit (F.SWAP_CTRL_CF k) then ls.filter fun l => c.domOn (c.phys l) else []
  if busy.isEmpty then c2.sticky (F.SWAP_CTRL_DONE k) 55
  else
    (busy.foldl (fun c l => c.setFbit F.PAN_STATUS_CF_BUSY l) c2).setSlot k
      { c2.slot k with cfWait := busy.foldl (fun m l => withBit m l) 0 }

/-- Copy one word of the front role of physical engine `p` into the pannier, unless it is dirty or uncorrectable. -/
def copyWord (p l : Nat) (c : Chip) (w : Nat) : Chip :=
  if c.dirty l w then c
  else
    let a := c.frontAddr p w
    match c.eccOf a with
    | 2 => c.recordUe p a
    | 1 => (c.recordCe p a).pokeW (c.panAddr p w) (c.peek a)
    | _ => c.pokeW (c.panAddr p w) (c.peek a)

/-- Copy-forward of logical engine `l` finishes; DONE of the slot that waited for it last (R163, R164). -/
def cfFinish (c : Chip) (l : Nat) : Chip :=
  (List.range 4).foldl (fun c k =>
    let s := c.slot k
    if bitAt s.cfWait l then
      let m := dropBit s.cfWait l
      (c.setSlot k { s with cfWait := m }).when (m == 0) (·.sticky (F.SWAP_CTRL_DONE k) 55)
    else c) (c.clrFbit F.PAN_STATUS_CF_BUSY l)

/-- COPY_FORWARD_DONE: the copy of logical engine `l`, where one is in progress, is made and ends. -/
def copyForward (c : Chip) (l : Nat) : Chip :=
  if c.panOn && c.fbit F.PAN_STATUS_CF_BUSY l then
    let p := c.phys l
    (if c.domOn p then (List.range 32768).foldl (copyWord p l) c else c).cfFinish l
  else c

/-- SWAP_EXECUTE outside a phase 0: an armed slot with IMM executes while the tick is stopped (R161); synchronised
settings catch it (R167). -/
def swapStopped (c : Chip) (k : Nat) : Chip :=
  if c.panOn && c.bit (F.SWAP_CTRL_ARMED k) && c.bit (F.SWAP_CTRL_IMM k) && !c.bit F.TICK_STATUS_RUNNING then
    let c1 := c.swapRun k
    c1.glideIxs.foldl (fun c ch =>
      let g := c.glide ch
      match g.next with
      | some n =>
        if bits n.ctrl.toNat 22 22 = 1 ∧ bits n.ctrl.toNat 21 20 = k then
          c.setGlide ch { g with next := some { n with caught := true } }
        else c
      | none => c) c1
  else c

/-! ### Glide channels (R166 to R172) -/

end Chip

/-- ENG and INDEX a setting names, as one number. -/
def GldSet.word (g : GldSet) : Nat := bits g.ctrl.toNat 19 16 * 2 ^ 15 + bits g.ctrl.toNat 14 0

/-- EN of a setting. -/
def GldSet.en (g : GldSet) : Bool := bits g.ctrl.toNat 30 30 == 1

/-- The words a channel owns or will own. -/
def Glide.claims (g : Glide) : List Nat :=
  (match g.own with | some o => [o.word] | none => []) ++
    (match g.next with | some n => if n.en then [n.word] else [] | none => [])

namespace Chip

/-- Why a GO of channel `ch` is rejected (R169), the lowest code that holds. -/
def goReject (c : Chip) (ch : Nat) (n : GldSet) : Nat :=
  let others := (c.pan.glides.filter (·.1 != ch)).map (·.2.claims)
  let eng := n.word / 2 ^ 15
  let bank := fun (w : Nat) => w / 2 ^ 15 == eng && w % 8 == n.word % 8
  if !n.en then 0
  else if others.any (·.contains n.word) then 1
  else if 48 ≤ (others.filter (·.any bank)).length then 2
  else if 9 < eng then 3
  else 0

/-- GO of channel `ch` (R167). -/
def glideGo (c : Chip) (ch : Nat) : Chip :=
  let n : GldSet := ⟨c.reg (Reg.GLD_CTRL ch), c.reg (Reg.GLD_TARGET ch), c.reg (Reg.GLD_RATE ch), false, c.tick.stage != 0⟩
  let why := c.goReject ch n
  if why ≠ 0 then
    ((c.setFld F.GLD_STATUS_REJ_REASON why).setFld F.GLD_STATUS_REJ_CH ch).setFld F.GLD_STATUS_REJ 1
  else c.setGlide ch { c.glide ch with next := some n }

/-- A word is owned by an enabled channel (R157). -/
def glideOwned (c : Chip) (l w : Nat) : Bool :=
  c.pan.glides.any fun p => match p.2.own with | some o => o.word == l * 2 ^ 15 + w | none => false

end Chip

/-- One step of R166. -/
def Glide.step (g : Glide) : Glide :=
  match g.own with
  | none => g
  | some o =>
    let v := intOf g.v.toNat
    let t := intOf o.target.toNat
    let d := t - v
    let r := o.rate.toNat
    if bits o.ctrl.toNat 29 29 = 0 then
      let v' := if 0 < g.rem then v + truncDiv d g.rem else v
      { g with v := BitVec.ofInt 32 v', rem := g.rem - 1, moving := BitVec.ofInt 32 v' != o.target }
    else
      let s := truncDiv (d * (max (bits r 23 0) 1 : Nat)) (2 ^ 24)
      let v' := if d.natAbs ≤ bits r 31 24 * 256 then t else v + (if s = 0 then (if 0 < d then 1 else -1) else s)
      { g with v := BitVec.ofInt 32 v', rem := 0, moving := BitVec.ofInt 32 v' != o.target }

/-- Adoption of a setting (R168); `cur` is the front-role word at the end of phase-0 cycle 1. -/
def Glide.adopt (g : Glide) (n : GldSet) (cur : Word) : Glide :=
  if !n.en then { g with next := none, own := none, moving := false, rem := 0 }
  else
    let same := match g.own with | some o => o.word == n.word | none => false
    let sfc := bits n.ctrl.toNat 28 28 == 1
    let v0 := if same then g.v else if sfc then cur else n.target
    let rem := if bits n.ctrl.toNat 29 29 = 0 then max (bits n.rate.toNat 15 0) 1 else 0
    { next := none, own := some n, group := bits n.ctrl.toNat 25 23, v := v0, rem := rem, moving := v0 != n.target }

namespace Chip

/-- A pending setting is adopted in this phase 0 (R167): unsynchronised, or its slot has executed; its GO came before
cycle 0. -/
def adoptsNow (n : GldSet) (executed : List Nat) : Bool :=
  !n.fresh && (bits n.ctrl.toNat 22 22 == 0 || n.caught || executed.contains (bits n.ctrl.toNat 21 20))

/-- Settings whose GO this phase 0 has passed by are there for the next. -/
def glideAge (g : Glide) : Glide := { g with next := g.next.map fun n => { n with fresh := false } }

/-- The front-role word a setting names, in the roles of the end of phase-0 cycle 1 (R168). -/
def frontWord1 (c : Chip) (w : Nat) : Word :=
  let p := c.phys (w / 2 ^ 15)
  if w / 2 ^ 15 < 10 then c.peek (coefAddr p (if bitAt c.tick.role1 p then 1 else 0) (w % 2 ^ 15)) else 0

/-- GLIDE_ADOPT: channel `ch` adopts its pending setting where it is due (R167, R168). -/
def glideAdopt (c : Chip) (ch : Nat) : Chip :=
  let g := c.glide ch
  match g.next with
  | some n => if adoptsNow n c.tick.executed then c.setGlide ch (g.adopt n (c.frontWord1 n.word)) else c
  | none => c

/-- The glide write of channel `ch` (R170): dropped where corrected words take the slots it would need. -/
def glideWrite (c : Chip) (ch : Nat) : Chip :=
  match (c.glide ch).own with
  | none => c
  | some o =>
    let l := o.word / 2 ^ 15
    let w := o.word % 2 ^ 15
    let p := c.phys l
    let a := c.frontAddr p w
    let before := (c.pan.glides.filter fun q => decide (q.1 < ch) &&
      (match q.2.own with | some x => x.word / 2 ^ 15 == l && x.word % 8 == w % 8 | none => false)).length
    let fixes := ((c.auxOf p).fix.filter fun f => memNo f == 8 * p + 2 && f / 4 % 8 == a / 4 % 8).length
    if !c.domOn p then c
    else if before + fixes < 58 then c.pokeW a (c.glide ch).v
    else c.setFld F.GLD_STATUS_GSLIP 1

/-- Groups with a moving channel, as a mask. -/
def movingGroups (c : Chip) : Nat :=
  c.pan.glides.foldl (fun m p => if p.2.moving then withBit m p.2.group else m) 0

/-- The groups that had a moving channel before this phase 0, against those that have one now (R172). -/
def groupsDone (c : Chip) (was : Nat) : Chip :=
  (List.range 8).foldl (fun c' g =>
    c'.when (bitAt was g && !bitAt c.movingGroups g) (·.stickyBit F.GLD_STATUS_GRP_DONE g 57)) c

/-- GLIDE_STEP and the adoptions due: phase-0 cycles 3 to 31 (R166 to R172). `was` are the groups moving at the end of
the previous phase 0. -/
def glidePhase0 (c : Chip) (was : Nat) : Chip :=
  let c1 := c.glideIxs.foldl glideAdopt c
  let c2 := c1.glideIxs.foldl (fun c ch => c.setGlide ch (c.glide ch).step) c1
  let c3 := (c2.glideIxs.foldl glideWrite c2).groupsDone was
  c3.glideIxs.foldl (fun c ch => c.setGlide ch (glideAge (c.glide ch))) c3

/-- The slots due in this phase 0. -/
def slotsDue (c : Chip) : List Nat := (List.range 4).filter c.slotDue

/-- SWAP_EXECUTE in phase-0 cycle 2 (R160, R161): slot `k`, where cycle 0 found it due. -/
def swapDue (c : Chip) (k : Nat) : Chip :=
  if c.panOn && c.tick.due.contains k then
    let c1 := c.swapRun k
    { c1 with tick := { c1.tick with executed := k :: c1.tick.executed } }
  else c

/-- STATE word of channel `ch`, as GLD_STATEk reads. -/
def glideState (c : Chip) (ch : Nat) : Nat :=
  let g := c.glide ch
  (if g.own.isSome then 2 ^ 31 else 0) + (if g.moving then 2 ^ 30 else 0) + (if g.next.isSome then 2 ^ 29 else 0) + g.rem

/-! ### Bus writes to the coefficient banks (R157, R158) -/

/-- A bus write to a front-role word of physical engine `p`: whether it is refused. -/
def frontRefused (c : Chip) (p w : Nat) : Bool := c.locked73 p || c.glideOwned (c.logi p) w

/-- A bus write to a pannier-role word: refused while an armed slot names the engine. -/
def panRefused (c : Chip) (p : Nat) : Bool := c.armedNames (c.logi p) 4

end Chip

end Sys2Proof.Machine
end

