-- ==== Sys2Proof/Machine/Latch.lean ====
section
/-! DEFINITION. The tandem unit's events and the fail-silent latch (R215, R228), which replay decisions request. -/

namespace Sys2Proof.Machine

namespace Chip

/-- Change the tandem unit's state. -/
def modTlk (c : Chip) (f : Tlk → Tlk) : Chip := { c with tlk := f c.tlk }

/-- Bit `k` of TLK_EVT, with event 100 + k (R228). -/
def tlkEvt (c : Chip) (k : Nat) : Chip := c.stickyBit F.TLK_EVT_EVT k (100 + k)

/-- TLK_STATUS.STATE (R206). -/
def tlkState (c : Chip) : Nat := c.fld F.TLK_STATUS_STATE

/-- Change it. -/
def setTlkState (c : Chip) (s : Nat) : Chip := c.setFld F.TLK_STATUS_STATE s

/-- The device holds the drive token. -/
def holdsToken (c : Chip) : Bool := c.bit F.TLK_STATUS_TOKEN

/-- The device is in lockstep: LOCKSTEP, or SHADOW, in which it computes as in lockstep. -/
def lockstep (c : Chip) : Bool := c.tlkState == 6 || c.tlkState == 5

/-- The fail-silent latch is set with a cause (R215): the device disarms; it is in LATCHED unless it is standalone. -/
def latchSet (c : Chip) (cause : Nat) : Chip :=
  let c1 := (((c.setFld F.TLK_STATUS_LATCHED 1).setFld F.TLK_LATCH_CAUSE cause).setFld F.TLK_STATUS_ARMED 0).tlkEvt 7
  if c1.tlkState = 0 then c1 else c1.setTlkState 9

/-- A latch request with cause 1, 3 or 4: granted in LOCKSTEP with an armed partner, else refused (R215). -/
def latchRequest (c : Chip) (cause : Nat) : Chip :=
  if c.tlkState = 6 ∧ c.bit F.TLK_STATUS_PART_ARMED then c.latchSet cause
  else c.setFld F.TLK_LATCH_REQ_DENIED 1

end Chip

end Sys2Proof.Machine
end

