-- ==== Sys2Proof/Machine/Replay.lean ====
section
/-! DEFINITION. The tick as a transaction: detections, effective cones, replay and stand-in (R176 to R187, R452), and the
cycles of phase 1 (R39, R54). -/

namespace Sys2Proof.Machine

namespace Chip

/-! ### Who takes part (R46, R180) -/

/-- Physical engine `p` runs phase 1 in this tick. -/
def runs (c : Chip) (p : Nat) : Bool := c.inTick p && !bitAt c.tick.held p && !c.tick.skipped && c.domOn p

/-- The logical engines that run phase 1, as a mask. -/
def runMask (c : Chip) : Nat := (List.range 10).foldl (fun m l => if c.runs (c.phys l) then withBit m l else m) 0

/-- Logical numbers of a mask. -/
def ones (mask : Nat) : List Nat := (List.range 10).filter (bitAt mask ·)

/-- Recorded cone of logical engine `l`; its own bit reads 1. -/
def recorded (c : Chip) (l : Nat) : Nat := withBit (c.fld (F.REPLAY_CONE_MASK l)) l

/-- An effective cone: engines not in TICK leave it, a spare in shadow joins its source (R180). -/
def effective (c : Chip) (mask : Nat) : Nat :=
  let full := match c.spare.mig with
    | some (src, sp) => if c.fld F.MIG_STATUS_PHASE = 2 ∧ bitAt mask src then withBit mask (c.logi sp) else mask
    | none => mask
  full &&& c.runMask

/-- CONE_LEN of a mask. -/
def coneLen (c : Chip) (mask : Nat) : Nat := 14 + (ones mask).foldl (fun m l => max m (c.plen (c.phys l))) 0

/-- LEN of REPLAY_CONEn: over the engines of the mask that are in TICK. -/
def recordedLen (c : Chip) (l : Nat) : Nat :=
  min 65535 (14 + (ones (c.recorded l)).foldl (fun m k => if c.inTick (c.phys k) then max m (c.plen (c.phys k)) else m) 0)

/-! ### Decisions (R181, R183, R186) -/

/-- Change the cones of the tick. -/
def setCones (c : Chip) (l : List Cone) : Chip := { c with spare := { c.spare with cones := l } }

/-- REPLAY_REC of every detection of a cone. -/
def recordCone (c : Chip) (g : Cone) (code : Nat) : Chip :=
  g.dets.foldl (fun c x =>
    (((c.setFld (F.REPLAY_REC_DET x.1) x.2.1).setFld (F.REPLAY_REC_OUTCOME x.1) code).setFld (F.REPLAY_REC_CONE x.1)
      g.mask).setFld (F.REPLAY_REC_CYCLE x.1) x.2.2) c

/-- Cone `g` takes the stand-in outcome in cycle `d` (R183, R185). -/
def coneStandIn (c : Chip) (others : List Cone) (g : Cone) (d code : Nat) : Chip :=
  let c1 := (ones g.mask).foldl (fun c l => c.stickyBit F.REPLAY_STATUS_LATE l (42 + l)) (c.recordCone g code)
  let c2 := c1.when (!g.counted) (·.bump F.REPLAY_CNT_LATE_CNT)
  let c3 := c2.when (c.bit F.REPLAY_CFG_SILENT && c.lockstep) (·.latchRequest 1)
  (c3.modTlk fun t => { t with standIn := true }).setCones (others ++ [{ g with d := d, replay := false, counted := true }])

/-- The decision of R181 on cone `g` in cycle `d`. -/
def coneDecide (c : Chip) (others : List Cone) (g : Cone) (d : Nat) : Chip :=
  let engs := (ones g.mask).map c.phys
  let other := !c.bit F.REPLAY_CFG_EN || engs.any (fun p => c.bit (F.ENG_STATUS_REPLAY_OFF p)) ||
    engs.any (fun p => (c.auxOf p).replay.isSome)
  if !other && decide (d + 2 + c.coneLen g.mask ≤ c.budget) then
    (c.recordCone g 1).setCones (others ++ [{ g with d := d, replay := true }])
  else c.coneStandIn others g d (if other then 3 else 2)

/-- Two cones as one. -/
def coneJoin (a b : Cone) : Cone :=
  { a with
    mask := a.mask ||| b.mask, dets := a.dets ++ b.dets, started := a.started || b.started
    stopped := a.stopped && b.stopped, applied := a.applied && b.applied, counted := a.counted || b.counted }

/-- A detector of physical engine `p` fires in cycle `d` of phase 1, or of phase 2 where `late` (R181, R183, R186,
R452). -/
def fire (c : Chip) (p code d : Nat) (late : Bool) : Chip :=
  let l := c.logi p
  let mask := c.effective (c.recorded l)
  let hit := c.spare.cones.filter fun g => g.mask &&& mask != 0
  let others := c.spare.cones.filter fun g => g.mask &&& mask == 0
  let here := (l, code, d)
  match hit with
  | [] =>
    let g : Cone := { mask := mask, d := d, replay := true, dets := [here] }
    if late then c.coneStandIn others g d 2 else c.coneDecide others g d
  | h :: t =>
    let u := t.foldl coneJoin h
    let g := { u with mask := u.mask ||| mask, dets := u.dets ++ [here] }
    let bad := hit.any fun x => !x.replay || x.started
    if !late && !bad && t.isEmpty && g.mask == h.mask then (c.recordCone g 1).setCones (others ++ [g])
    else if bad then c.coneStandIn others { g with applied := false } d 3
    else if late then c.coneStandIn others g d 2
    else c.coneDecide others { g with stopped := false } d

/-- The shadow file of engine `p` fails its parity check in cycle `d` (R176, R183, R184). -/
def shadowFail (c : Chip) (p d : Nat) : Chip :=
  let l := c.logi p
  let c0 := c.modAux p fun a => { a with corrupt := false, shadowBad := true }
  let mask := c.effective (c.recorded l)
  let hit := c.spare.cones.filter fun g => g.mask &&& mask != 0
  let others := c.spare.cones.filter fun g => g.mask &&& mask == 0
  match hit with
  | [] => c0.coneStandIn others { mask := mask, d := d, replay := false, dets := [(l, 6, d)] } d 3
  | h :: t =>
    let u := t.foldl coneJoin h
    c0.coneStandIn others { u with mask := u.mask ||| mask, dets := u.dets ++ [(l, 6, d)], applied := false } d 3

/-! ### Restores (R178, R179, R182, R183) -/

/-- The registers of engine `p` from its shadow file; pending lengths stay (R178). -/
def restoreCore (c : Chip) (p : Nat) : Chip :=
  let cur := c.core p
  let s : Core := Tab.get (fun _ => {}) c.shadow p
  c.setCore p ((List.range 16).foldl (fun k i => k.setSeg i { k.seg i with next := (cur.seg i).next }) s)

/-- Relay-out words the tick has stored take their content at the end of the tick before (R179). -/
def relayRestore (c : Chip) (p : Nat) : Chip :=
  ((c.auxOf p).old.foldl (fun c x => c.pokeW (relayAddr p x.1) x.2) c).modAux p fun a =>
    { a with old := [], relayLog := [], wcyc := [] }

/-- Journal and undrained serai entries are discarded (R127, R132). -/
def discard (c : Chip) (p : Nat) : Chip := c.modAux p fun a => { a with journal := [], wbuf := [] }

/-- Engine `p` goes back to the start of the tick (R182, steps 1 and 2). -/
def rewind (c : Chip) (p : Nat) : Chip :=
  (((c.restoreCore p).discard p).relayRestore p).modAux p fun a => { a with stop := true, det := none, blank := false }

/-- Bundle 0 of engine `p` issues again in cycle `r0` (R182, step 3). -/
def restart (c : Chip) (r0 mask p : Nat) : Chip :=
  (c.modAux p fun a => { a with start := r0, issued := 0, stop := false, replay := some mask }).modCore p fun k =>
    { k with pc := c.tickEntry p, repOn := false, xfer := none }

/-- The stand-in image of POLICY in the relay-out of engine `p` (R183, step 3). -/
def standInImage (c : Chip) (p : Nat) : Chip :=
  if c.fbit F.REPLAY_CFG_POLICY (c.logi p) then
    (List.range 256).foldl (fun c w => c.pokeW (relayAddr p w) 0)
      (c.modAux p fun a => { a with old := [], relayLog := [], wcyc := [] })
  else c.relayRestore p

/-- Engine `p` takes the stand-in of a decision in cycle `d` (R183, steps 1 to 3). -/
def takeStandIn (c : Chip) (d p : Nat) : Chip :=
  if (c.auxOf p).standIn.isSome then c
  else (((c.discard p).standInImage p).modAux p fun a => { a with stop := true, standIn := some d, det := none })

/-- The cones as they stand before cycle `k`: stops and restores, restarts, stand-ins (R182, R183). -/
def coneCycle (k : Nat) (c : Chip) (g : Cone) : Chip :=
  let engs := (ones g.mask).map c.phys
  let put := fun (c : Chip) (g' : Cone) => c.setCones (c.spare.cones.map fun x => if x = g then g' else x)
  if g.replay then
    if !g.stopped && decide (g.d < k) then
      match engs.find? fun p => (c.auxOf p).corrupt with
      | some p => (engs.foldl (fun c q => c.modAux q fun a => { a with stop := true }) c).shadowFail p k
      | none => put (engs.foldl rewind c) { g with stopped := true }
    else if !g.started && decide (g.d + 2 ≤ k) then put (engs.foldl (restart · (g.d + 2) g.mask ·) c) { g with started := true }
    else c
  else if !g.applied && decide (g.d < k) then put (engs.foldl (takeStandIn · g.d ·) c) { g with applied := true }
  else c

/-- What is due before cycle `k`. -/
def beforeCycle (c : Chip) (k : Nat) : Chip :=
  let c1 := c.spare.cones.foldl (coneCycle k) c
  c1.spare.cones.foldl (coneCycle k) c1

/-! ### The cycles of phase 1 -/

/-- Bound of a memory or fetch detector (R176). -/
def detBound (code : Nat) : Nat := match code with | 1 => 2 | 2 => 6 | 3 => 4 | 4 => 2 | _ => 3

/-- Detectors that have met their fault fire at their bound at the latest: cycle `k` has passed. -/
def dueDets (c : Chip) (k : Nat) : Chip :=
  (List.range 10).foldl (fun c p =>
    match (c.auxOf p).det with
    | some (code, f) =>
      if f + detBound code ≤ k then (c.modAux p fun a => { a with det := none }).fire p code k false else c
    | none => c) c

/-- One cycle of engine `p` in phase 1 (R54, R70, R128), in which `go` issues its next bundle, where it has one to issue. -/
def engCycleBy (go : Chip → Chip) (c : Chip) (p : Nat) : Chip :=
  let a := c.auxOf p
  let c1 :=
    if a.stop || decide (c.plen p ≤ a.issued) then c.idleCycle p
    else if a.blank then (c.idleCycle p).modAux p fun x => { x with issued := x.issued + 1 }
    else (go c).modAux p fun x => { x with issued := x.issued + 1 }
  c1.modAux p fun x => { x with cyc := x.cyc + 1 }

/-- The next bundle of engine `p` from its program memory; an uncorrectable fetch leaves it empty (R128). -/
def fetchIssue (c : Chip) (p : Nat) : Chip :=
  let ws := (c.bundleWords p 5 (c.core p).pc).1
  if c.fetchEcc p ws = 2 then (((c.recordFetch p ws).detect p 4).idleCycle p).modAux p fun x => { x with blank := true }
  else (c.issueBundle p).1

/-- The engine whose cycle comes next: the one furthest back, the lowest number among equals; none once all have come to
the budget. -/
def turn (c : Chip) : Option Nat :=
  ((List.range 10).filter fun p => c.runs p && decide ((c.auxOf p).cyc < c.budget)).foldl (fun m p =>
    match m with
    | none => some p
    | some q => if (c.auxOf p).cyc < (c.auxOf q).cyc then some p else some q) none

/-- The next engine's cycle, in which `go` issues: before the first engine's what is due before the cycle, after the last
one's the detectors due in it. -/
def tickStepBy (go : Chip → Nat → Chip) (c : Chip) : Chip :=
  match c.turn with
  | none => c
  | some p =>
    let k := (c.auxOf p).cyc
    let first := (List.range 10).all fun q => !c.runs q || (c.auxOf q).cyc == k
    let c1 := engCycleBy (go · p) (c.when first (·.beforeCycle k)) p
    let open_ := (List.range 10).any fun q => c1.runs q && decide ((c1.auxOf q).cyc ≤ k)
    if open_ then c1 else c1.dueDets k

/-- The same with the bundle of the program. -/
def tickStep (c : Chip) : Chip := tickStepBy fetchIssue c

/-- Nothing more can happen in phase 1: every engine has issued its last bundle or stopped, every result has landed, no
cone or detector waits. -/
def quiet (c : Chip) : Bool :=
  ((List.range 10).all fun p =>
    let a := c.auxOf p
    !c.runs p || ((a.stop || decide (c.plen p ≤ a.issued)) && (c.core p).flights.isEmpty && a.det.isNone)) &&
  c.spare.cones.all fun g => if g.replay then g.started else g.applied

/-- Every engine stands at cycle `k`. -/
def skipTo (c : Chip) (k : Nat) : Chip :=
  (List.range 10).foldl (fun c p => c.when (c.runs p) fun c =>
    (c.modAux p fun a => { a with cyc := k }).modCore p Core.flush) c

/-- Cycles are run until the budget is reached. -/
def runOut : Nat → Chip → Chip
  | 0, c => c
  | n + 1, c =>
    if c.turn.isNone then c
    else if c.quiet then c.skipTo c.budget
    else runOut n c.tickStep

/-- Engine `p`'s cycle, which `last` makes, after those of engines that stand further back. -/
def runTo (last : Chip → Chip) : Nat → Nat → Chip → Chip
  | 0, _, c => c
  | n + 1, p, c =>
    match c.turn with
    | none => c
    | some q => if q = p then last c else runTo last n p c.tickStep

/-- The present cycle completes for every engine; at least one cycle of the tick has then passed. -/
def closeCycle : Nat → Chip → Chip
  | 0, c => c
  | n + 1, c =>
    let l := ((List.range 10).filter c.runs).map fun p => (c.auxOf p).cyc
    match l with
    | [] => c
    | k :: _ => if k ≠ 0 ∧ l.all (· == k) then c else closeCycle n c.tickStep

/-- The last completed cycle. -/
def lastCycle (c : Chip) : Nat := ((List.range 10).find? c.runs).elim 0 fun p => (c.auxOf p).cyc - 1

/-- One engine of a stand-in cone restores its registers in cycle `k` (R183, step 4; R184). -/
def settleOne (k : Nat) (c : Chip) : Chip :=
  let todo := (List.range 10).find? fun p => (c.auxOf p).standIn.isSome && !(c.auxOf p).restored
  match todo with
  | none => c
  | some p =>
    let c1 := c.modAux p fun a => { a with restored := true }
    let c2 := c1.when (c1.auxOf p).corrupt (·.shadowFail p k)
    if (c2.auxOf p).shadowBad then c2.modAux p fun a => { a with leave := true } else c2.restoreCore p

/-- Every stand-in cone stands in its image and its engines restore their registers in cycle `k`. -/
def settle (c : Chip) (k : Nat) : Chip :=
  Nat.repeat (fun c => settleOne k (c.spare.cones.foldl (fun c g =>
    if g.replay then c else ((ones g.mask).map c.phys).foldl (takeStandIn · g.d ·) c) c)) 11 c

/-- A result that has not landed by cycle B-1 is discarded, and LATEW is set (R64). -/
def lateWrites (c : Chip) (p : Nat) : Chip :=
  let core := c.core p
  match core.flights with
  | [] => c.modCore p Core.flush
  | _ :: _ => (c.setCore p { core.flush with flights := [] }).landFlags p flagLatew

/-- Phase 1 reaches its end: the cycles left, results too late, stand-in restores. -/
def endPhase1 (c : Chip) : Chip :=
  if c.tick.ended then c
  else
    let c1 := (runOut (12 * c.budget) c).beforeCycle c.budget
    let c2 := ((List.range 10).filter c1.runs).foldl lateWrites c1
    let c3 := c2.settle (c.budget - 1)
    { c3 with tick := { c3.tick with ended := true } }

/-- Detectors that have met their fault and have not fired by the end of phase 1 fire in phase-2 cycles 0 to 5 (R452). -/
def lateDets (c : Chip) : Chip :=
  (List.range 10).foldl (fun c p =>
    match (c.auxOf p).det with
    | some (code, f) =>
      let d := max c.budget (f + detBound code)
      ((c.modAux p fun a => { a with det := none }).fire p code d true).settle (d + 1)
    | none => c) c

/-- Replays that stood set DONE in phase-2 cycle 6 (R182). -/
def replayDone (c : Chip) : Chip :=
  c.spare.cones.foldl (fun c g =>
    if g.replay && g.started then
      ((ones g.mask).foldl (fun c l => c.stickyBit F.REPLAY_STATUS_DONE l (42 + l)) c).bump F.REPLAY_CNT_DONE_CNT
    else c) c

/-- A detector of engine `p` has a fault that fires in cycle `d` (R176): a bundle within the bound for the parity and
residue detectors, the fault already met for the others. -/
def canFire (c : Chip) (p code d : Nat) : Bool :=
  let a := c.auxOf p
  if code ≤ 3 then decide (0 < a.issued) && decide (d ≤ a.start + a.issued - 1 + detBound code)
  else match a.det with
    | some (k, f) => k == code && decide (f ≤ d)
    | none => false

/-- DETECTION: detector `code` of engine `p` fires, `late` in a cycle of phase 2 (R176, R181, R187, R452). A fault of the
shadow file shows when the file is restored. -/
def detection (c : Chip) (p code : Nat) (late : Option Nat) : Chip :=
  if c.engState p = 1 then (if 1 ≤ code ∧ code ≤ 5 then c.detect p code else c)
  else if c.tick.phase ≠ .p1 ∨ !c.runs p ∨ code = 0 then c
  else if 6 ≤ code then c.modAux p fun a => { a with corrupt := true }
  else
    let off := fun (c : Chip) => c.modAux p fun a => { a with det := if 4 ≤ code then none else a.det }
    match late with
    | none =>
      if c.tick.ended then c
      else
        let c1 := closeCycle 22 c
        let d := c1.lastCycle
        if c1.canFire p code d then (off c1).fire p code d false else c1
    | some k =>
      let c1 := c.endPhase1
      let d := c1.budget + min k 5
      if c1.canFire p code d then ((off c1).fire p code d true).settle (d + 1) else c1

end Chip

end Sys2Proof.Machine
end

