-- ==== Sys2Proof/Machine/SpareCtl.lean ====
section
/-! DEFINITION. The hot spare's migration (R189 to R191), the online self-test (R192) and the port loop test (R193). -/

namespace Sys2Proof.Machine

/-- First byte offset and words of the memories of an engine window: program, delay, coefficient banks 0 and 1, relay-out,
input relay, sense relay (R27). -/
def engMemories : List (Nat × Nat) :=
  [(0, 65536), (0x40000, 196608), (0x100000, 32768), (0x120000, 32768), (0x140000, 256), (0x140400, 64), (0x141000, 1024)]

namespace Chip

/-- Change the spare unit's state. -/
def modSpare (c : Chip) (f : Spare → Spare) : Chip := { c with spare := f c.spare }

/-! ### Migration -/

/-- A migration stops being in progress; ABORTED with its REASON, event 52 (R189, R191). -/
def migFail (c : Chip) (reason : Nat) : Chip :=
  ((c.setFld F.MIG_STATUS_ABORTED 1).setFld F.MIG_STATUS_REASON reason).raise 52

/-- Why a START is rejected, 0 for none (R189); the lowest code that holds. -/
def migReject (c : Chip) : Nat :=
  let sp := c.fld F.SPARE_CFG_SPARE
  let src := c.fld F.MIG_CTRL_SRC
  let st := c.engState sp
  if !c.bit F.SPARE_CFG_EN || decide (9 < sp) || !(st == 0 || st == 6) || !c.domOn sp then 1
  else if 9 < src ∨ !c.inTick (c.phys src) ∨ c.phys src = sp then 2
  else if c.spare.mig.isSome then 3
  else 0

/-- START (R189). -/
def migStart (c : Chip) : Chip :=
  let why := c.migReject
  if why ≠ 0 then c.migFail why
  else
    let sp := c.fld F.SPARE_CFG_SPARE
    (((((c.setFld F.MIG_STATUS_PHASE 1).setFld F.MIG_STATUS_CLEAN_CNT 0).setFld F.MIG_STATUS_REASON 0).setEngState sp 6).modSpare
      fun s => { s with mig := some (c.fld F.MIG_CTRL_SRC, sp), copied := false, miss := false })

/-- The memories of engine `p` hold unknown data. -/
def loseEngine (c : Chip) (p : Nat) : Chip := [0, 1, 2].foldl (fun c n => c.lose (8 * p + n)) c

/-- A migration in progress aborts (R191). The spare's memories are unknown where the copy had not completed. -/
def migAbort (c : Chip) (reason : Nat) : Chip :=
  match c.spare.mig with
  | none => c
  | some (_, sp) =>
    let c1 := c.when (!c.spare.copied && c.fld F.MIG_STATUS_PHASE == 1 && c.domOn sp) (·.loseEngine sp)
    let c2 := (((c1.setCore sp {}).setAux sp {}).when (c1.domOn sp) (·.setEngState sp 6)).setFld F.MIG_STATUS_PHASE 0
    (c2.migFail reason).modSpare fun s => { s with mig := none, copied := false, miss := false }

/-- What aborts a migration by itself: the source has left TICK, the spare's domain has left on (R191). -/
def migCheck (c : Chip) : Chip :=
  match c.spare.mig with
  | none => c
  | some (src, sp) =>
    if !c.inTick (c.phys src) then c.migAbort 4 else if !c.domOn sp then c.migAbort 7 else c

/-- Some word the copier reads is uncorrectable. -/
def copyBad (c : Chip) (p : Nat) : Bool :=
  (engMemories.take 4).any fun m => (List.range m.2).any fun w => c.eccOf (engBase p + m.1 + 4 * w) == 2

/-- Program, delay and coefficient memories of `p` into those of `q`, with their zero tags and the role bit (R190). -/
def copyEngine (c : Chip) (p q : Nat) : Chip :=
  let word := fun (off : Nat) (c : Chip) (w : Nat) => c.pokeW (engBase q + off + 4 * w) (c.peek (engBase p + off + 4 * w))
  let c1 := (engMemories.take 4).foldl (fun c m => (List.range m.2).foldl (word m.1) c) c
  let c2 := { c1 with tags := (List.range 196608).foldl (fun t w =>
    Tab.set (fun _ => false) t (q * 2 ^ 18 + w) (Tab.get (fun _ => false) t (p * 2 ^ 18 + w))) c1.tags }
  if c2.fbit F.PAN_ROLE_FRONT p then c2.setFbit F.PAN_ROLE_FRONT q else c2.clrFbit F.PAN_ROLE_FRONT q

/-- Configuration registers of `p` into those of `q`. -/
def copyConfig (c : Chip) (p q : Nat) : Chip :=
  [Reg.ENG_SETUP_PC, Reg.ENG_TICK_ENTRY, Reg.ENG_PLEN, Reg.ENG_ENC, Reg.ENG_FLAG_MASK, Reg.ENG_MEM_MASK, Reg.ENG_RET].foldl
    (fun c r => c.setReg (r q) (c.reg (r p)))
    ((c.setFld (F.ENG_SCRUB_RATE q) (c.fld (F.ENG_SCRUB_RATE p))).setFld (F.ENG_STATUS_REPLAY_OFF q)
      (c.fld (F.ENG_STATUS_REPLAY_OFF p)))

/-- MIGRATION_SHADOW: the copy completes; the shadow phase begins at the next phase 0. An uncorrectable word ends it. -/
def migCopied (c : Chip) : Chip :=
  match c.spare.mig with
  | none => c
  | some (src, sp) =>
    if c.fld F.MIG_STATUS_PHASE ≠ 1 ∨ c.spare.copied then c
    else if c.copyBad (c.phys src) then c.migAbort 6
    else (((c.copyEngine (c.phys src) sp).copyConfig (c.phys src) sp)).modSpare fun s => { s with copied := true }

/-- Mirror mode: the spare's memories follow the source's (R190). -/
def mirror (c : Chip) : Chip :=
  match c.spare.mig with
  | some (src, sp) => if c.spare.copied then c.copyEngine (c.phys src) sp else c
  | none => c

/-- The shadow phase begins: registers from the source's shadow file, relay-out from its relay-out, state TICK (R190). -/
def migShadow (c : Chip) : Chip :=
  match c.spare.mig with
  | none => c
  | some (src, sp) =>
    if c.fld F.MIG_STATUS_PHASE = 1 ∧ c.spare.copied then
      let p := c.phys src
      let c1 := (List.range 256).foldl (fun c w => c.pokeW (relayAddr sp w) (c.peek (relayAddr p w))) c
      let regs : Core := Tab.get (fun _ => {}) c.shadow p
      ((((c1.setCore sp regs).setAux sp {}).setEngState sp 4).setFld (F.ENG_CTRL_TICK_EN sp) 1).setFld F.MIG_STATUS_PHASE 2
    else c

/-- The earliest swap tick has come and the clean count suffices (R190). -/
def swapReady (c : Chip) : Bool :=
  c.fld F.MIG_STATUS_PHASE == 2 && decide (c.reg64 Reg.MIG_AT_LO Reg.MIG_AT_HI ≤ c.now) &&
    decide (max 1 (c.fld F.MIG_CTRL_CLEAN) ≤ c.fld F.MIG_STATUS_CLEAN_CNT)

/-- The roles exchange (R190). The freed engine enters HALTED. -/
def migSwap (c : Chip) : Chip :=
  match c.spare.mig with
  | none => c
  | some (src, sp) =>
    if c.swapReady then
      let p := c.phys src
      let other := c.logi sp
      let c1 := (((c.setPhys src sp).setPhys other p).setFld F.SPARE_CFG_SPARE p).leaveTick p
      (((c1.setFld F.MIG_STATUS_PHASE 0).setFld F.MIG_STATUS_DONE 1).raise 52).modSpare fun s =>
        { s with mig := none, copied := false, miss := false }
    else c

/-- The shadow tick's comparison in phase 2: frozen relay words 0 to 63 and the journal (R190). `same` says the journals
agree. -/
def migCompare (c : Chip) : Chip :=
  match c.spare.mig with
  | none => c
  | some (src, sp) =>
    if c.fld F.MIG_STATUS_PHASE ≠ 2 then c
    else
      let p := c.phys src
      let words := (List.range 64).all fun w => c.frozen p w == c.frozen sp w
      let journals := decide ((c.auxOf p).journal = (c.auxOf sp).journal)
      let alone := (c.auxOf sp).standIn.isSome && (c.auxOf p).standIn.isNone
      if words && journals && !alone then c.bump F.MIG_STATUS_CLEAN_CNT
      else (c.setFld F.MIG_STATUS_CLEAN_CNT 0).bump F.MIG_STATUS_MISMATCH

/-- Bus accesses to the window of engine `p` answer with a bus error: it is being copied onto or tested (R190, R192). -/
def windowShut (c : Chip) (p : Nat) : Bool :=
  c.spare.bist == some p ||
    (match c.spare.mig with | some (_, sp) => sp == p && c.fld F.MIG_STATUS_PHASE == 1 | none => false)

/-! ### BIST (R192) -/

/-- START of a self-test. -/
def bistStart (c : Chip) : Chip :=
  let p := c.fld F.BIST_CTRL_ENG
  let st := c.engState p
  let inMig := match c.spare.mig with | some (src, sp) => sp == p || c.phys src == p | none => false
  if decide (p < 10) && (st == 0 || st == 6) && !inMig && c.domOn p && c.spare.bist.isNone then
    (c.setFld F.BIST_STATUS_BUSY 1).modSpare fun s => { s with bist := some p }
  else c

/-- Every memory word of engine `p` is 0 with valid check bits. -/
def zeroEngine (c : Chip) (p : Nat) : Chip :=
  engMemories.foldl (fun c m => (List.range m.2).foldl (fun c w => c.pokeW (engBase p + m.1 + 4 * w) 0) c) c

/-- The first failure `at_` is one the selected tests can report. -/
def bistWhere (c : Chip) (at_ : Nat) : Nat :=
  if (1 ≤ at_ ∧ at_ ≤ 5 ∧ c.bit F.BIST_CTRL_MEM) ∨ (at_ = 6 ∧ c.bit F.BIST_CTRL_LOGIC) then at_ else 0

/-- BIST_DONE: the test ends with its first failure (0: none) and that word's index. -/
def bistDone (c : Chip) (at_ addr : Nat) : Chip :=
  match c.spare.bist with
  | none => c
  | some p =>
    let w := c.bistWhere at_
    let c1 := ((((c.zeroEngine p).setCore p {}).setAux p {}).setEngState p 0).modSpare fun s => { s with bist := none }
    let c2 := ((c1.setFld F.BIST_STATUS_BUSY 0).setFld F.BIST_STATUS_FAIL (if w = 0 then 0 else 1)).setFld F.BIST_STATUS_WHERE w
    ((c2.setFld F.BIST_STATUS_ADDR (if 1 ≤ w ∧ w ≤ 5 then addr else 0)).setFld F.BIST_STATUS_DONE 1).raise 52

/-! ### The loop test (R193) -/

/-- START of a loop test. -/
def loopStart (c : Chip) : Chip :=
  if c.spare.loop.isSome then c
  else
    let n := c.fld F.LOOP_CTRL_FRAMES
    (((c.setFld F.LOOP_STATUS_BUSY 1).setFld F.LOOP_STATUS_SYNC 0).modSpare fun s =>
      { s with loop := some (c.fld F.LOOP_CTRL_PORT, if n = 0 then none else some n, false), prbs := 0, prbsReg := 0 })

/-- STOP: the test ends at the next frame boundary. -/
def loopStop (c : Chip) : Chip := c.modSpare fun s => { s with loop := s.loop.map fun x => (x.1, x.2.1, true) }

/-- LOOP_DONE: the last frame has passed. -/
def loopDone (c : Chip) : Chip :=
  match c.spare.loop with
  | some (_, some 0, _) =>
    ((c.setFld F.LOOP_STATUS_BUSY 0).setFld F.LOOP_STATUS_DONE 1).modSpare fun s => { s with loop := none }
  | _ => c

/-- SAP `k` is looped. -/
def looped (c : Chip) (k : Nat) : Bool := match c.spare.loop with | some (p, _, _) => p == k | none => false

/-- One bit at the PRBS-23 checker (x^23 + x^18 + 1): it follows the bits until 32 in a row were right, then runs on its
own and counts errors. -/
def prbsBit (c : Chip) (b : Bool) : Chip :=
  let r := c.spare.prbsReg
  let want := bitAt r 22 != bitAt r 17
  let next := fun (x : Bool) => r * 2 % 2 ^ 23 + (if x then 1 else 0)
  if c.bit F.LOOP_STATUS_SYNC then
    (c.modSpare fun s => { s with prbsReg := next want }).when (b != want) (·.bump F.LOOP_STATUS_ERR_CNT)
  else
    let n := if b = want ∧ r ≠ 0 then c.spare.prbs + 1 else 0
    (c.modSpare fun s => { s with prbsReg := next b, prbs := n }).when (decide (32 ≤ n)) (·.setFld F.LOOP_STATUS_SYNC 1)

/-- A frame of the looped port: its bits in order, and the end of a frame. -/
def loopFrame (c : Chip) (bits : List Bool) : Chip :=
  (bits.foldl prbsBit c).modSpare fun s =>
    { s with loop := s.loop.map fun x => (x.1, (if x.2.2 then some 0 else x.2.1.map (· - 1)), x.2.2) }

end Chip

end Sys2Proof.Machine
end

