-- ==== Sys2Proof/Machine/SapUnit.lean ====
section
/-! DEFINITION. Serial audio ports, the ASRC pool and the MCLK outputs (spec/10). -/

namespace Sys2Proof.Machine

namespace Chip

/-! ### Formats (R230 to R232) -/

/-- A port's state. -/
def sapOf (c : Chip) (k : Nat) : Sap := Tab.get (fun _ => {}) c.sap k

/-- Write it. -/
def setSap (c : Chip) (k : Nat) (v : Sap) : Chip := { c with sap := Tab.set (fun _ => {}) c.sap k v }

/-- Change it. -/
def modSap (c : Chip) (k : Nat) (f : Sap → Sap) : Chip := c.setSap k (f (c.sapOf k))

/-- Slots of a frame. -/
def sapSlots (c : Chip) (k : Nat) : Nat :=
  if c.fld (F.SAP_FMT_FORMAT k) < 2 then 2 else max 1 (c.fld (F.SAP_FMT_SLOTS k)) + 1

/-- Slot width in bits. -/
def sapBits (c : Chip) (k : Nat) : Nat := match c.fld (F.SAP_FMT_BITS k) with | 1 => 24 | 2 => 16 | _ => 32

/-- Data bits of a slot. -/
def sapWord (c : Chip) (k : Nat) : Nat :=
  min (match c.fld (F.SAP_FMT_WORD k) with | 1 => 16 | 2 => 32 | _ => 24) (c.sapBits k)

/-- A word between the router and the pins (R231): 16 data bits, or the 24 of the router word. -/
def sapKeep (c : Chip) (k : Nat) (w : Word) : Word := if c.sapWord k = 16 then w &&& 0xFFFF0000 else w &&& 0xFFFFFF00

/-- The port is a clock master. -/
def sapMaster (c : Chip) (k : Nat) : Bool := c.bit (F.SAP_CTRL_MASTER k)

/-- The port is behind ASRC (R245). -/
def sapAsrc (c : Chip) (k : Nat) : Bool := c.bit (F.SAP_CTRL_ASRC k) && !c.sapMaster k

/-- The format fits the cadence (R232). -/
def sapFits (c : Chip) (k : Nat) : Bool :=
  c.sapAsrc k || decide (c.sapSlots k * c.sapBits k * 2 ^ (c.rate / 2) ≤ 1024)

/-- Ramp length R of the port. -/
def sapRamp (c : Chip) (k : Nat) : Nat := let r := c.fld (F.SAP_CTRL_RAMP k); if r = 0 ∨ 64 < r then 64 else r

/-- Bit `i` of SAP_STATUS sets, with its event unless masked (R249). -/
def sapFlag (c : Chip) (k i : Nat) : Chip :=
  let f : Field := ⟨Reg.SAP_STATUS k, 8, 0⟩
  if c.fbit f i then c else (c.setFbit f i).when (!c.fbit (F.SAP_MASK_MASK k) i) (·.raise (60 + k))

/-! ### The ASRC pool (R245 to R247) -/

/-- A channel's ramp. -/
def asrcOf (c : Chip) (ch : Nat) : AsrcRamp := Tab.get (fun _ => .muted) c.asrc ch

/-- Write it. -/
def setAsrc (c : Chip) (ch : Nat) (v : AsrcRamp) : Chip := { c with asrc := Tab.set (fun _ => .muted) c.asrc ch v }

/-- Bit `i` of ASRC_GSTATUSg sets, with event 68 + g (R249). -/
def asrcFlag (c : Chip) (g i : Nat) : Chip := c.stickyBit ⟨Reg.ASRC_GSTATUS g, 6, 0⟩ i (68 + g)

/-- The group runs: enabled, on a port behind ASRC that no other enabled group names (R245). -/
def asrcRuns (c : Chip) (g : Nat) : Bool :=
  let p := c.fld (F.ASRC_GCTRL_PORT g)
  c.bit (F.ASRC_GCTRL_EN g) && c.sapAsrc p &&
    (List.range 4).all fun h => h == g || !c.bit (F.ASRC_GCTRL_EN h) || c.fld (F.ASRC_GCTRL_PORT h) != p

/-- Channels of a group that are enabled. -/
def asrcChans (c : Chip) (g : Nat) : List Nat :=
  (List.range 64).filter fun ch => c.bit (F.ASRC_CH_EN ch) && c.fld (F.ASRC_CH_GROUP ch) == g

/-- RAMPING follows the channels. -/
def asrcRamping (c : Chip) (g : Nat) : Chip :=
  let r := (c.asrcChans g).any fun ch => match c.asrcOf ch with | .up _ => true | .down _ => true | _ => false
  c.setFld (F.ASRC_GSTATUS_RAMPING g) (if r then 1 else 0)

/-- A settled group unsettles with status bit `i` (R247). -/
def asrcUnsettle (c : Chip) (g i : Nat) : Chip :=
  if !c.bit (F.ASRC_GSTATUS_SETTLED g) then c
  else
    let c1 := (c.setFld (F.ASRC_GSTATUS_SETTLED g) 0).asrcFlag g i
    ((c1.asrcChans g).foldl (fun c ch => c.setAsrc ch (match c.asrcOf ch with | .muted => .muted | _ => .down 0)) c1).asrcRamping g

/-- Every settled group unsettles (R244, R283). -/
def asrcUnsettleAll (c : Chip) : Chip := (List.range 4).foldl (fun c g => c.asrcUnsettle g 2) c

/-- Groups that track port `k` lose it (R247). -/
def asrcPortLost (c : Chip) (k : Nat) : Chip :=
  (List.range 4).foldl (fun c g => c.when (c.fld (F.ASRC_GCTRL_PORT g) == k) (·.asrcUnsettle g 3)) c

/-- A write of ASRC_GCTRLg. -/
def writeAsrcGctrl (c : Chip) (g v : Nat) : Chip :=
  let was := c.bit (F.ASRC_GCTRL_EN g)
  let on := bitAt v 31
  let c0 := c.when (was && !on) (·.asrcUnsettle g 2)
  let c1 := ((c0.setFld (F.ASRC_GCTRL_EN g) (bits v 31 31)).setFld (F.ASRC_GCTRL_RAMP g) (bits v 7 0)).when (!was)
    (·.setFld (F.ASRC_GCTRL_PORT g) (bits v 26 24))
  c1.when (on && !was && !c1.asrcRuns g) (·.asrcFlag g 6)

/-- A write of ASRC_CHc: DIR, GROUP and SLOT are ignored while EN is 1; a channel enabled in a settled group ramps in. -/
def writeAsrcCh (c : Chip) (ch v : Nat) : Chip :=
  let was := c.bit (F.ASRC_CH_EN ch)
  let on := bitAt v 31
  let c1 := c.when (!was) fun c => ((c.setFld (F.ASRC_CH_DIR ch) (bits v 30 30)).setFld (F.ASRC_CH_GROUP ch) (bits v 25 24)).setFld
    (F.ASRC_CH_SLOT ch) (bits v 4 0)
  let c2 := c1.setFld (F.ASRC_CH_EN ch) (bits v 31 31)
  let g := c2.fld (F.ASRC_CH_GROUP ch)
  let c3 := if on ∧ !was then c2.setAsrc ch (if c2.bit (F.ASRC_GSTATUS_SETTLED g) then .up 0 else .muted)
    else if !on then c2.setAsrc ch .muted else c2
  c3.asrcRamping g

/-- Where a port resumes after a measurement (R241): input returns with a 64-sample fade, a held RESTART acts. -/
def sapResume (c : Chip) (k : Nat) : Chip :=
  ((c.setFld (F.SAP_STATUS_MUTED k) 0).setFld (F.SAP_STATUS_RUNNING k) 1).modSap k fun x =>
    { x with
      mode := .run, measured := true, retLen := 64, got := []
      ret := if x.sub.isSome then x.ret else some (0, 64)
      aligned := false, restart := false }

/-- ASRC_SETTLE: the group's ratio has settled (R246); a port that waits for that resumes (R241). -/
def asrcSettle (c : Chip) (g rho : Nat) : Chip :=
  if !c.asrcRuns g || c.bit (F.ASRC_GSTATUS_SETTLED g) || decide (rho < 2 ^ 25) || decide (2 ^ 31 < rho) then c
  else
    let p := c.fld (F.ASRC_GCTRL_PORT g)
    let c1 := ((c.setReg (Reg.ASRC_RATIO g) (BitVec.ofNat 32 rho)).setFld (F.ASRC_GSTATUS_SETTLED g) 1).asrcFlag g 1
    let c2 := ((c1.asrcChans g).foldl (fun c ch => c.setAsrc ch (.up 0)) c1).asrcRamping g
    c2.when ((c2.sapOf p).mode == .changed) (·.sapResume p)

/-- Ramp length of a group in ticks. -/
def asrcRampLen (c : Chip) (g : Nat) : Nat := let r := c.fld (F.ASRC_GCTRL_RAMP g); if r = 0 then 256 else r

/-- Gain of channel `ch` in this tick as a fraction. -/
def asrcGain (c : Chip) (ch : Nat) : Nat × Nat :=
  match c.asrcOf ch with
  | .muted => (0, 1)
  | .on => (1, 1)
  | .up j => (j + 1, c.asrcRampLen (c.fld (F.ASRC_CH_GROUP ch)))
  | .down j => (64 - (j + 1), 64)

/-- One converted sample of channel `ch`: the converter's result, which the spec leaves open, under the channel's gain. -/
def asrcSample (c : Chip) (ch : Nat) : Word × Chip :=
  let (num, den) := c.asrcGain ch
  if num = 0 then (0, c)
  else
    let (w, d) := c.draw
    (BitVec.ofInt 32 (nearDiv ((w &&& 0xFFFFFF00).toInt * num) den) &&& 0xFFFFFF00, d)

/-- The ramp one tick on. -/
def asrcNext (c : Chip) (ch : Nat) : Chip :=
  match c.asrcOf ch with
  | .up j => c.setAsrc ch (if j + 1 < c.asrcRampLen (c.fld (F.ASRC_CH_GROUP ch)) then .up (j + 1) else .on)
  | .down j => c.setAsrc ch (if j + 1 < 64 then .down (j + 1) else .muted)
  | _ => c

/-- The ASRC sources of this tick: IN channels deliver, every ramp takes a step. -/
def asrcTick (c : Chip) : Chip × List Word :=
  let one := fun (p : Chip × List Word) ch =>
    let c := p.1
    let (w, d) := if c.bit (F.ASRC_CH_EN ch) && !c.bit (F.ASRC_CH_DIR ch) then c.asrcSample ch else (0, c)
    (d.asrcNext ch, p.2 ++ [w])
  let (d, l) := (List.range 64).foldl one (c, [])
  ((List.range 4).foldl asrcRamping d, l)

/-! ### Ports: start, stop, faults (R241 to R244) -/

/-- The port stops: pins released, input channels deliver 0. -/
def sapOff (c : Chip) (k : Nat) : Chip :=
  ((((c.setFld (F.SAP_STATUS_RUNNING k) 0).setFld (F.SAP_STATUS_MUTED k) 0).setFld (F.SAP_STATUS_SUBST_ACT k) 0).setSap k
    {}).asrcPortLost k

/-- The port starts (R232, R242). -/
def sapBegin (c : Chip) (k : Nat) : Chip :=
  if !c.sapFits k then (c.sapOff k).sapFlag k 8
  else if c.sapMaster k then c.setSap k { mode := .wait }
  else (c.setFld (F.SAP_STATUS_MUTED k) 1).setSap k { mode := .measure }

/-- A write of SAP_CTRL (R242). -/
def writeSapCtrl (c : Chip) (k v : Nat) : Chip :=
  let was := c.bit (F.SAP_CTRL_EN k)
  let on := bitAt v 31
  let c0 := if was then c
    else c.setReg (Reg.SAP_CTRL k) (BitVec.ofNat 32 (v &&& 0x3FF8007F))
  let c1 := ((c0.setFld (F.SAP_CTRL_EN k) (bits v 31 31)).setFld (F.SAP_CTRL_SUBST k) (bits v 22 22)).setFld
    (F.SAP_CTRL_RAMP k) (bits v 6 0)
  let c2 := c1.when (bitAt v 30) (·.modSap k fun x => { x with restart := true })
  match on, was, (c2.sapOf k).mode with
  | true, false, _ => c2.sapBegin k
  | true, true, .off => c2.sapBegin k
  | true, true, .changed => c2.sapResume k
  | false, true, .run => c2.modSap k fun x => { x with mode := .stop }
  | false, true, _ => c2.sapOff k
  | _, _, _ => c2

/-- A write of SAP_FMT: ignored while EN is 1. -/
def writeSapFmt (c : Chip) (k v : Nat) : Chip :=
  if c.bit (F.SAP_CTRL_EN k) then c else c.setReg (Reg.SAP_FMT k) (BitVec.ofNat 32 (v / 65536 * 65536))

/-- SAP_CLOCK_LOST on follower `k` (R241). -/
def sapLost (c : Chip) (k : Nat) : Chip :=
  let m := (c.sapOf k).mode
  if c.sapMaster k || !(m == .run || m == .measure || m == .changed) then c
  else
    let c1 := ((c.sapFlag k 4).setFld (F.SAP_STATUS_MUTED k) 1).setFld (F.SAP_STATUS_RUNNING k) 0
    let c2 := (c1.modSap k fun x => { x with mode := .lost, got := [] }).asrcPortLost k
    c2.when (c2.trkSrc == k + 2) (·.refLoss 1)

/-- SAP_RATE_MEASURED: sixteen frames measured, `dev` ppm from nominal (R241). The first measurement of a port behind ASRC
has no earlier rate to differ from. -/
def sapMeasured (c : Chip) (k : Nat) (dev : Int) : Chip :=
  let x := c.sapOf k
  if c.sapMaster k || !(x.mode == .lost || x.mode == .measure || x.mode == .changed) then c
  else
    let d := if c.sapAsrc k && !x.measured then 0 else clampI (-32767) 32767 dev
    let c1 := c.setFld (F.SAP_MEAS_DEV k) (natOf 16 d)
    if d.natAbs ≤ 1000 then c1.sapResume k
    else (c1.sapFlag k 5).modSap k fun x => { x with mode := .changed }

/-- Follower `k` is muted and measured again (R243, R244). -/
def sapRemeasure (c : Chip) (k : Nat) : Chip :=
  let m := (c.sapOf k).mode
  if m == .run || m == .changed || m == .lost then
    (((c.setFld (F.SAP_STATUS_MUTED k) 1).setFld (F.SAP_STATUS_RUNNING k) 0).modSap k fun x => { x with mode := .measure, got := [] })
      |>.asrcPortLost k
  else c

/-- The format after a cadence change: SAP_FMT_NEXT where NEXT_EN asks for it, then the check of R232. -/
def sapNewFmt (c : Chip) (k : Nat) : Chip :=
  let c1 := c.when (c.bit (F.SAP_CTRL_NEXT_EN k)) fun c => c.setReg (Reg.SAP_FMT k) (c.reg (Reg.SAP_FMT_NEXT k))
  if c1.sapFits k then c1 else (c1.sapOff k).sapFlag k 8

/-- Every port at a cadence change (R243, R244). -/
def portsCadence (c : Chip) : Chip :=
  (List.range 8).foldl (fun c k =>
    let m := (c.sapOf k).mode
    if !c.bit (F.SAP_CTRL_EN k) || m == .off || c.sapAsrc k then c
    else if c.sapMaster k then c.sapNewFmt k
    else (c.sapNewFmt k).sapRemeasure k) c

/-- The tick pauses (R244, R287, R288): masters and clock outputs stop low at the end of their frame, followers measure
again, groups unsettle. -/
def portsPause (c : Chip) : Chip :=
  let c1 := (List.range 8).foldl (fun c k =>
    if c.sapMaster k then
      if (c.sapOf k).mode == .run then (c.setFld (F.SAP_STATUS_RUNNING k) 0).modSap k fun x => { x with mode := .wait }
      else c
    else if c.sapAsrc k then c
    else c.sapRemeasure k) c
  ((List.range 4).foldl (fun c m => c.setFld (F.MCLK_CTRL_RUNNING m) 0) (c1.setFld F.WCLK_CTRL_RUNNING 0)).asrcUnsettleAll

/-- A write of MCLK_CTRLm (R248): a change of SRC or DIV while it runs, or EN cleared, stops it; it starts at the next
E(n). -/
def writeMclk (c : Chip) (m v : Nat) : Chip :=
  let change := bits v 29 29 != c.fld (F.MCLK_CTRL_SRC m) || bits v 26 24 != c.fld (F.MCLK_CTRL_DIV m)
  let c1 := (((c.setFld (F.MCLK_CTRL_EN m) (bits v 31 31)).setFld (F.MCLK_CTRL_SLAVED m) (bits v 30 30)).setFld
    (F.MCLK_CTRL_SRC m) (bits v 29 29)).setFld (F.MCLK_CTRL_DIV m) (bits v 26 24)
  let gated := bitAt v 30 && c.bit F.TRK_STATUS_GATED && c.trkSrc != 0
  c1.when (!bitAt v 31 || change || gated) (·.setFld (F.MCLK_CTRL_RUNNING m) 0)

/-! ### Frames (R236 to R240) -/

/-- Bits of a frame in the order sent. -/
def frameBits (c : Chip) (k : Nat) (ws : List Word) : List Bool :=
  ws.flatMap fun w => (List.range (c.sapBits k)).map fun i => bitAt w.toNat (31 - i)

/-- SAP_FRAME_RECEIVE: a frame of port `k` completes: its slot words as sampled, MSB first, the bit periods between its
FSYNC edges, and when in the tick (1/65536). In a pause a master's last frame still completes (R244). -/
def sapReceive (c : Chip) (k : Nat) (words : List Word) (count phase : Nat) : Chip :=
  let x := c.sapOf k
  let last := x.mode == .wait && c.bit F.TICK_STATUS_PAUSED
  if x.mode != .run && x.mode != .stop && !last then c
  else
    let n := c.sapSlots k
    let ws := (List.range n).map fun i => words.getD i 0
    if c.looped k then c.loopFrame (c.frameBits k ws)
    else if c.bit F.TICK_STATUS_PAUSED && (!c.sapMaster k || !x.got.isEmpty) then c
    else
      let full := n * c.sapBits k
      let follower := !c.sapMaster k
      let sync := follower && !c.sapAsrc k
      let c1 := c.when sync (·.setFld (F.SAP_MEAS_PHASE k) phase)
      let good := ws.map (c.sapKeep k)
      let put := fun (c : Chip) (f : Option (List Word)) => c.modSap k fun x =>
        { x with got := x.got ++ [f], rawPrev := x.raw, raw := ws }
      if follower && !c.bit (F.SAP_CTRL_LOOSE k) then
        if count ≠ full then put ((c1.sapFlag k 3).bump (F.SAP_CNT_GLITCH_CNT k)) none else put c1 (some good)
      else if follower then
        let fresh := !x.aligned || x.restart
        let ctr := if fresh then 0 else (x.ctr + count) % full
        let c2 := c1.modSap k fun x => { x with aligned := true, restart := false, ctr := ctr }
        put (c2.when (ctr != 0) (·.sapFlag k 2)) (some good)
      else put c1 (some good)

/-- A tick-synchronous follower that receives frames. -/
def sapLively (c : Chip) (k : Nat) : Bool :=
  (c.sapOf k).mode == .run && !c.sapMaster k && !c.sapAsrc k

/-- The reference member of port `k`'s alignment group (R239). -/
def sapRef (c : Chip) (k : Nat) : Option Nat :=
  if !c.bit (F.SAP_CTRL_GRP_EN k) then none
  else
    let g := c.fld (F.SAP_CTRL_GROUP k)
    let live := (List.range 8).filter fun j => c.bit (F.SAP_CTRL_GRP_EN j) && c.fld (F.SAP_CTRL_GROUP j) == g && c.sapLively j
    match live.find? fun j => c.bit (F.SAP_CTRL_REF j) with
    | some r => if (c.sapOf r).sub.isSome then live.head? else some r
    | none => live.head?

/-- What a port's input does in this tick: live words, the words of the frame before, or a substitute; and the status bits
it sets; the last says whether SLIP_IN_CNT counts. -/
def sapInput (c : Chip) (k : Nat) : Option (List Word) × List Nat × Bool :=
  let x := c.sapOf k
  let m := x.got.length
  let newest := x.got.getLast?.getD none
  let alone : Option (List Word) × List Nat × Bool :=
    if m = 0 then if x.first then (some x.prev, [0], true) else (none, [], false)
    else (newest, if m = 1 then [] else [0], m != 1)
  match c.sapRef k with
  | none => alone
  | some r =>
    if r = k then alone
    else
      let y := c.sapOf r
      let mr := y.got.length
      if mr = 0 ∧ y.first then (some x.prev, [0], false)
      else if 2 ≤ mr then if m = 0 then (none, [0, 6], false) else (newest, [0], false)
      else if m = 0 then (none, if x.first then [6] else [], false)
      else if m = 1 then (newest, [], false)
      else if x.sub.isSome then (none, [7], false)
      else (newest, [7], false)

end Chip

/-- Substituted sample `i` after the last good sample `l` (R240). -/
def substSample (hold : Bool) (r i : Nat) (l : Word) : Word :=
  if hold then l else if r ≤ i + 1 then 0 else BitVec.ofInt 32 (nearDiv (l.toInt * (r - (i + 1) : Nat)) r)

/-- Sample `j` of a return (R240). -/
def returnSample (r j : Nat) (live x : Word) : Word :=
  BitVec.ofInt 32 (nearDiv (live.toInt * (j + 1 : Nat) + x.toInt * (r - (j + 1) : Nat)) r)

namespace Chip

/-- Live words enter: directly, or with the return of R240. -/
def sapLive (c : Chip) (k : Nat) (w : List Word) : Chip :=
  c.modSap k fun x =>
    let ret := if x.sub.isSome then some (0, max 1 x.retLen) else x.ret
    let out := match ret with
      | some (j, r) => (List.range w.length).map fun i => returnSample r j (w.getD i 0) (x.x.getD i 0)
      | none => w
    let ret' := match ret with | some (j, r) => if j + 1 < r then some (j + 1, r) else none | none => none
    { x with out := out, prev := w, last := w, first := true, sub := none, ret := ret', got := [] }

/-- A substitute enters (R240). -/
def sapSubst (c : Chip) (k : Nat) : Chip :=
  let r := c.sapRamp k
  let hold := c.bit (F.SAP_CTRL_SUBST k)
  c.modSap k fun x =>
    if !x.first then { x with out := [], got := [] }
    else
      let i := x.sub.getD 0
      let out := x.last.map (substSample hold r i)
      { x with out := out, x := out, sub := some (i + 1), ret := none, retLen := r, got := [] }

/-- Port `k` in phase-0 cycle 0: its frame of the tick that has ended enters (R233, R236 to R240). -/
def sapPhase0 (c : Chip) (k : Nat) : Chip :=
  let x := c.sapOf k
  let c1 :=
    match x.mode with
    | .run =>
      if c.sapAsrc k then c.modSap k fun x => { x with got := [], out := [] }
      else if c.sapMaster k then
        c.sapLive k (match x.got.getLast? with | some (some w) => w | _ => List.replicate (c.sapSlots k) 0)
      else
        let (w, fl, cnt) := c.sapInput k
        let c2 := (fl.foldl (fun (c : Chip) i => c.sapFlag k i) c).when cnt (·.bump (F.SAP_CNT_SLIP_IN_CNT k))
        match w with
        | some w => c2.sapLive k w
        | none => c2.sapSubst k
    | .lost => c.sapSubst k
    | .measure => c.sapSubst k
    | .changed => c.sapSubst k
    | .wait =>
      let d := (c.setFld (F.SAP_STATUS_RUNNING k) 1).modSap k fun x => { x with mode := .run, out := [], retLen := c.sapRamp k }
      match x.got.getLast? with
      | some (some w) => d.sapLive k w
      | _ => d.modSap k fun x => { x with got := [] }
    | .stop => c.sapOff k
    | .off => c
  c1.setFld (F.SAP_STATUS_SUBST_ACT k) (if (c1.sapOf k).sub.isSome then 1 else 0)

/-- Every port in phase-0 cycle 0; the slip decisions of all see the frames of all. -/
def portsPhase0 (c : Chip) : Chip :=
  let order := fun (k : Nat) => c.sapRef k == some k || (c.sapRef k).isNone
  let members := (List.range 8).filter (!order ·)
  let others := (List.range 8).filter order
  (members ++ others).foldl sapPhase0 c

/-- Router source of slot `s` of SAP `k` (R229, R245). -/
def sapSource (c : Chip) (k s : Nat) : Word :=
  let x := c.sapOf k
  if !c.bit (F.SAP_CTRL_RX_EN k) || c.sapAsrc k || c.looped k || decide (c.sapSlots k ≤ s) then 0 else x.out.getD s 0

/-- The output frame starts of port `k` since the last phase 2 are counted there (R236): none, or more than one, is an
output slip of a tick-synchronous follower. -/
def sapOutSlip (c : Chip) (k : Nat) : Chip := (c.sapFlag k 0).bump (F.SAP_CNT_SLIP_OUT_CNT k)

/-- The output interval ends. -/
def portsPhase2 (c : Chip) : Chip :=
  (List.range 8).foldl (fun c k =>
    let x := c.sapOf k
    if x.mode == .run then
      (c.when (c.sapLively k && x.sent == 0 && x.first) (·.sapOutSlip k)).modSap k fun x => { x with sent := 0 }
    else c) c

/-- The device drives its shared pads (R195): standalone and not latched, or holding the token. -/
def drivesShared (c : Chip) : Bool :=
  c.bit F.TLK_STATUS_TOKEN || (c.fld F.TLK_STATUS_STATE == 0 && !c.bit F.TLK_STATUS_LATCHED)

/-- The slot words an output frame of port `k` carries, before the fast lane (R231, R245). -/
def frameWords (c : Chip) (k : Nat) : List Word × Chip :=
  (List.range (c.sapSlots k)).foldl (fun (p : List Word × Chip) s =>
    if c.sapAsrc k then
      match (List.range 64).find? fun ch => c.bit (F.ASRC_CH_EN ch) && c.bit (F.ASRC_CH_DIR ch) &&
          c.fld (F.ASRC_CH_SLOT ch) == s && c.fld (F.ASRC_GCTRL_PORT (c.fld (F.ASRC_CH_GROUP ch))) == k with
      | some ch => let (w, d) := p.2.asrcSample ch; (p.1 ++ [w], d)
      | none => (p.1 ++ [0], p.2)
    else (p.1 ++ [Tab.get (fun _ => 0) c.rtr.sink (32 * k + s)], p.2)) ([], c)

/-- What DOUT carries in each slot (R235): nothing where the slot is not driven, the port does not send or the pads are
the partner's. -/
def sapDrive (c : Chip) (k : Nat) (ws : List Word) : List (Option Word) :=
  let on := c.bit (F.SAP_CTRL_TX_EN k) && c.drivesShared
  (List.range (c.sapSlots k)).map fun s =>
    if on && c.fbit (F.SAP_TXSLOT_DRIVE k) s then some (if c.looped k then 0 else c.sapKeep k (ws.getD s 0)) else none

end Chip

end Sys2Proof.Machine
end

