-- ==== Sys2Proof/Machine/Router.lean ====
section
/-! DEFINITION. The router: sources and sinks, fades, the two passes, output protection, meters, and the fast lane
(spec/11). -/

namespace Sys2Proof.Machine

/-- A 24-bit sample of a word (bits 31:8). -/
def x24 (w : Word) : Int := (w.toInt) / 256

/-- A word of a 24-bit sample. -/
def word24 (x : Int) : Word := BitVec.ofInt 32 (x * 256)

/-- round(2^23 × sin(πj / 2N)) (R256). -/
def fadeSin (j n : Nat) : Int :=
  let t := tauFix * j / (4 * n)
  (altSeries 14 1 (t * t / 2 ^ 60) t true 0 + 2 ^ 36) / 2 ^ 37

/-- round(2^23 × cos(πj / 2N)). -/
def fadeCos (j n : Nat) : Int :=
  let t := tauFix * j / (4 * n)
  (altSeries 14 0 (t * t / 2 ^ 60) (2 ^ 60) true 0 + 2 ^ 36) / 2 ^ 37

/-- The gain of an entry at step `j` of a fade of `n` ticks (R256). -/
def Route.at_ (r : Route) (law : Bool) (j n : Nat) : Int :=
  if r.old = r.tgt ∨ n ≤ j then r.tgt
  else if law then rndEven (r.old * fadeCos j n + r.tgt * fadeSin j n) (2 ^ 23)
  else r.old + truncDiv ((r.tgt - r.old) * j) n

namespace Chip

/-- Change the router's state. -/
def modRtr (c : Chip) (f : Rtr → Rtr) : Chip := { c with rtr := f c.rtr }

/-- A route entry's gains. -/
def route (c : Chip) (k : Nat) : Route := Tab.get (fun _ => {}) c.rtr.routes k

/-! ### Commits and fades (R254 to R258) -/

/-- COMMIT of RTR_COMMIT (R255). -/
def rtrCommit (c : Chip) : Chip :=
  if c.bit F.RTR_COMMIT_PENDING then c.sticky F.RTR_STATUS_REJ 72
  else
    let n := c.fld F.RTR_COMMIT_FADE
    let (t, late) := c.commitAt (c.bit F.RTR_COMMIT_AT_MODE) Reg.RTR_AT_LO Reg.RTR_AT_HI
    let t' := if t = 0 ∧ c.tick.phase = .p0 then c.now + 1 else t
    (c.setFld F.RTR_COMMIT_PENDING 1).modRtr fun x =>
      { x with pend := some (if n = 0 then 256 else n, c.bit F.RTR_COMMIT_LAW, t', late) }

/-- CANCEL. -/
def rtrCancel (c : Chip) : Chip := (c.setFld F.RTR_COMMIT_PENDING 0).modRtr fun x => { x with pend := none }

/-- A write of RTR_COMMIT: CANCEL acts before COMMIT. -/
def writeRtrCommit (c : Chip) (v : Nat) : Chip :=
  let c1 := ((c.setFld F.RTR_COMMIT_AT_MODE (bits v 29 29)).setFld F.RTR_COMMIT_LAW (bits v 28 28)).setFld F.RTR_COMMIT_FADE
    (bits v 7 0)
  (c1.when (bitAt v 30) rtrCancel).when (bitAt v 31) rtrCommit

/-- A write of RT_EPk; the second result says that it was refused (R254). -/
def writeRtEp (c : Chip) (k v : Nat) : Chip × Bool :=
  let r := c.route k
  if r.cur = 0 ∧ r.tgt = 0 ∧ !(c.tick.stage == 1 && c.rtr.effect) then
    (c.setReg (Reg.RT_EP k) (BitVec.ofNat 32 (v &&& 0x07FF07FF)), false)
  else (c.sticky F.RTR_STATUS_EP_BUSY 72, true)

/-- RT_CURk as it reads. -/
def rtCurWord (c : Chip) (k : Nat) : Word :=
  let r := c.route k
  BitVec.ofNat 32 ((if r.cur = 0 ∧ r.tgt = 0 then 0 else 2 ^ 31) + natOf 24 r.cur)

/-- What a commit captures for entry `k` (R256). -/
def staged (c : Chip) (k : Nat) : Int :=
  if c.fld (F.RT_EP_SINK k) < 928 then sext (c.fld (F.RT_GAIN_GAIN k)) 24 else 0

/-- Every entry captures its staged gain; the fade starts at j = 1 (R256, R257). -/
def rtrCapture (c : Chip) (n : Nat) (law : Bool) : Chip :=
  let rs := (List.range 4096).foldl (fun t k =>
    let r : Route := Tab.get (fun _ => {}) t k
    Tab.set (fun _ => {}) t k { r with old := r.cur, tgt := c.staged k }) c.rtr.routes
  (c.setFld F.RTR_COMMIT_PENDING 0).modRtr fun x => { x with routes := rs, pend := none, j := 1, n := n, law := law, effect := true }

/-- Phase-0 cycle 0 of the router: a commit due takes effect, else a fade takes its step; then every gain follows. -/
def rtrCycle0 (c : Chip) : Chip :=
  let c0 := c.modRtr fun x => { x with effect := false }
  let c1 := match c0.rtr.pend with
    | some (n, law, t, late) =>
      if t ≤ c0.now then (c0.rtrCapture n law).when (late || decide (t ≠ 0 ∧ t < c0.now)) (·.sticky F.RTR_STATUS_LATE 72)
      else c0
    | none => c0
  let moving := 0 < c1.rtr.j ∧ c1.rtr.j < c1.rtr.n
  let c2 := if c1.rtr.effect then c1 else if moving then c1.modRtr fun x => { x with j := x.j + 1 } else c1
  if c1.rtr.effect ∨ moving then
    let r := c2.rtr
    let rs := r.routes.foldl (fun t p => Tab.set (fun _ => {}) t p.1 { p.2 with cur := p.2.at_ r.law r.j r.n }) r.routes
    let c3 := (c2.modRtr fun x => { x with routes := rs }).setFld F.RTR_STATUS_STEP r.j
    if r.n ≤ r.j then (c3.setFld F.RTR_STATUS_FADING 0).sticky F.RTR_STATUS_DONE 72 else c3.setFld F.RTR_STATUS_FADING 1
  else c2

/-! ### Sources and the mix (R250 to R253) -/

/-- The word a source delivers. -/
def source (c : Chip) (code : Nat) : Word :=
  if 256 ≤ code ∧ code < 896 then c.frozen (c.phys ((code - 256) / 64)) ((code - 256) % 64)
  else if code < 992 then Tab.get (fun _ => 0) c.rtr.src code
  else 0

/-- The exact sums of all sinks: by sink code, over the entries with a gain. -/
def mixSums (c : Chip) : List (Nat × Int) :=
  c.rtr.routes.foldl (fun t p =>
    if p.2.cur = 0 then t
    else
      let sink := c.fld (F.RT_EP_SINK p.1)
      Tab.set (fun _ => 0) t sink (Tab.get (fun _ => 0) t sink + x24 (c.source (c.fld (F.RT_EP_SRC p.1))) * p.2.cur)) []

/-- A sink's sample from its sum, with CLIP where it saturates (R253). -/
def mixed (c : Chip) (sum : Int) : Int × Chip :=
  let r := rndEven sum (2 ^ 20)
  let y := satI r 24
  (y, if y = r then c else (c.sticky F.RTR_STATUS_CLIP 72).bump F.RTR_STATUS_CLIP_CNT)

/-! ### Meters and silence (R267 to R269) -/

/-- Meter point `k` takes sample `x` (R268, R269). -/
def meterTake (c : Chip) (k : Nat) (x : Int) : Chip :=
  let m := x.natAbs
  let c1 := c.setFld (F.MTR_PEAK_PEAK k) (max (c.fld (F.MTR_PEAK_PEAK k)) m)
  let sq : Nat := min (m * m / 2 ^ 14) 0xFFFFFFFF
  let ms := (c.reg (Reg.MTR_MS k)).toNat
  let w := let w := c.fld (F.MTR_CFG_W k); if w < 4 then 4 else w
  let c2 := c1.setReg (Reg.MTR_MS k) (BitVec.ofInt 32 ((ms : Int) + truncDiv ((sq : Int) - (ms : Int)) ((2 ^ w : Nat) : Int)))
  let pk := c.fld (F.MTR_THR_PEAK_THR k)
  let c3 := c2.when (pk != 0 && decide (pk * 256 ≤ m)) (·.stickyBit ⟨Reg.MTR_OVER (k / 32), 31, 0⟩ (k % 32) 74)
  let f : Field := ⟨Reg.SIL_STATE (k / 32), 31, 0⟩
  let chg := fun (c : Chip) => c.stickyBit ⟨Reg.SIL_CHG (k / 32), 31, 0⟩ (k % 32) 73
  if m < c.fld (F.MTR_THR_SIL_THR k) * 256 then
    let q := min (Tab.get (fun _ => 0) c.rtr.quiet k + 1) (16384 * 64)
    let c4 := c3.modRtr fun r => { r with quiet := Tab.set (fun _ => 0) r.quiet k q }
    if max 1 (c.fld (F.MTR_CFG_HOLD k)) * 64 ≤ q ∧ !c4.fbit f (k % 32) then chg (c4.setFbit f (k % 32)) else c4
  else
    let c4 := c3.modRtr fun r => { r with quiet := Tab.set (fun _ => 0) r.quiet k 0 }
    if c4.fbit f (k % 32) then chg (c4.clrFbit f (k % 32)) else c4

/-- SILENCE_ENTER: the hold of point `k` has passed and it is not silent yet. -/
def silenceEnter (c : Chip) (k : Nat) : Chip :=
  let f : Field := ⟨Reg.SIL_STATE (k / 32), 31, 0⟩
  if c.bit (F.MTR_CFG_EN k) && !c.fbit f (k % 32) &&
      decide (max 1 (c.fld (F.MTR_CFG_HOLD k)) * 64 ≤ Tab.get (fun _ => 0) c.rtr.quiet k) then
    (c.setFbit f (k % 32)).stickyBit ⟨Reg.SIL_CHG (k / 32), 31, 0⟩ (k % 32) 73
  else c

/-- A write of MTR_CFGk: the point restarts (R267). -/
def writeMtrCfg (c : Chip) (k : Nat) (v : Word) : Chip :=
  let c1 := ((c.setReg (Reg.MTR_CFG k) v).setReg (Reg.MTR_PEAK k) 0).setReg (Reg.MTR_MS k) 0
  (c1.clrFbit ⟨Reg.SIL_STATE (k / 32), 31, 0⟩ (k % 32)).modRtr fun r => { r with quiet := Tab.set (fun _ => 0) r.quiet k 0 }

/-- The points that watch sink `code` (`post`: after the trip mute) take `x`. -/
def meterSinks (c : Chip) (l : List Nat) (post : Bool) (code : Nat) (x : Int) : Chip :=
  l.foldl (fun c k =>
    if c.bit (F.MTR_CFG_SINK k) && c.fld (F.MTR_CFG_POINT k) == code &&
        (decide (256 ≤ code) || c.bit (F.MTR_CFG_POST k) == post) then c.meterTake k x else c) c

/-- The points enabled. -/
def meterPoints (c : Chip) : List Nat := (List.range 256).filter fun k => c.bit (F.MTR_CFG_EN k)

/-- The points that watch sources `p` holds for take their samples. -/
def meterSources (c : Chip) (l : List Nat) (p : Nat → Bool) : Chip :=
  l.foldl (fun c k =>
    let code := c.fld (F.MTR_CFG_POINT k)
    if !c.bit (F.MTR_CFG_SINK k) && p code then c.meterTake k (x24 (c.source code)) else c) c

/-- A code of a source of the engines' outputs. -/
def engCode (code : Nat) : Bool := decide (256 ≤ code) && decide (code < 896)

/-! ### The passes (R252, R259 to R261) -/

/-- ROUTER_PASS_A: engine inputs. -/
def passA (c : Chip) : Chip :=
  let pts := c.meterPoints
  let sums := c.mixSums
  let c1 := c.meterSources pts (!engCode ·)
  (List.range 640).foldl (fun c i =>
    let (y, d) := c.mixed (Tab.get (fun _ => 0) sums (256 + i))
    let p := d.phys (i / 64)
    (d.meterSinks pts false (256 + i) y).when (d.domOn p) (·.pokeW (inputAddr p (i % 64)) (word24 y))) c1

/-- Protection of a SAP output channel. -/
def protOf (c : Chip) (code : Nat) : Prot := Tab.get (fun _ => {}) c.rtr.prot code

/-- Write it. -/
def setProt (c : Chip) (code : Nat) (v : Prot) : Chip :=
  c.modRtr fun r => { r with prot := Tab.set (fun _ => {}) r.prot code v }

/-- Ticks of HOLD (R261). -/
def dcHold (c : Chip) (port : Nat) : Nat := max 1 (c.fld (F.PROT_DC_HOLD port)) * 16

/-- The DC detector on a mixed sample (R261). -/
def dcDetect (c : Chip) (code : Nat) (x : Int) : Chip :=
  let port := code / 32
  let k := let k := c.fld (F.PROT_DC_TC port); if k < 8 then 8 else k
  let v := c.protOf code
  let dc := v.dc + (x - v.dc) / (2 ^ k : Nat)
  let tripped := decide (c.fld (F.PROT_DC_THR port) * 256 ≤ dc.natAbs)
  let cnt := if tripped then min (v.cnt + 1) 65536 else 0
  (c.setProt code { v with dc := dc, cnt := cnt }).when (decide (c.dcHold port ≤ cnt))
    (·.stickyBit ⟨Reg.PROT_TRIP port, 31, 0⟩ (code % 32) 75)

/-- DC_TRIP: the count of channel `code` has reached HOLD. -/
def dcTrip (c : Chip) (code : Nat) : Chip :=
  c.when (decide (c.dcHold (code / 32) ≤ (c.protOf code).cnt)) (·.stickyBit ⟨Reg.PROT_TRIP (code / 32), 31, 0⟩ (code % 32) 75)

/-- The limiter (R260). -/
def limit (c : Chip) (code : Nat) (x : Int) : Int × Chip :=
  let port := code / 32
  let ceil := c.fld (F.PROT_LIM_CEIL port)
  if 0x8000 ≤ ceil then (x, c)
  else
    let y := clampI (-(ceil * 256 : Nat)) (ceil * 256 : Nat) x
    if y = x then (x, c)
    else
      let f : Field := ⟨Reg.PROT_LIMACT port, 31, 0⟩
      (y, if c.bit (F.PROT_LIM_LIM_EVT port) then c.stickyBit f (code % 32) 75 else c.setFbit f (code % 32))

/-- The trip mute (R261). -/
def tripMute (c : Chip) (code : Nat) (x : Int) : Int × Chip :=
  let v := c.protOf code
  let m := if c.fbit ⟨Reg.PROT_TRIP (code / 32), 31, 0⟩ (code % 32) then v.m - 1 else min 64 (v.m + 1)
  (if m = 64 then x else rndEven (x * m) 64, c.setProt code { v with m := m })

/-- WARM_FADE in ticks (R224). -/
def warmFade (c : Chip) : Nat := let n := c.fld F.TLK_CFG_WARM_FADE; if n = 0 then 256 else n

/-- The takeover ramp (R224, R259). -/
def warmGain (c : Chip) (x : Int) : Int :=
  match c.rtr.warm with
  | some j => if j < c.warmFade then rndEven (x * fadeSin j c.warmFade) (2 ^ 23) else x
  | none => x

/-- One SAP output channel in pass B (R259). -/
def sapSink (pts : List Nat) (sums : List (Nat × Int)) (c : Chip) (code : Nat) : Chip :=
  let (y, c1) := c.mixed (Tab.get (fun _ => 0) sums code)
  let c2 := (c1.meterSinks pts false code y).dcDetect code y
  let (y1, c3) := c2.limit code y
  let (y2, c4) := c3.tripMute code y1
  let out := c4.warmGain y2
  (c4.meterSinks pts true code y2).modRtr fun r => { r with sink := Tab.set (fun _ => 0) r.sink code (word24 out) }

/-- One USB IN channel in pass B. -/
def usbSink (pts : List Nat) (sums : List (Nat × Int)) (c : Chip) (code : Nat) : Chip :=
  let (y, c1) := c.mixed (Tab.get (fun _ => 0) sums code)
  (c1.meterSinks pts false code y).modRtr fun r => { r with sink := Tab.set (fun _ => 0) r.sink code (word24 y) }

/-- ROUTER_PASS_B: SAP outputs and USB IN. -/
def passB (c : Chip) : Chip :=
  let pts := c.meterPoints
  let sums := c.mixSums
  let c1 := c.meterSources pts engCode
  let c2 := (List.range 256).foldl (sapSink pts sums) c1
  let c3 := (List.range 32).foldl (fun c u => usbSink pts sums c (896 + u)) c2
  c3.modRtr fun r => { r with warm := match r.warm with
    | some j => if j + 1 < c3.warmFade then some (j + 1) else none
    | none => none }

/-- A port starts: its channels' detectors start at 0 (R261). -/
def protStart (c : Chip) (port : Nat) : Chip :=
  (List.range 32).foldl (fun c s => c.setProt (32 * port + s) { c.protOf (32 * port + s) with dc := 0, cnt := 0 }) c

/-- A write of PROT_LIMp: CEIL is capped at the fused ceiling (R260). -/
def writeProtLim (c : Chip) (p v : Nat) : Chip :=
  (c.setFld (F.PROT_LIM_LIM_EVT p) (bits v 31 31)).setFld (F.PROT_LIM_CEIL p) (min (bits v 15 0) (c.fld (F.PROT_FUSE_LIM_CEIL p)))

/-- A write of PROT_DCp: THR is capped. -/
def writeProtDc (c : Chip) (p v : Nat) : Chip :=
  ((c.setFld (F.PROT_DC_THR p) (min (bits v 31 16) (c.fld (F.PROT_FUSE_DC_CEIL p)))).setFld (F.PROT_DC_TC p) (bits v 15 12)).setFld
    (F.PROT_DC_HOLD p) (bits v 11 0)

/-! ### Fast lane (R262 to R265) -/

/-- A route's ramp. -/
def fastLane (c : Chip) (j : Nat) : FastLane := Tab.get (fun _ => {}) c.rtr.fl j

/-- Write it. -/
def setFastLane (c : Chip) (j : Nat) (v : FastLane) : Chip :=
  c.modRtr fun r => { r with fl := Tab.set (fun _ => {}) r.fl j v }

/-- Route `j` drives its slot. -/
def flActive (c : Chip) (j : Nat) : Bool := c.fbit F.FL_STATUS_ACTIVE j

/-- The conditions of R262. -/
def flOk (c : Chip) (j : Nat) : Bool :=
  let s := c.fld (F.FL_CTRL_SRC_PORT j)
  let d := c.fld (F.FL_CTRL_DST_PORT j)
  let run := fun p => c.bit (F.SAP_STATUS_RUNNING p)
  let plain := fun p => !c.sapAsrc p && !(c.bit (F.SAP_CTRL_LOOSE p) && !c.sapMaster p) && !c.looped p
  run s && run d && c.bit (F.SAP_CTRL_RX_EN s) && c.bit (F.SAP_CTRL_TX_EN d) &&
    (s == d || (c.sapMaster s && c.sapMaster d && c.sapSlots s == c.sapSlots d && c.sapBits s == c.sapBits d)) &&
    plain s && plain d && decide (c.fld (F.FL_CTRL_SRC_SLOT j) < c.sapSlots s) &&
    decide (c.fld (F.FL_CTRL_DST_SLOT j) < c.sapSlots d) &&
    (List.range j).all fun i => !(c.flActive i && c.fld (F.FL_CTRL_DST_PORT i) == d &&
      c.fld (F.FL_CTRL_DST_SLOT i) == c.fld (F.FL_CTRL_DST_SLOT j))

/-- A write of FL_CTRLj (R265). -/
def writeFlCtrl (c : Chip) (j v : Nat) : Chip :=
  let was := c.bit (F.FL_CTRL_EN j)
  let c1 := if c.flActive j then
      (c.setFld (F.FL_CTRL_EN j) (bits v 31 31)).setFld (F.FL_CTRL_RAMP j) (bits v 29 22)
    else c.setReg (Reg.FL_CTRL j) (BitVec.ofNat 32 (v / 64 * 64))
  if bitAt v 31 ∧ !was then (c1.setFld (F.FL_GAIN_CUR j) 0).setFastLane j {} else c1

/-- FAST_LANE_ACTIVATE: a route that is requested and meets every condition becomes active; one that fails faults. -/
def flActivate (c : Chip) (j : Nat) : Chip :=
  if !c.bit (F.FL_CTRL_EN j) then c
  else if c.flOk j then c.setFbit F.FL_STATUS_ACTIVE j
  else (c.clrFbit F.FL_STATUS_ACTIVE j).stickyBit F.FL_STATUS_FAULT j 72

/-- The gain of route `j` steps at its destination's frame start (R265). -/
def flStep (c : Chip) (j : Nat) : Chip :=
  let c1 := c.flActivate j
  let cur := c1.fld (F.FL_GAIN_CUR j)
  let on := c1.bit (F.FL_CTRL_EN j)
  let t := if on then min (c1.fld (F.FL_GAIN_TARGET j)) 0x8000 else 0
  if !c1.flActive j then c1
  else if !on ∧ cur = 0 then c1.clrFbit F.FL_STATUS_ACTIVE j
  else
    let x := c1.fastLane j
    let y : FastLane := if t = x.target then { x with f := x.f + 1 } else { cur0 := cur, target := t, f := 1 }
    let n := max 1 (c1.fld (F.FL_CTRL_RAMP j))
    let g := if n ≤ y.f then (t : Int) else y.cur0 + truncDiv (((t : Int) - y.cur0) * y.f) n
    (c1.setFld (F.FL_GAIN_CUR j) g.toNat).setFastLane j { y with f := min y.f n }

/-- The destination slot of route `j` (R263, R264); `now` is its source slot as sampled in this frame. -/
def flWord (c : Chip) (j : Nat) (now : Word) : Word :=
  let s := c.fld (F.FL_CTRL_SRC_PORT j)
  let n := c.sapBits s
  let d : Int := ((c.fld (F.FL_CTRL_DST_SLOT j) : Int) - c.fld (F.FL_CTRL_SRC_SLOT j)) * n
  let w := if 4 ≤ d then now else (c.sapOf s).raw.getD (c.fld (F.FL_CTRL_SRC_SLOT j)) 0
  let x := w.toInt / 2 ^ (32 - n)
  let y := x * c.fld (F.FL_GAIN_CUR j) / 2 ^ 15
  BitVec.ofInt 32 ((if c.bit (F.FL_CTRL_INV j) then -y - 1 else y) * 2 ^ (32 - n))

/-- SAP_FRAME_TRANSMIT: an output frame of port `k` starts; `lane` gives, by fast-lane route, its source slot as sampled
in this frame. The answer is what each slot carries. -/
def sapTransmit (c : Chip) (k : Nat) (lane : List Word) : Chip :=
  let x := c.sapOf k
  if x.mode != .run && x.mode != .stop then c
  else
    let again := c.sapLively k && decide (x.sent = 1)
    let c1 := (c.when again (·.sapOutSlip k)).modSap k fun x => { x with sent := x.sent + 1 }
    let js := (List.range 16).filter fun j => c.fld (F.FL_CTRL_DST_PORT j) == k
    let c2 := js.foldl flStep c1
    let (ws, c3) := c2.frameWords k
    let outs := c3.sapDrive k ws
    let own := js.filter c3.flActive
    let outs' := (List.range outs.length).map fun s =>
      match own.find? fun j => c3.fld (F.FL_CTRL_DST_SLOT j) == s with
      | some j => if c3.drivesShared then some (c3.flWord j (lane.getD j 0)) else none
      | none => outs.getD s none
    c3.answer (.slots outs')

end Chip

end Sys2Proof.Machine
end

