-- ==== Sys2Proof/Machine/Tandem.lean ====
section
/-! DEFINITION. The tandem unit: pairing, frames, the drive token and the latch, the ledger's queues, rejoin
(spec/09). What applies entries and segments stands where the bus is. -/

namespace Sys2Proof.Machine

/-- CRC-32 of IEEE 802.3 over one byte (R208): reflected polynomial 0xEDB88320. -/
def crc32Byte (crc b : Nat) : Nat :=
  Nat.repeat (fun r => if r % 2 = 1 then (r / 2) ^^^ 0xEDB88320 else r / 2) 8 (crc ^^^ b)

/-- CRC-32 over bytes. -/
def crc32 (l : List Nat) : Nat := l.foldl crc32Byte 0xFFFFFFFF ^^^ 0xFFFFFFFF

/-- The four bytes of a word, the lowest first. -/
def bytesOf (w : Word) : List Nat := (List.range 4).map fun k => (byteOf w k).toNat

namespace Chip

/-! ### Names -/

/-- Tandem operation is enabled. -/
def tandem (c : Chip) : Bool := c.bit F.TLK_CFG_EN

/-- The device is the leader now. -/
def leader (c : Chip) : Bool := c.bit F.TLK_STATUS_LEADER

/-- The link is trained and not lost. -/
def linkUp (c : Chip) : Bool := c.bit F.TLK_STATUS_LINK_UP

/-- The fail-silent latch is set. -/
def latched (c : Chip) : Bool := c.bit F.TLK_STATUS_LATCHED

/-- The states of R200 in which the link is watched: SHADOW, LOCKSTEP, WARM. -/
def paired (c : Chip) : Bool := c.tlkState == 5 || c.tlkState == 6 || c.tlkState == 7

/-- Ledger entries per frame. -/
def ldgPerFrame (c : Chip) : Nat := min 96 (max 1 (c.fld F.TLK_FWD_LDG_PER_FRAME))

/-- QDEPTH follows the entries not sent yet. -/
def qdepth (c : Chip) : Chip := c.setFld F.TLK_LDG_CMD_QDEPTH (c.tlk.queue.filter (·.2.isNone)).length

/-- LINK_UP changes, with event 100. -/
def setLink (c : Chip) (up : Bool) : Chip :=
  if c.linkUp = up then c else (c.setFld F.TLK_STATUS_LINK_UP (if up then 1 else 0)).tlkEvt 0

/-- Router source codes forwarded over the link, in order: SAP inputs marked FWD, USB OUT, ASRC sources (R196). -/
def fwdCodes (c : Chip) : List Nat :=
  ((List.range 8).filter fun k => c.fbit F.TLK_FWD_SAP k).flatMap (fun k => (List.range (c.sapSlots k)).map (32 * k + ·)) ++
  (if c.bit F.TLK_FWD_USB then (List.range 32).map (896 + ·) else []) ++
  ((List.range 64).filter fun ch => c.bit (F.ASRC_CH_EN ch) && !c.bit (F.ASRC_CH_DIR ch)).map (928 + ·)

/-! ### Rejoin control (R226, R227) -/

/-- A rejoin ends without success (R227). -/
def rejoinAbort (c : Chip) (reason : Nat) : Chip :=
  let c1 := (((c.setFld F.TLK_REJOIN_STATUS_PHASE 0).setFld F.TLK_REJOIN_STATUS_REASON reason).setFld
    F.TLK_REJOIN_STATUS_ABORTED 1).tlkEvt 4
  let inIt := c.tlkState == 4 || c.tlkState == 5 || (c.tlkState == 2 && c.tlk.onWay)
  (c1.when inIt (·.setTlkState 8)).modTlk fun t => { t with onWay := false, clean := 0, records := [], again := [] }

/-- START of TLK_REJOIN_CTRL (R226). -/
def rejoinStart (c : Chip) : Chip :=
  let ready := !c.latched && !c.holdsToken && (c.tlkState == 8 || (c.tlkState == 2 && c.tlk.onWay))
  if !ready then
    (((c.setFld F.TLK_REJOIN_STATUS_REASON 1).setFld F.TLK_REJOIN_STATUS_ABORTED 1).tlkEvt 4)
  else if !(c.domOn 16 && c.bit F.DDR_STATUS_READY) ∨ c.ddrSize < c.tlk.partCap then c.rejoinAbort 5
  else
    (((c.setTlkState 4).setFld F.TLK_REJOIN_STATUS_PHASE 1).setFld F.TLK_REJOIN_STATUS_REASON 0).modTlk fun t =>
      { t with onWay := false, source := false, seg := 0, again := [], records := [], clean := 0 }

/-- ABORT, or a fault with its reason, ends a rejoin in progress. -/
def rejoinStop (c : Chip) (reason : Nat) : Chip :=
  if c.fld F.TLK_REJOIN_STATUS_PHASE ≠ 0 then c.rejoinAbort reason else c

/-- REJOIN_SNAP: the copy is complete; the largest program must leave room for catching up (R226, R227). -/
def rejoinSnap (c : Chip) : Chip :=
  if c.fld F.TLK_REJOIN_STATUS_PHASE ≠ 1 ∨ !c.tlk.again.isEmpty then c
  else
    let most := (List.range 10).foldl (fun m p => max m (c.plen p)) 0
    if c.budget < most + 256 then c.rejoinAbort 2
    else (c.setFld F.TLK_REJOIN_STATUS_PHASE 2).setFld F.TLK_REJOIN_STATUS_LEFT 0

/-- The windows of a reader stream have landed as far as its plan goes (R226). -/
def windowsLanded (c : Chip) : Bool :=
  c.streamIxs.all fun s =>
    let x := c.stream s
    dKind x.d0 == 3 || dKind x.d0 == 0 || !x.running ||
      (List.range (x.hi - x.lo + 1).toNat).all fun (k : Nat) => x.landed.contains (x.lo + k)

/-- REJOIN_CATCHUP: the readers' windows have landed. -/
def rejoinCatchup (c : Chip) : Chip :=
  if c.fld F.TLK_REJOIN_STATUS_PHASE = 2 ∧ c.windowsLanded then c.setFld F.TLK_REJOIN_STATUS_PHASE 3 else c

/-- REJOIN_SHADOW: the next tick of the catch-up is the real one. -/
def rejoinShadow (c : Chip) : Chip :=
  if c.fld F.TLK_REJOIN_STATUS_PHASE = 3 ∧ c.fld F.TLK_REJOIN_STATUS_LAG = 0 then
    ((c.setFld F.TLK_REJOIN_STATUS_PHASE 4).setTlkState 5).modTlk fun t => { t with clean := 0, own := [], part := [] }
  else c

/-- REJOIN_DONE: enough matching ticks (R226). -/
def rejoinDone (c : Chip) : Chip :=
  if c.fld F.TLK_REJOIN_STATUS_PHASE = 4 ∧ max 1 (c.fld F.TLK_REJOIN_CTRL_CLEAN) * 1024 ≤ c.tlk.clean then
    ((((c.setFld F.TLK_REJOIN_STATUS_PHASE 0).setFld F.TLK_REJOIN_STATUS_DONE 1).setFld F.TLK_STATUS_ARMED 1).setTlkState
      6).tlkEvt 4
  else c

/-- A write of TLK_REJOIN_CTRL. -/
def writeRejoinCtrl (c : Chip) (v : Nat) : Chip :=
  ((c.setFld F.TLK_REJOIN_CTRL_CLEAN (bits v 15 0)).when (bitAt v 30) (·.rejoinStop 7)).when (bitAt v 31) rejoinStart

/-! ### Pairing (R203 to R205) -/

/-- EN of TLK_CFG is set (R203). -/
def tandemOn (c : Chip) : Chip :=
  let c1 := c.setFld F.TLK_STATUS_LEADER (if c.bit F.TLK_CFG_ROLE then 0 else 1)
  (c1.setTlkState (if c.latched then 9 else 1)).modTlk fun t => { t with tokenInit := c.bit F.TLK_CFG_TOKEN_INIT }

/-- EN is cleared: OFF. -/
def tandemOff (c : Chip) : Chip :=
  let c1 := c.setLink false
  let c2 := c1.when c1.holdsToken fun c => (c.setFld F.TLK_STATUS_TOKEN 0).tlkEvt 2
  let c3 := (((c2.setTlkState 0).setFld F.TLK_STATUS_ARMED 0).setFld F.TLK_STATUS_LEADER 0).setFld F.TLK_STATUS_FAIL_REASON 0
  (((c3.setFld F.TLK_STATUS_PART_ARMED 0).setFld F.TLK_REJOIN_STATUS_PHASE 0).modTlk fun t =>
    { image := t.image, build := t.build, fseq := t.fseq, nextId := t.nextId, killOut := t.killOut }).qdepth

/-- A write of TLK_CFG: ROLE, TOKEN_INIT and MODE_REQ are ignored while EN is 1. -/
def writeTlkCfg (c : Chip) (v : Nat) : Chip :=
  let was := c.tandem
  let keep := (c.reg Reg.TLK_CFG).toNat &&& 0x70000000
  let w := (v &&& 0x0FF00000 ||| v &&& 0x000FFFC0 ||| v &&& 0x80000000) &&& 0x8CFFFFC0
  let w' := w ||| (if was then keep else v &&& 0x70000000)
  let c1 := c.setReg Reg.TLK_CFG (BitVec.ofNat 32 w')
  if bitAt v 31 && !was then c1.tandemOn else if !bitAt v 31 && was then c1.tandemOff else c1

/-- A write of TLK_FWD: ignored in lockstep and shadow. -/
def writeTlkFwd (c : Chip) (v : Nat) : Chip :=
  if c.lockstep then c else c.setReg Reg.TLK_FWD (BitVec.ofNat 32 (v &&& 0xFF0003FF))

/-- LINK_TRAINED (R197, R206, R223). -/
def linkTrained (c : Chip) : Chip :=
  if !c.tandem ∨ c.linkUp then c
  else
    let c1 := c.setLink true
    if c.tlkState = 1 ∨ c.tlkState = 8 then c1.setTlkState 2 else c1

/-- Blocks a direction carries per tick (R198). -/
def linkCap (c : Chip) : Nat := 189393939 / fsHz c.rate - 16

/-- Sense points converted in a tick (R201). -/
def sensePoints (c : Chip) : Nat := if c.rate < 4 then 256 else if c.rate < 6 then 128 else 64

/-- The frame load fits (R205); twice the load, for the half block per point. -/
def loadFits (c : Chip) : Bool :=
  let nfwd := c.fwdCodes.length
  let sense := if c.bit F.TLK_FWD_SENSE then 9 * c.sensePoints else 0
  decide (sense + 4 * (3 + 2 * c.ldgPerFrame + (nfwd + 1) / 2) ≤ 2 * c.linkCap)

/-- The pair fails (R204, R205). -/
def pairFail (c : Chip) (reason : Nat) : Chip := ((c.setFld F.TLK_STATUS_FAIL_REASON reason).setTlkState 3).tlkEvt 5

/-- NEGOTIATION_FRAME: an intact frame has arrived; `acked` says the partner has acknowledged this device's (R203 to
R205). -/
def negotiate (c : Chip) (f : NegFrame) (acked : Bool) : Chip :=
  if !c.tandem || c.tlkState != 2 || !c.linkUp then c
  else
    let majors := (f.others.toNat &&& 0xF9) + (if f.minor1.isSome then 2 else 0) + (if f.minor2.isSome then 4 else 0)
    let c1 := (((c.setFld F.TLK_PART_INFO_REV f.rev.toNat).setFld F.TLK_PART_INFO_MAJORS majors).setReg Reg.TLK_PART_BUILD
      f.build).modTlk fun t => { t with partCap := f.capacity }
    if !acked then c1
    else
      let ver : Option (Nat × Nat) := match f.minor2, f.minor1 with
        | some m, _ => some (2, min 1 m)
        | none, some m => some (1, min 2 m)
        | none, none => none
      match ver with
      | none => c1.pairFail 1
      | some (major, minor) =>
        if f.role = c1.bit F.TLK_CFG_ROLE then c1.pairFail 2
        else if f.token ∧ c1.bit F.TLK_CFG_TOKEN_INIT then c1.pairFail 3
        else
          let c2 := ((c1.setFld F.TLK_STATUS_MAJOR major).setFld F.TLK_STATUS_MINOR minor).when (!c1.leader)
            (·.modTlk fun t => { t with marker := some f.stc })
          let fwd := c2.reg Reg.TLK_FWD
          let caps := if c2.leader then decide (c2.ddrSize ≤ f.capacity) else decide (f.capacity ≤ c2.ddrSize)
          let both := f.lockstep && c2.bit F.TLK_CFG_MODE_REQ
          let rest := f.image == c2.tlk.image && f.build == c2.tlk.build && f.fwd == fwd &&
            (!c2.bit F.TLK_FWD_SENSE || major == 2) && caps
          if both && rest && !c2.loadFits then c2.pairFail 4
          else if both && rest then
            let mine := c2.holdsToken || c2.tlk.tokenInit
            if mine then (c2.setTlkState 6).tlkEvt 5
            else (c2.tlkEvt 5).modTlk fun t => { t with onWay := true }
          else
            let mine := c2.holdsToken || c2.tlk.tokenInit
            ((c2.setTlkState 7).setFld F.TLK_STATUS_ARMED (if mine then 0 else 1)).tlkEvt 5

/-- MARKER_STC_LOAD: at the marker edge the follower loads the leader's STC, a multiple of 4096 (R202). -/
def markerLoad (c : Chip) : Chip :=
  match c.tlk.marker with
  | none => c
  | some v =>
    let t := BitVec.ofNat 64 ((v.toNat / 4096 + 1) * 4096)
    let c1 := c.modTlk fun x => { x with marker := none }
    if c1.halted && c1.tick.phase == .idle then c1.modTick fun x => { x with stc := t, load := none }
    else c1.modTick fun x => { x with load := some t }

/-! ### Link loss (R200, R223) -/

/-- The link is lost. -/
def linkLost (c : Chip) : Chip :=
  let c1 := (c.setLink false).tlkEvt 0
  let c2 := if c1.tlkState = 5 ∨ (c1.tlkState = 4 ∧ !c1.tlk.source) then c1.rejoinAbort 8
    else if c1.paired ∨ c1.tlkState = 4 then c1.setTlkState 8 else c1
  (c2.when (!c2.holdsToken) (·.setFld F.TLK_STATUS_ARMED 0)).modTlk fun t =>
    { t with
      fwd := [], sense := [], silent := 0, missing := [], source := false
      entries := if c.leader then t.entries else [] }

/-- LINK_LOSS: four ticks in a row without an intact core. -/
def linkLoss (c : Chip) : Chip := if c.paired && decide (4 ≤ c.tlk.silent) then c.linkLost else c

/-! ### The ledger's queues (R210, R214) -/

/-- An address inside the ledger ranges. -/
def ledgerRange (a : Nat) : Bool :=
  (decide (0x30000000 ≤ a) && decide (a < 0x32800000)) ||
    [0x4003, 0x4008, 0x4009, 0x400A, 0x400D].contains (a / 65536) || a == Reg.TLK_TOKEN_MOVE

/-- A direct write of a core or the host into the ledger ranges is refused (R214). -/
def ledgerGuarded (c : Chip) (a : Nat) : Bool := c.lockstep && c.bit F.TLK_CFG_GUARD && ledgerRange a

/-- Why a submission is rejected, 0 for none (R210). -/
def ldgReject (c : Chip) : Nat :=
  let a := (c.reg Reg.TLK_LDG_ADDR).toNat
  if !c.leader || !(c.tlkState == 6 || c.tlkState == 8) then 1
  else if !ledgerRange a || a % 4 != 0 || (a == Reg.TLK_TOKEN_MOVE && c.fld F.TLK_STATUS_MINOR == 0) then 2
  else if 64 ≤ (c.tlk.queue.filter (·.2.isNone)).length then 3
  else 0

/-- The first tick from `t` on with room for an entry. -/
def ldgRoom (c : Chip) (t : Nat) : Nat :=
  t + ((List.range (c.tlk.entries.length + 1)).find? fun d =>
    decide ((c.tlk.entries.filter (·.stamp == t + d)).length < 96)).getD 0

/-- SUBMIT (R210). A leader without a link has nobody to send entries to. -/
def ldgSubmit (c : Chip) : Chip :=
  let why := c.ldgReject
  if why ≠ 0 then (c.setFld F.TLK_LDG_CMD_REJ why).when (why == 3) (·.tlkEvt 6)
  else
    let want := c.reg64 Reg.TLK_LDG_AT_LO Reg.TLK_LDG_AT_HI
    let unsent := (c.tlk.queue.filter (·.2.isNone)).length
    let lead := let l := c.fld F.TLK_CFG_LEAD; if l < 3 then 3 else l
    let k := (unsent + c.ldgPerFrame - 1) / c.ldgPerFrame
    let t := c.ldgRoom (max want (c.now + lead + k))
    let e : LdgEntry := ⟨(c.reg Reg.TLK_LDG_ADDR).toNat, c.reg Reg.TLK_LDG_DATA, t, c.tlk.nextId⟩
    let c1 := c.modTlk fun x =>
      { x with
        entries := x.entries ++ [e], nextId := x.nextId + 1
        queue := if c.linkUp then x.queue ++ [(e, none)] else x.queue }
    ((c1.setReg64 Reg.TLK_LDG_STAMP_LO Reg.TLK_LDG_STAMP_HI t).when (t != want)
      (·.setFld F.TLK_LDG_CMD_RESTAMPED 1)).qdepth

/-! ### Digests (R208, R209) -/

/-- The digest of the tick whose sinks pass B has just delivered. -/
def digest (c : Chip) : Word :=
  let chan := fun (code : Nat) => Tab.get (fun _ => 0) c.rtr.sink code
  let words := (List.range 256).map (fun k => if c.fld (F.SAP_STATUS_RUNNING (k / 32)) = 1 ∧ k % 32 < c.sapSlots (k / 32)
    then chan k else 0) ++ (List.range 32).map fun u => chan (896 + u)
  BitVec.ofNat 32 (crc32 (words.flatMap fun w => bytesOf (w &&& 0xFFFFFF00)))

/-- A mismatch of tick `m` (R209). -/
def diverged (c : Chip) (m : Nat) : Chip :=
  let first := c.reg Reg.TLK_DIV_CNT == 0
  let c1 := ((c.tlkEvt 3).bump F.TLK_DIV_CNT_COUNT).when first (·.setReg Reg.TLK_DIV_TICK_LO (BitVec.ofNat 32 m))
  let c2 := (c1.modTlk fun t => { t with div := true, divAt := c.now, clean := 0 }).when
    (c1.bit F.TLK_CFG_DIV_DISARM && !c1.holdsToken) (·.setFld F.TLK_STATUS_ARMED 0)
  c2.when (c2.tlkState == 5) (·.rejoinAbort 6)

/-- DIGEST_COMPARE in phase-0 cycle 0 of tick n + 2. -/
def digestCompare (c : Chip) : Chip :=
  let m := c.now - 2
  let drop := fun (c : Chip) => c.modTlk fun t =>
    { t with own := t.own.filter fun x => decide (m < x.1), part := t.part.filter fun x => decide (m < x.1) }
  if !c.lockstep then drop c
  else
    match c.tlk.own.find? (·.1 == m), c.tlk.part.find? (·.1 == m) with
    | some (_, d, l), some (_, e, k) =>
      if l || k then drop c
      else
        let c1 := (c.setReg Reg.TLK_DIGEST_OWN d).setReg Reg.TLK_DIGEST_PART e
        drop (if d = e then c1.modTlk fun t => { t with clean := if c.tlkState = 5 then t.clean + 1 else 0 } else c1.diverged m)
    | _, _ => drop c

/-! ### Tick frames (R199, R200) -/

/-- Forwarded words were lost (R215, cause 4): the follower asks for the latch, and the words it takes are unknown. -/
def fwdLost (c : Chip) (n : Nat) : Chip :=
  let c1 := c.when (!c.leader && c.lockstep) (·.latchRequest 4)
  let (ws, c2) := (List.range n).foldl (fun (p : List Word × Chip) _ => let (w, d) := p.2.draw; (p.1 ++ [w], d)) ([], c1)
  c2.modTlk fun t => { t with fwd := ws }

/-- What an intact frame of the partner says of its state (R206, R215, R221). -/
def partnerState (c : Chip) (f : TFrame) : Chip :=
  let st := f.state.toNat
  if f.latched then (c.tlkEvt 1).when (c.tlkState == 6 || c.tlkState == 7) (·.setTlkState 8)
  else if st = 4 ∧ c.tlkState = 8 ∧ c.holdsToken then (c.setTlkState 4).modTlk fun t => { t with source := true }
  else if c.tlkState = 4 ∧ c.tlk.source then
    if st = 6 then (c.setTlkState 6).modTlk fun t => { t with source := false }
    else if st = 8 then (c.setTlkState 8).modTlk fun t => { t with source := false }
    else c
  else c

/-- An intact frame. -/
def frameTake (c : Chip) (f : TFrame) : Chip :=
  let have_ := fun (t : Tlk) (e : LdgEntry) => t.entries.any (·.id == e.id)
  let takes := c.lockstep && !c.leader
  let sent := fun (s : Nat) => decide ((f.ack.toNat + 256 - s) % 256 < 128)
  let c1 := (c.setFld F.TLK_STATUS_PART_ARMED (if f.armed then 1 else 0)).modTlk fun t =>
    { t with
      heard := true, ack := f.fseq.toNat, fwd := if takes then f.fwd else t.fwd
      queue := t.queue.filter fun q => match q.2 with | some s => !sent s | none => true
      entries := if takes then t.entries ++ f.entries.filter (!have_ t ·) else t.entries
      missing := t.missing.filter fun e => !f.entries.any (·.id == e.id)
      part := t.part ++ [(c.now - 1, f.digest, f.latched)] }
  let c2 := c1.when (f.div && c1.lockstep && c1.tlk.divAt + 1 != c1.now) (·.diverged (c.now - 3))
  let lag := f.tick.toNat + 1 - c2.now % 2 ^ 32
  let c3 := c2.when (c2.fld F.TLK_REJOIN_STATUS_PHASE == 3) fun c =>
    (c.setFld F.TLK_REJOIN_STATUS_LAG (min 1023 lag)).when (decide (4095 < lag)) (·.rejoinAbort 4)
  c3.partnerState f

/-- TICK_FRAME_RECEIVE: a partner frame with the state of its two core copies (R200). -/
def frameReceive (c : Chip) (f : TFrame) (ok1 ok2 : Bool) : Chip :=
  if !c.tandem || !c.linkUp then c
  else
    let bad := (if ok1 then 0 else 1) + (if ok2 || ok1 then 0 else 1)
    let c1 := c.bumpBy F.TLK_LINK_CNT_CRC_ERR bad
    if ok1 || ok2 then
      if c1.paired && f.tick != BitVec.ofNat 32 (c1.now - 1) then c1.linkLost else c1.frameTake f
    else
      let c2 := (c1.bump F.TLK_LINK_CNT_FRAME_LOST).modTlk fun t =>
        { t with missing := t.missing ++ f.entries.filter fun e => !t.entries.any (·.id == e.id) }
      if f.fwd.isEmpty then c2 else c2.fwdLost f.fwd.length

/-- LEDGER_CHECK at the end of phase 1: an announced entry for the next tick is missing (R212). -/
def ledgerCheck (c : Chip) : Chip :=
  c.when (c.lockstep && !c.leader && c.tlk.missing.any (·.stamp == c.now + 1)) (·.latchRequest 3)

/-- TICK_FRAME_ASSEMBLE: F(n) (R199). -/
def frameAssemble (c : Chip) : Chip :=
  if !c.tandem || !c.linkUp then c
  else
    let fseq := (c.tlk.fseq + 1) % 256
    let sends := c.leader && !(c.tlkState == 7)
    let first := (c.tlk.queue.zipIdx.map fun q => if q.2 < c.ldgPerFrame ∧ sends then (q.1.1, some (q.1.2.getD fseq)) else q.1)
    let es := if sends then (c.tlk.queue.take c.ldgPerFrame).map (·.1) else []
    let d := (c.tlk.own.getLast?.map (·.2.1)).getD 0
    let f : TFrame := {
      tick := BitVec.ofNat 32 c.now, state := BitVec.ofNat 4 c.tlkState, token := c.holdsToken, latched := c.latched
      standIn := c.tlk.standIn, armed := c.bit F.TLK_STATUS_ARMED, fseq := BitVec.ofNat 8 fseq
      ack := BitVec.ofNat 8 c.tlk.ack, digest := d, div := c.tlk.div, entries := es, fwd := [] }
    (c.modTlk fun t => { t with tx := some f, fseq := fseq, div := false, standIn := false, queue := first }).qdepth

/-! ### Token and latch (R215 to R222) -/

/-- DRIVE_OUT_UPDATE in phase-2 cycle 6 (R216). -/
def driveOut (c : Chip) : Chip :=
  c.modTlk fun t => { t with driveOut := c.holdsToken && !c.latched && !t.moving }

/-- A planned move reaches this device from the ledger (R219). -/
def tokenMove (c : Chip) : Chip :=
  if c.holdsToken then
    if c.bit F.TLK_STATUS_PART_ARMED then c.modTlk fun t => { t with moving := true }
    else c.setFld F.TLK_LATCH_REQ_DENIED 1
  else c.when (c.bit F.TLK_STATUS_ARMED) (·.modTlk fun t => { t with moving := true })

/-- The holder whose drive line has fallen lets go of the token (R216, R219, R222). -/
def tokenRelease (c : Chip) : Chip :=
  if c.holdsToken && !c.tlk.driveOut && (c.latched || c.tlk.moving) then
    let c1 := ((c.setFld F.TLK_STATUS_TOKEN 0).tlkEvt 2).modTlk fun t => { t with released := true }
    if c1.latched then
      ((c1.setFld F.TLK_STATUS_LEADER 0).modTlk fun t => { t with queue := [] }).qdepth
    else c1.setFld F.TLK_STATUS_ARMED 1
  else c.modTlk fun t => { t with released := false }

/-- The device takes the token (R203, R218, R222, R224). -/
def tokenTake (c : Chip) : Chip :=
  let init := c.tlk.tokenInit
  let warm := c.tlkState == 7
  let c1 := (((c.setFld F.TLK_STATUS_TOKEN 1).setFld F.TLK_STATUS_ARMED 0).tlkEvt 2).modTlk fun t => { t with tokenInit := false }
  if init then c1
  else
    let c2 := (c1.tlkEvt 1).when warm (·.modRtr fun r => { r with warm := some 1 })
    if c2.leader || c.tlk.moving then c2 else (c2.setFld F.TLK_STATUS_LEADER 1).freewheel

/-- Phase-0 cycle 0: release, then the sample of TLK_DRIVE_IN by a device that was armed, or is to take the token at
pairing (R203, R218). -/
def tokenCycle0 (c : Chip) (driveIn : Bool) : Chip :=
  let may := c.tandem && (c.bit F.TLK_STATUS_ARMED || c.tlk.tokenInit) && !c.latched && !c.holdsToken
  let c1 := c.tokenRelease
  let c2 := if may then
      let d := c1.setFld F.TLK_STATUS_DRIVE_IN (if driveIn then 1 else 0)
      if driveIn then d else d.tokenTake
    else c1
  c2.modTlk fun t =>
    { t with
      moving := false, killOut := t.killOut - 1, heard := false
      silent := if c2.paired then (if t.heard then 0 else t.silent + 1) else 0 }

/-- TLK_KILL_IN is sampled (R215). -/
def killIn (c : Chip) (level : Bool) : Chip :=
  let c1 := c.setFld F.TLK_STATUS_KILL_IN (if level then 1 else 0)
  if level then c1.latchSet 2 else c1

/-- A write of TLK_LATCH (R215, R221). -/
def writeTlkLatch (c : Chip) (v : Nat) : Chip :=
  let c1 := c.when (bitAt v 28) (·.setFld F.TLK_LATCH_REQ_DENIED 0)
  let c2 := c1.when (bitAt v 29 && c1.latched && !c1.holdsToken) fun c =>
    ((c.setFld F.TLK_STATUS_LATCHED 0).setFld F.TLK_STATUS_ARMED 0).when (c.tlkState == 9) (·.setTlkState 8)
  let c3 := c2.when (bitAt v 30) (·.modTlk fun t => { t with killOut := 2 })
  c3.when (bitAt v 31) (·.latchSet 5)

/-- CLOCK_FAILURE_RELEASE: the tick has not advanced for two tick periods (R217). -/
def clockFailure (c : Chip) : Chip :=
  if !c.tandem || !(c.holdsToken || c.tlk.released) then c
  else
    let c1 := c.when c.holdsToken fun c => (c.setFld F.TLK_STATUS_TOKEN 0).tlkEvt 2
    (c1.latchSet 6).modTlk fun t => { t with driveOut := false, released := true }

/-- TLK_TICK_LOSS: no edge of TLK_TICK_IN for 1.5 periods (R222). -/
def tickLoss (c : Chip) : Chip :=
  if !c.tandem || c.leader || c.bit F.TICK_STATUS_PAUSED then c
  else
    let c1 := if c.trkSrc = 11 then c.refLoss 1 else c
    (c1.when c1.holdsToken (·.setFld F.TLK_STATUS_LEADER 1)).modTlk fun t => { t with tickLost := true }

/-- EXPRESS_GROUP_RECEIVE: four points of the leader's scan (R201), of tick `tick`, the first `first`, sixteen relay
words; both copies bad is a lost forwarded input. -/
def expressReceive (c : Chip) (tick first : Nat) (words : List Word) (ok1 ok2 : Bool) : Chip :=
  if !(c.lockstep && !c.leader && c.linkUp && c.bit F.TLK_FWD_SENSE) then c
  else
    let bad := (if ok1 then 0 else 1) + (if ok2 || ok1 then 0 else 1)
    let c1 := c.bumpBy F.TLK_LINK_CNT_CRC_ERR bad
    let put := fun (c : Chip) (ws : List Word) => c.modTlk fun t =>
      { t with sense := (t.sense.filter fun x => x.1 < 4 * first ∨ 4 * first + 16 ≤ x.1) ++
          (List.range 16).map fun i => (4 * first + i, ws.getD i 0) }
    if ok1 || ok2 then (if tick % 2 ^ 32 = c1.now % 2 ^ 32 then put c1 words else c1)
    else
      let c2 := c1.latchRequest 4
      let (ws, c3) := (List.range 16).foldl (fun (p : List Word × Chip) _ => let (w, d) := p.2.draw; (p.1 ++ [w], d)) ([], c2)
      put c3 ws

end Chip

end Sys2Proof.Machine
end

