-- ==== Sys2Proof/Machine/SenseAct.lean ====
section
/-! DEFINITION. The sense front end and the actuator channels (spec/13). -/

namespace Sys2Proof.Machine

/-- A point restarts (R298): its next conversion is its first. -/
def SPoint.again (x : SPoint) : SPoint :=
  { x with conv := 0, suppr := true, silent := false, vvalid := false, hush := 0 }

/-- Suppression of a point ends once four ticks have passed since its first conversion and its velocity is VALID. -/
def SPoint.lift (x : SPoint) (tick : Nat) : SPoint :=
  if x.suppr ∧ 0 < x.conv ∧ x.begun + 4 ≤ tick ∧ x.vvalid then { x with suppr := false, silent := x.down } else x

/-- Filter and velocity of a SENSE point (R296): position filter 2^F, velocity filter 2^G, scale 2^VSH. -/
def SPoint.track (x : SPoint) (out F G vsh : Nat) (at_ : Int) : SPoint :=
  let y : Int := if x.conv = 0 then out else x.y + ((out : Int) - x.y) / (2 ^ F : Nat)
  let v : Int :=
    if x.conv < 2 then x.v
    else
      let raw := truncDiv ((y - x.y) * 32) (at_ - x.at_)
      if x.conv = 2 then raw else x.v + truncDiv (raw - x.v) (2 ^ G : Nat)
  { x with
    y := y, v := v, at_ := at_, conv := x.conv + 1, hush := x.hush - 1
    pos := y * 128, vel := satI (v * (2 ^ vsh : Nat) * 128) 24
    vvalid := decide (2 ≤ x.conv) && x.hush == 0 }

/-- Rail counts of a conversion (R299). -/
def SPoint.rails (x : SPoint) (code : Nat) : SPoint :=
  let lo := if code < 0x40 then min 16 (x.lo + 1) else 0
  let hi := if 0xFFBF < code then min 16 (x.hi + 1) else 0
  let mid := if 0x40 ≤ code ∧ code ≤ 0xFFBF then min 16 (x.mid + 1) else 0
  { x with
    lo := lo, hi := hi, mid := mid
    railLo := (x.railLo || lo == 16) && mid != 16, railHi := (x.railHi || hi == 16) && mid != 16 }

namespace Chip

/-- Change the sense front end's state. -/
def modSense (c : Chip) (f : Sense → Sense) : Chip := { c with sense := f c.sense }

/-- A sense point. -/
def point (c : Chip) (p : Nat) : SPoint := Tab.get (fun _ => {}) c.sense.points p

/-- TYPE of a point: 0 OFF, 1 SENSE, 2 CURRENT; 3 acts as 0. -/
def ptType (c : Chip) (p : Nat) : Nat := c.fld (F.SENSE_PT_CFG_TYPE p) % 3

/-- The ADC of point `p` is faulted now. -/
def adcBad (c : Chip) (p : Nat) : Bool := c.fbit F.SENSE_ADC_FAULT_NOW (p / 16)

/-- A point is faulted (R299). -/
def ptBad (c : Chip) (p : Nat) : Bool := (c.point p).railLo || (c.point p).railHi || c.adcBad p

/-- Write a point; SENSE_PT_STAT shows its key state and faults. -/
def setPoint (c : Chip) (p : Nat) (x : SPoint) : Chip :=
  let f := fun (b : Bool) (i : Nat) => if b then 2 ^ i else 0
  let c1 := c.modSense fun s => { s with points := Tab.set (fun _ => {}) s.points p x }
  c1.setReg (Reg.SENSE_PT_STAT p) (BitVec.ofNat 32 (c1.fld (F.SENSE_PT_STAT_RAW p) * 65536 + f x.down 15 + f x.railLo 14 +
    f x.railHi 13 + f (c1.adcBad p) 12 + f x.suppr 11 + f x.vvalid 10))

/-- All points. -/
def allPoints (c : Chip) (f : Nat → SPoint → SPoint) : Chip :=
  (List.range 256).foldl (fun c p => c.setPoint p (f p (c.point p))) c

/-! ### Actuator trips (R313 to R317) -/

/-- Change an actuator channel. -/
def modAct (c : Chip) (k : Nat) (f : ActCh → ActCh) : Chip :=
  { c with act := Tab.set (fun _ => {}) c.act k (f (Tab.get (fun _ => {}) c.act k)) }

/-- An actuator channel. -/
def actCh (c : Chip) (k : Nat) : ActCh := Tab.get (fun _ => {}) c.act k

/-- The event of a trip cause (R317). -/
def tripEvent (cause : Nat) : Nat := if cause = 4 then 89 else if cause = 2 ∨ cause = 3 then 90 else 88

/-- The pins of channel `k` enter the off state. -/
def actOff (c : Chip) (k : Nat) : Chip :=
  ((c.setFld (F.ACT_OUT_DUTY k) 0).setFld (F.ACT_OUT_DIR k) 0).setFld (F.ACT_OUT_OFF k) 1

/-- Field of ACT_CAUSE of channel `k`. -/
def causeOf (k : Nat) : Field := ⟨Reg.ACT_CAUSE (k / 8), 4 * (k % 8) + 3, 4 * (k % 8)⟩

/-- Channel `k` trips (R315); a trip while it is tripped leaves its recorded cause. -/
def actTrip (c : Chip) (k cause : Nat) : Chip :=
  if c.fbit F.ACT_TRIP_TRIP k then c
  else (((c.setFbit F.ACT_TRIP_TRIP k).setFld (causeOf k) cause).raise (tripEvent cause)).actOff k

/-- The current sense of channel `k` has no sound point (R313, CSFAULT). -/
def csBad (c : Chip) (k : Nat) : Bool :=
  let p := c.fld (F.ACT_CS_CS_POINT k)
  c.bit (F.ACT_CS_CS_EN k) && (c.ptBad p || c.ptType p != 2 || !c.bit F.SENSE_STATUS_RUNNING)

/-- Every channel whose current sense has a CSFAULT condition trips. -/
def csCheck (c : Chip) : Chip :=
  if c.domOn 14 then (List.range 32).foldl (fun c k => c.when (c.csBad k) (·.actTrip k 3)) c else c

/-- A conversion of point `p` is compared with ILIM of the channels that use it (R313). -/
def csCompare (c : Chip) (p out : Nat) : Chip :=
  if !c.domOn 14 then c
  else (List.range 32).foldl (fun c k =>
    if c.bit (F.ACT_CS_CS_EN k) && c.fld (F.ACT_CS_CS_POINT k) == p then
      let n := if c.fld (F.ACT_CS_ILIM k) ≤ out then (c.actCh k).cs + 1 else 0
      (c.modAct k fun x => { x with cs := n }).when (decide (4 ≤ n)) (·.actTrip k 2)
    else c) c

/-! ### Event FIFOs (R304, R305) -/

/-- Entries of FIFO `k`, oldest first. -/
def fifoOf (c : Chip) (k : Nat) : List (Word × Word) := if k = 0 then c.sense.fifo0 else c.sense.fifo1

/-- Put FIFO `k`; LEVEL follows. -/
def setFifo (c : Chip) (k : Nat) (l : List (Word × Word)) : Chip :=
  (c.modSense fun s => if k = 0 then { s with fifo0 := l } else { s with fifo1 := l }).setFld (F.SENSE_FIFO_CTRL_LEVEL k) l.length

/-- Push an entry: dropped when the FIFO is full. LVL sets when LEVEL reaches THR. -/
def fifoPush (c : Chip) (k : Nat) (e : Word × Word) : Chip :=
  let l := c.fifoOf k
  if 256 ≤ l.length then (c.sticky (F.SENSE_FIFO_CTRL_OVF k) 82).bump (F.SENSE_FIFO_CTRL_OVF_CNT k)
  else
    let thr := max 1 (c.fld (F.SENSE_FIFO_CTRL_THR k))
    (c.setFifo k (l ++ [e])).when (l.length + 1 == thr) (·.sticky (F.SENSE_FIFO_CTRL_LVL k) (80 + k))

/-- A read of SENSE_FIFOk_B: word B of the head, which is removed. -/
def fifoPop (c : Chip) (k : Nat) : Word × Chip :=
  match c.fifoOf k with
  | [] => (0, c)
  | e :: l => (e.2, c.setFifo k l)

/-- Word A of the head of FIFO `k`. -/
def fifoHead (c : Chip) (k : Nat) : Word := ((c.fifoOf k).head?.map (·.1)).getD 0

/-- Word B of the head, as a read that removes nothing sees it (R13). -/
def fifoHeadB (c : Chip) (k : Nat) : Word := ((c.fifoOf k).head?.map (·.2)).getD 0

/-- An entry of KIND `kind` for point `p` with VEL `vel`, at TIME `time` of this tick. -/
def fifoEntry (c : Chip) (kind p vel time : Nat) : Word × Word :=
  (BitVec.ofNat 32 (2 ^ 31 + kind * 2 ^ 29 + p * 2 ^ 21 + vel % 65536), BitVec.ofNat 32 (c.now * 32 + time % 32))

/-- Push such an entry into the point's FIFO. -/
def pushPt (c : Chip) (kind p vel time : Nat) : Chip :=
  c.fifoPush (c.fld (F.SENSE_PT_CFG_FIFO p)) (c.fifoEntry kind p vel time)

/-! ### Faults of points (R299) -/

/-- Point `p`, faulted before as `was`, is faulted or not now: KIND 2 with SENSE_PTFAULT, or KIND 3. -/
def ptFaultEdge (c : Chip) (p : Nat) (was : Bool) (time : Nat) : Chip :=
  let is := c.ptBad p
  if is && !was then
    ((c.setPoint p { c.point p with vvalid := false }).stickyBit (F.SENSE_PTFAULT_FAULT (p / 32)) (p % 32) 84).pushPt 2 p 0 time
  else if was && !is then c.pushPt 3 p 0 time
  else c

/-- TIME of slot `s` (R293) where a tick has `n` slots. -/
def slotTime (s n : Nat) : Nat := s * 32 / n

/-- Conversion slots of a tick (R292). -/
def slotsPerTick (c : Chip) : Nat := 32 >>> (c.rate / 2)

/-- TIME of the conversion made last in this tick. -/
def timeNow (c : Chip) : Nat := slotTime (c.sense.slot - 1) c.slotsPerTick

/-- The reference monitor of ADC `k` leaves tolerance, or has been in range for 1024 samples (R299). -/
def adcMonitor (c : Chip) (k : Nat) (bad : Bool) : Chip :=
  if !c.domOn 13 || c.fbit F.SENSE_ADC_FAULT_NOW k == bad then c
  else
    let was := (List.range 16).map (fun a => c.ptBad (16 * k + a))
    let c1 := if bad then (c.setFbit F.SENSE_ADC_FAULT_NOW k).stickyBit F.SENSE_ADC_FAULT_FAULT k 83
              else c.clrFbit F.SENSE_ADC_FAULT_NOW k
    let c2 := (List.range 16).foldl (fun d a =>
      let p := 16 * k + a
      let d1 := d.setPoint p (if bad then d.point p else SPoint.again (d.point p))
      d1.ptFaultEdge p (was.getD a false) d.timeNow) c1
    c2.csCheck

/-! ### The scan (R293, R294, R298) -/

/-- The scan stops: the sense relays carry 0 from the next phase 0 on. -/
def senseStop (c : Chip) (pause : Bool) : Chip :=
  if c.bit F.SENSE_STATUS_RUNNING then
    ((((c.setFld F.SENSE_STATUS_RUNNING 0).setFld F.SENSE_STATUS_READY 0).modSense fun s =>
      { s with ending := false, paused := pause, slot := 0 })).csCheck
  else c

/-- Every point keeps its filter and key state, and its next two conversions have no VALID velocity (R294). -/
def senseHush (c : Chip) : Chip := c.allPoints fun _ x => if x.conv = 0 then x else { x with hush := 2, vvalid := false }

/-- The scan starts at this tick edge. After a pause its points go on, in the tick after the last one they saw (R294);
else they start (R298). -/
def senseStart (c : Chip) : Chip :=
  let go := c.sense.paused
  let n := if go then c.sense.tick + 1 else 0
  let c1 := (c.setFld F.SENSE_STATUS_RUNNING 1).modSense fun s =>
    { s with tick := n, first := n, slot := 0, ending := false, paused := false }
  if go then c1.senseHush else c1.allPoints fun _ x => { SPoint.again x with count := 0 }

/-- The four sense relay words of point `p` (R302). -/
def relayWords (c : Chip) (p : Nat) : List Word :=
  let x := c.point p
  let f := fun (b : Bool) (i : Nat) => if b then 2 ^ i else 0
  let bad := c.ptBad p
  if c.ptType p = 0 then [0, 0, 0, 0]
  else
    let w0 := natOf 24 x.pos * 256 + f (decide (0 < x.conv) && !bad) 0 + f x.down 1 + f bad 2 + f x.fresh 3 + f x.suppr 4
    let w1 := if bad || c.ptType p == 2 then 0 else natOf 24 x.vel * 256 + f x.vvalid 0
    let w2 := f (decide (0 < x.ons)) 31 + f (decide (0 < x.rels)) 30 + f (decide (1 < x.ons) || decide (1 < x.rels)) 29 +
      (if 0 < x.ons then x.onAt % 32 else 0) * 2 ^ 24 + (if 0 < x.rels then x.relAt % 32 else 0) * 2 ^ 19 + x.count % 256
    [BitVec.ofNat 32 w0, BitVec.ofNat 32 w1, BitVec.ofNat 32 w2, BitVec.ofNat 32 (natOf 24 x.strike * 256)]

/-- The scan at a tick edge: the results of the tick that ends go to the relays, the scan starts or stops, and the slots
of the new tick begin. READY reads 1 from tick m+4 on (R305). -/
def senseTick (c : Chip) : Chip :=
  if !c.domOn 13 then c.modSense fun s => { s with relay := [] }
  else
    let run := c.bit F.SENSE_STATUS_RUNNING
    let c1 := c.when (run && c.sense.ending) (·.senseStop false)
    let live := c1.bit F.SENSE_STATUS_RUNNING
    let words := if live then (List.range 256).flatMap c1.relayWords else []
    let c2 := c1.modSense fun s => { s with relay := words }
    let c3 :=
      if live then
        let c3 := c2.modSense fun s => { s with tick := s.tick + 1, slot := 0 }
        c3.when (decide (c3.sense.first + 4 ≤ c3.sense.tick)) (·.sticky F.SENSE_STATUS_READY 87)
      else if c2.bit F.SENSE_CTRL_EN then c2.senseStart
      else c2
    if c3.bit F.SENSE_STATUS_RUNNING then
      c3.allPoints fun _ x => { SPoint.lift x c3.sense.tick with fresh := false, ons := 0, rels := 0, onAt := 0, relAt := 0 }
    else c3

/-- Multiplexer address of slot `s` of this tick (R293). -/
def muxAddr (c : Chip) (s : Nat) : Nat :=
  let i := c.slotsPerTick * c.now + s
  if c.bit F.SENSE_CTRL_ORDER then
    let e := i % 32
    bits (c.reg (Reg.SENSE_SCAN (e / 8))).toNat (4 * (e % 8) + 3) (4 * (e % 8))
  else i % 16

/-- Table entry t[i] of point `p`. -/
def linEntry (c : Chip) (p i : Nat) : Nat := bits (c.reg (Reg.SENSE_LIN p (i / 2))).toNat (16 * (i % 2) + 15) (16 * (i % 2))

/-- Calibration and linearisation of a code (R296). -/
def linOut (c : Chip) (p code : Nat) : Nat :=
  let d : Int := (code : Int) - c.fld (F.SENSE_PT_CAL_OFFSET p)
  let xc := (clampI 0 65535 (d * c.fld (F.SENSE_PT_CAL_GAIN p) / 2 ^ 14)).toNat
  let i := xc / 2048
  let f := xc % 2048
  ((c.linEntry p i : Int) + ((c.linEntry p (i + 1) : Int) - c.linEntry p i) * f / 2048).toNat

/-- Onset or release of a SENSE point on its calibrated value (R297, R298). -/
def keyEvent (c : Chip) (p out time : Nat) : Chip :=
  let x := c.point p
  let on := c.fld (F.SENSE_PT_THR_ON_THR p)
  let off := c.fld (F.SENSE_PT_THR_OFF_THR p)
  let send := fun (d : Chip) (kind : Nat) (v : Int) => d.when (c.bit (F.SENSE_PT_CFG_EVT_EN p)) (·.pushPt kind p (natOf 24 v / 256) time)
  if on ≤ off then c
  else if !x.down ∧ on ≤ out then
    if x.suppr then c.setPoint p { x with down := true }
    else
      send (c.setPoint p { x with
        down := true, ons := x.ons + 1, onAt := if x.ons = 0 then time else x.onAt
        count := (x.count + 1) % 256, strike := x.vel }) 0 x.vel
  else if x.down ∧ out ≤ off then
    if x.suppr ∨ x.silent then c.setPoint p { x with down := false, silent := false }
    else send (c.setPoint p { x with down := false, rels := x.rels + 1, relAt := if x.rels = 0 then time else x.relAt }) 1 x.vel
  else c

/-- One conversion of point `p` (R296 to R299, R313). -/
def convert (c : Chip) (p code time : Nat) : Chip :=
  let c1 := c.setFld (F.SENSE_PT_STAT_RAW p) code
  let ty := c1.ptType p
  if ty = 0 then c1
  else
    let was := c1.ptBad p
    let rail := fun (x : SPoint) => x.railLo || x.railHi
    let x0 := c1.point p
    let x1 := x0.rails code
    let x2 := { (if rail x0 && !rail x1 then SPoint.again x1 else x1) with fresh := true }
    let c2 := (c1.setPoint p x2).ptFaultEdge p was time
    if c2.ptBad p then c2
    else
      let out := c2.linOut p code
      let x3 := { c2.point p with out := out, begun := if x2.conv = 0 then c2.sense.tick else x2.begun }
      if ty = 2 then (c2.setPoint p { x3 with conv := x3.conv + 1, pos := out * 128, vvalid := false }).csCompare p out
      else
        let x4 := x3.track out (c2.fld (F.SENSE_PT_CFG_F p)) (c2.fld (F.SENSE_PT_CFG_G p)) (c2.fld (F.SENSE_PT_CFG_VSH p))
          (c2.sense.tick * 32 + time)
        (c2.setPoint p (x4.lift c2.sense.tick)).keyEvent p out time

/-- One slot: all 16 ADCs convert the same address; `codes` holds the code of ADC k in bits 16k+15 to 16k. -/
def slotConvert (c : Chip) (codes : BitVec 256) : Chip :=
  let s := c.sense.slot
  let n := c.slotsPerTick
  if c.domOn 13 && c.bit F.SENSE_STATUS_RUNNING && decide (s < n) then
    let a := c.muxAddr s
    let c1 := (List.range 16).foldl (fun d k => d.convert (16 * k + a) (codes.toNat / 2 ^ (16 * k) % 65536) (slotTime s n)) c
    (c1.modSense fun x => { x with slot := s + 1 }).csCheck
  else c

/-! ### Sense registers -/

/-- A write of SENSE_CTRL: ORDER and AUX_EN are ignored while EN = 1 (R300), CAL while the scan runs (R301). -/
def writeSenseCtrl (c : Chip) (v : Nat) : Chip :=
  let en := c.bit F.SENSE_CTRL_EN
  let run := c.bit F.SENSE_STATUS_RUNNING
  let c1 := if en then c else (c.setFld F.SENSE_CTRL_ORDER (bits v 29 29)).setFld F.SENSE_CTRL_AUX_EN (bits v 3 0)
  let c2 := (c1.setFld F.SENSE_CTRL_EN (bits v 31 31)).when (en && !bitAt v 31) fun d =>
    d.modSense fun s => { s with ending := d.bit F.SENSE_STATUS_RUNNING, paused := false }
  c2.when (bitAt v 30 && !run) (·.setFld F.SENSE_STATUS_CAL_BUSY 1)

/-- Calibration ends (R301); `fail` names the ADCs whose trim lay outside its range. -/
def senseCalDone (c : Chip) (fail : Nat) : Chip :=
  if c.bit F.SENSE_STATUS_CAL_BUSY then
    let c1 := (c.setFld F.SENSE_STATUS_CAL_BUSY 0).sticky F.SENSE_STATUS_CAL_DONE 85
    if fail % 65536 = 0 then c1
    else (List.range 16).foldl (fun d k => d.when (bitAt fail k) (·.stickyBit F.SENSE_ADC_FAULT_FAULT k 83))
      (c1.sticky F.SENSE_STATUS_CAL_FAIL 85)
  else c

/-- A write of SENSE_PT_CFGp: a change of TYPE restarts the point (R298). -/
def writePtCfg (c : Chip) (p v : Nat) : Chip :=
  let old := c.fld (F.SENSE_PT_CFG_TYPE p)
  let c1 := c.setReg (Reg.SENSE_PT_CFG p) (BitVec.ofNat 32 (v &&& 0xFF070700))
  (c1.when (bits v 31 30 != old) fun d => d.setPoint p (SPoint.again (d.point p))).csCheck

/-- The AUX comparator's output is `level` (R306). -/
def auxCompare (c : Chip) (level : Bool) : Chip :=
  if c.bit F.AUX_CMP_EN && c.bit F.AUX_CMP_LEVEL != level then
    (c.setFld F.AUX_CMP_LEVEL (if level then 1 else 0)).sticky F.AUX_CMP_CHG 86
  else c

/-! ### Actuator channels (R307 to R316) -/

/-- A write of ACT_CTRLk: MODE and DEAD are ignored while EN = 1; EN = 1 restarts the counter at the next E(n) (R308). -/
def writeActCtrl (c : Chip) (k v : Nat) : Chip :=
  let en := c.bit (F.ACT_CTRL_EN k)
  let c1 := if en then c else (c.setFld (F.ACT_CTRL_MODE k) (bits v 30 29)).setFld (F.ACT_CTRL_DEAD k) (bits v 15 8)
  let c2 := (((c1.setFld (F.ACT_CTRL_EN k) (bits v 31 31)).setFld (F.ACT_CTRL_SRC k) (bits v 28 28)).setFld (F.ACT_CTRL_ENG k)
    (bits v 27 24)).setFld (F.ACT_CTRL_WORD k) (bits v 23 16)
  c2.when (bitAt v 31 && !en) (·.modAct k fun x => { x with restart := true })

/-- A write of ACT_PERk, ignored while EN = 1. -/
def writeActPer (c : Chip) (k v : Nat) : Chip := if c.bit (F.ACT_CTRL_EN k) then c else c.setFld (F.ACT_PER_PERIOD k) v

/-- A limit field takes `v`, or its fused ceiling (R316, R22). -/
def capLimit (c : Chip) (f ceil : Field) (v : Nat) : Chip :=
  if c.fld ceil < v then (c.setFld f (c.fld ceil)).sticky F.ACT_STATUS_CEIL 91 else c.setFld f v

/-- A write of ACT_LIMk. -/
def writeActLim (c : Chip) (k v : Nat) : Chip :=
  (c.capLimit (F.ACT_LIM_DUTY_MAX k) (F.ACT_FUSE_A_DUTY_CEIL (k / 8)) (bits v 31 16)).capLimit (F.ACT_LIM_LEAK k)
    (F.ACT_FUSE_C_LEAK_CEIL (k / 8)) (bits v 15 0)

/-- A write of ACT_EMAXk. -/
def writeActEmax (c : Chip) (k v : Nat) : Chip := c.capLimit (F.ACT_EMAX_EMAX k) (F.ACT_FUSE_B_EMAX_CEIL (k / 8)) (bits v 23 0)

/-- A write of ACT_CSk. -/
def writeActCs (c : Chip) (k v : Nat) : Chip :=
  ((c.setFld (F.ACT_CS_CS_EN k) (bits v 31 31)).setFld (F.ACT_CS_CS_POINT k) (bits v 23 16)).capLimit (F.ACT_CS_ILIM k)
    (F.ACT_FUSE_A_ILIM_CEIL (k / 8)) (bits v 15 0) |>.csCheck

/-- A clear of trip bit `k` holds (R315). -/
def tripClears (c : Chip) (k : Nat) : Bool :=
  decide ((c.actCh k).acc ≤ c.fld (F.ACT_EMAX_EMAX k) * 128) && !c.csBad k &&
    (!c.bit (F.ACT_CS_CS_EN k) || decide ((c.point (c.fld (F.ACT_CS_CS_POINT k))).out < c.fld (F.ACT_CS_ILIM k))) &&
    !c.fbit F.ACT_STATUS_FLT_NOW (k / 8)

/-- A write of ACT_TRIP: each bit written 1 clears, or sets again at once (R315). -/
def writeActTrip (c : Chip) (v : Nat) : Chip :=
  (List.range 32).foldl (fun c k =>
    if bitAt v k && c.fbit F.ACT_TRIP_TRIP k then
      if c.tripClears k then (c.clrFbit F.ACT_TRIP_TRIP k).modAct k fun x => { x with restart := true, cs := 0 }
      else c.raise (tripEvent (c.fld (causeOf k)))
    else c) c

/-- A write of ACT_STATUS: KILL trips every channel (R314). -/
def writeActStatus (c : Chip) (v : Nat) : Chip :=
  (c.when (bitAt v 0) (·.setFld F.ACT_STATUS_CEIL 0)).when (bitAt v 31) fun c =>
    (List.range 32).foldl (fun c k => c.actTrip k 5) c

/-- ACT_FLT_N[g] has been low for 256 bus-clock cycles, or is high (R314). -/
def actFault (c : Chip) (g : Nat) (low : Bool) : Chip :=
  if !c.domOn 14 then c
  else if low then (List.range 8).foldl (fun c j => c.actTrip (8 * g + j) 4) (c.setFbit F.ACT_STATUS_FLT_NOW g)
  else c.clrFbit F.ACT_STATUS_FLT_NOW g

/-- Period P of channel `k` in ACTCLK cycles (R308). -/
def actP (c : Chip) (k : Nat) : Nat :=
  let p := c.fld (F.ACT_PER_PERIOD k)
  if p = 0 then 65536 else max 4096 p

/-- D and dir for the value `w` (R309). -/
def actDuty (c : Chip) (k : Nat) (w : Word) : Nat × Bool :=
  let x := x24 w
  let m := c.fld (F.ACT_CTRL_MODE k)
  let d := if m = 1 then min x.natAbs 0x7FFFFF / 128 else (clampI 0 0x7FFFFF x).toNat / 128
  (min d (c.fld (F.ACT_LIM_DUTY_MAX k)), m == 1 && decide (x < 0))

/-- High cycles of a period for duty `d` (R309). -/
def actCmp (d p : Nat) : Nat := if d = 0xFFFF then p else d * p / 65536

/-- Levels of ACTk_A and ACTk_B in cycle `t` of the present period (R310). -/
def actPins (c : Chip) (k t : Nat) : Bool × Bool :=
  let p := c.actP k
  let cmp := actCmp (c.fld (F.ACT_OUT_DUTY k)) p
  let dead := c.fld (F.ACT_CTRL_DEAD k)
  if c.bit (F.ACT_OUT_OFF k) || !c.bit (F.ACT_CTRL_EN k) then (false, false)
  else match c.fld (F.ACT_CTRL_MODE k) with
    | 1 => (decide (t < cmp), c.bit (F.ACT_OUT_DIR k))
    | 2 => (decide (dead ≤ t ∧ t < cmp), decide (cmp + dead ≤ t ∧ t < p))
    | _ => (decide (t < cmp), false)

/-- The device's clocks run from SAFECLK or the RC oscillator (R311). -/
def actSafe (c : Chip) : Bool := c.bit F.CLK_STATUS_SAFE

/-- A period of channel `k` begins: the duty is computed once for it. -/
def actBegin (c : Chip) (k : Nat) : Chip :=
  if c.bit (F.ACT_CTRL_EN k) && !(c.actCh k).restart && !c.fbit F.ACT_TRIP_TRIP k && !c.actSafe then
    let (d, dir) := c.actDuty k (c.actCh k).val
    ((c.setFld (F.ACT_OUT_DUTY k) d).setFld (F.ACT_OUT_DIR k) (if dir then 1 else 0)).setFld (F.ACT_OUT_OFF k) 0
  else c.actOff k

/-- A period of channel `k` ends: the accumulator takes its energy, may trip, and the next period begins (R312). -/
def actPeriod (c : Chip) (k : Nat) : Chip :=
  if !c.domOn 14 || c.actSafe then c
  else
    let d := c.fld (F.ACT_OUT_DUTY k)
    let acc := (c.actCh k).acc + d * d / 65536 - c.fld (F.ACT_LIM_LEAK k)
    let c1 := c.modAct k fun x => { x with acc := acc }
    let (w, c2) := if acc < 2 ^ 32 then (BitVec.ofNat 32 acc, c1) else c1.draw
    ((c2.setReg (Reg.ACT_ACC k) w).when (decide (c.fld (F.ACT_EMAX_EMAX k) * 256 < acc)) (·.actTrip k 1)).actBegin k

/-- E(n): the counters that wait for it restart (R308, R315). -/
def actEdge (c : Chip) : Chip :=
  if !c.domOn 14 || c.actSafe then c
  else (List.range 32).foldl (fun c k =>
    if (c.actCh k).restart then (c.modAct k fun x => { x with restart := false }).actBegin k else c) c

/-- Phase 2: every channel's value for this tick (R309). -/
def actAdopt (c : Chip) : Chip :=
  if !c.domOn 14 then c
  else (List.range 32).foldl (fun c k =>
    let e := c.fld (F.ACT_CTRL_ENG k)
    let w := if c.bit (F.ACT_CTRL_SRC k) then (if e < 10 then c.frozen (c.phys e) (c.fld (F.ACT_CTRL_WORD k)) else 0)
             else c.reg (Reg.ACT_VAL k)
    c.modAct k fun x => { x with val := w }) c

/-- The clocks run from SAFECLK now: every channel is off and its counter restarts after the switch back (R311). -/
def actHalt (c : Chip) : Chip :=
  if !c.domOn 14 then c
  else (List.range 32).foldl (fun c k => (c.actOff k).modAct k fun x => { x with restart := true }) c

end Chip

end Sys2Proof.Machine
end

