-- ==== Sys2Proof/Machine/UsbMidi.lean ====
section
/-! DEFINITION. The USB device and the DIN MIDI UARTs (R353 to R360). The host window that USB also carries is in
Window.lean. -/

namespace Sys2Proof.Machine

/-- The little-endian words of a list of bytes; an incomplete last word is dropped. -/
def wordsOf : List Byte → List Word
  | a :: b :: c :: d :: t => wordOf a b c d :: wordsOf t
  | _ => []

/-- The bytes of a word, the lowest first. -/
def wordBytes (w : Word) : List Byte := [byteOf w 0, byteOf w 1, byteOf w 2, byteOf w 3]

/-- A list cut into pieces of `n`; an incomplete last piece is dropped. -/
def pieces {α : Type} (n : Nat) : Nat → List α → List (List α)
  | 0, _ => []
  | fuel + 1, l => if n = 0 ∨ l.length < n then [] else l.take n :: pieces n fuel (l.drop n)

namespace Chip

/-- Change the USB device's state. -/
def modUsb (c : Chip) (f : Usb → Usb) : Chip := { c with usb := f c.usb }

/-- The device is visible to the USB host: PD_USB is on and CONNECT is 1. -/
def usbLive (c : Chip) : Bool := c.domOn 15 && c.bit F.USB_CTRL_CONNECT

/-! ### Serai accesses by the USB device -/

/-- A word read over a hardware channel: its check bits are recorded as for a bus read (R128, R133). -/
def seraiTouch (c : Chip) (a : Nat) : Chip :=
  let w := a / 4 * 4
  if c.eccOf w = 1 then c.seraiCe w else if c.eccOf w = 2 then c.seraiUe w else c

/-- `n` bytes of serai from address `a`. A bank that is not accessible gives values the spec does not state. -/
def dmaRead (c : Chip) (a n : Nat) : List Byte × Chip :=
  let l := (List.range n).map (a + ·)
  if l.all fun x => c.seraiBankOn x then (l.map fun x => byteOf (c.peek (x / 4 * 4)) (x % 4), l.foldl seraiTouch c)
  else ((List.range n).map fun k => byteOf (Config.free (c.drawn + k)) 0, { c with drawn := c.drawn + n })

/-- One byte written to serai; a bank that is not accessible takes nothing. -/
def dmaWrite (c : Chip) (a : Nat) (b : Byte) : Chip :=
  if c.seraiBankOn a then
    { c.poke (a / 4 * 4) (2 ^ (a % 4)) (BitVec.ofNat 32 (b.toNat * 2 ^ (8 * (a % 4)))) with
      strm := { c.strm with last := some ⟨a / 4 * 4, 2 ^ (a % 4), 2⟩ } }
  else c

/-! ### Audio streaming (R354, R355) -/

/-- Channels of an alternate setting. -/
def altChannels (alt : Nat) : Nat := if alt = 0 then 0 else 64 / 2 ^ alt

/-- An alternate setting serves a cadence. -/
def altServes (alt rate : Nat) : Bool := alt != 0 && rate / 2 + 1 == alt

/-- A streaming interface mismatches the cadence: RATE, event 110 (R354). -/
def rateCheck (c : Chip) : Chip :=
  let bad := fun (alt : Nat) => alt != 0 && !altServes alt c.rate
  c.when (bad (c.fld F.USB_STATUS_ALT_OUT) || bad (c.fld F.USB_STATUS_ALT_IN)) (·.sticky F.USB_STATUS_RATE 110)

/-- The cadence has changed: a mismatch takes effect, and the host is notified (R354). -/
def usbCadence (c : Chip) : Chip := if c.domOn 15 then c.rateCheck.modUsb fun u => { u with notify := true } else c

/-- Frames of `m` microframes at the present cadence, rounded down. -/
def framesOf (c : Chip) (m : Nat) : Nat := fsHz c.rate * m / 8000

/-- An isochronous OUT packet: its frames enter the FIFO; more than 8 microframes of data is an overrun (R355). -/
def usbOutPacket (c : Chip) (b : List Byte) : Chip :=
  let alt := c.fld F.USB_STATUS_ALT_OUT
  if c.usbLive && altServes alt c.rate then
    let l := c.usb.fifo ++ pieces (altChannels alt) b.length (wordsOf b)
    if fsHz c.rate * 8 < l.length * 8000 then
      ((c.modUsb fun u => { u with fifo := l.drop (l.length - c.framesOf 2) }).sticky F.USB_STATUS_OVERRUN 110).bump
        F.USB_AS_CNT_OVER_CNT
    else c.modUsb fun u => { u with fifo := l }
  else c

/-- A sample scaled by m / n. -/
def scaled (w : Word) (m n : Nat) : Word := word24 (nearDiv (x24 w * m) n)

/-- USB_OUT_TAKE: the tick takes one frame, or ramps to 0 on an underrun (R355). -/
def usbTake (c : Chip) : Chip :=
  let alt := c.fld F.USB_STATUS_ALT_OUT
  if c.usbLive && altServes alt c.rate then
    match c.usb.fifo with
    | f :: rest =>
      let fade := if c.usb.under.isSome then 0 else c.usb.fade
      let ch := f.map fun w => (w.and 0xFFFFFF00)
      let out := if fade < 64 then ch.map (scaled · (fade + 1) 64) else ch
      c.modUsb fun u => { u with fifo := rest, under := none, fade := min 64 (fade + 1), last := out, out := out }
    | [] =>
      let j := c.usb.under.getD 0
      ((c.modUsb fun u => { u with under := some (min 16 (j + 1)), out := u.last.map (scaled · (15 - j) 16) }).sticky
        F.USB_STATUS_UNDERRUN 110).bump F.USB_AS_CNT_UNDER_CNT
  else c.modUsb fun u => { u with fifo := [], under := none, fade := 64, last := [], out := [] }

/-- Word of USB channel `u` in this tick. -/
def usbWord (c : Chip) (u : Nat) : Word := c.usb.out.getD u 0

/-- The outputs of a tick are appended to the IN frames (R355, R19); `sink` gives the word of a router sink. -/
def usbAppend (c : Chip) (sink : Nat → Word) : Chip :=
  let alt := c.fld F.USB_STATUS_ALT_IN
  if c.usbLive && altServes alt c.rate then
    c.modUsb fun u => { u with inq := u.inq ++ [(List.range (altChannels alt)).map fun k => sink (896 + k)] }
  else c.modUsb fun u => { u with inq := [] }

/-- An isochronous IN packet: all frames since the previous one; empty where the setting does not serve the cadence. A
packet the host does not collect is discarded. -/
def usbInPacket (c : Chip) (collected : Bool) : Chip :=
  if c.usbLive && c.fld F.USB_STATUS_ALT_IN != 0 then
    let c1 := c.modUsb fun u => { u with inq := [] }
    if collected then c1.answer (.bytes (c.usb.inq.flatMap fun f => f.flatMap wordBytes)) else c1
  else c

/-- The feedback endpoint: `t` is the length of the last 1024 microframes in units of 2^-16 tick; the value sent is the
ticks per microframe as Q16.16, rounded to nearest (R355). -/
def usbFeedback (c : Chip) (t : Nat) : Chip :=
  if c.usbLive && c.fld F.USB_STATUS_ALT_OUT != 0 then
    let fb := BitVec.ofNat 32 ((t + 512) / 1024)
    (c.setReg Reg.USB_FB fb).answer (.bytes (wordBytes fb))
  else c

/-! ### Bus state and standard requests (R353) -/

/-- A configuration or alternate setting changes: CONFIG, event 109, where the value is new. -/
def usbSet (c : Chip) (f : Field) (v : Nat) : Chip :=
  if c.fld f = v then c else (c.setFld f v).sticky F.USB_STATUS_CONFIG 109

/-- All alternate settings return to 0. -/
def usbAltsOff (c : Chip) : Chip :=
  (((c.setFld F.USB_STATUS_ALT_OUT 0).setFld F.USB_STATUS_ALT_IN 0).setFld F.USB_STATUS_MIDI_ALT 0).modUsb fun u =>
    { u with fifo := [], inq := [], under := none, fade := 64, last := [], out := [] }

/-- A bus reset; `hs` says whether the host answers the high-speed attempt. The vendor interface's epoch increments. -/
def usbBusReset (c : Chip) (hs : Bool) : Chip :=
  if c.usbLive then
    let c1 := ((c.usbAltsOff.setFld F.USB_STATUS_CONFIGURED 0).setFld F.USB_STATUS_ADDR 0).setFld F.USB_STATUS_SUSPENDED 0
    let c2 := c1.setFld F.USB_STATUS_SPEED (if hs && c.bit F.USB_CTRL_HS_EN then 2 else 1)
    ((c2.modUsb fun u => { u with rwake := false, waking := false }).sticky F.USB_STATUS_BUSRESET 108).epochInc mUsb
  else c

/-- The bus suspends. -/
def usbSuspend (c : Chip) : Chip :=
  if c.usbLive then (c.setFld F.USB_STATUS_SUSPENDED 1).sticky F.USB_STATUS_SUSPEND 108 else c

/-- The bus resumes. -/
def usbResume (c : Chip) : Chip :=
  if c.usbLive && c.bit F.USB_STATUS_SUSPENDED then
    ((c.setFld F.USB_STATUS_SUSPENDED 0).modUsb fun u => { u with waking := false }).sticky F.USB_STATUS_RESUME 108
  else c

/-- RWAKE: remote wakeup is signalled if the host has enabled it and the bus is suspended. -/
def usbRwake (c : Chip) : Chip :=
  c.modUsb fun u => { u with waking := u.waking || (u.rwake && c.bit F.USB_STATUS_SUSPENDED) }

/-- A write of USB_CTRL. With CONNECT 0 the device leaves the bus. -/
def writeUsbCtrl (c : Chip) (v : Nat) : Chip :=
  let c1 := (c.setFld F.USB_CTRL_CONNECT (bits v 31 31)).setFld F.USB_CTRL_HS_EN (bits v 30 30)
  let c2 := c1.when (!bitAt v 31) fun d =>
    (((d.usbAltsOff.setFld F.USB_STATUS_CONFIGURED 0).setFld F.USB_STATUS_ADDR 0).setFld F.USB_STATUS_SPEED 0).setFld
      F.USB_STATUS_SUSPENDED 0
  c2.when (bitAt v 29) usbRwake

/-- A write of USB_DESC, ignored while CONNECT is 1. -/
def writeUsbDesc (c : Chip) (v : Nat) : Chip :=
  if c.bit F.USB_CTRL_CONNECT then c else c.setFld F.USB_DESC_BASE (bits v 23 2)

/-- An answer of `n` bytes of the value `v`, the lowest first. -/
def sayBytes (c : Chip) (v n : Nat) : Chip := c.answer (.bytes ((List.range n).map fun k => BitVec.ofNat 8 (v / 256 ^ k)))

/-- A standard or clock-source request (R353, R354). -/
def usbRequest (c : Chip) (r : UsbReq) : Chip :=
  if !c.usbLive then c
  else match r with
    | .setAddress a => c.setFld F.USB_STATUS_ADDR a
    | .setConfiguration v =>
      if 1 < v then c.answer .stall
      else (c.usbSet F.USB_STATUS_CONFIGURED v).when (c.fld F.USB_STATUS_CONFIGURED != v || v == 0) usbAltsOff
    | .getConfiguration => c.sayBytes (c.fld F.USB_STATUS_CONFIGURED) 1
    | .setAltOut a =>
      if 3 < a ∨ c.fld F.USB_STATUS_CONFIGURED = 0 ∨ (a ≠ 0 ∧ c.fld F.USB_STATUS_SPEED ≠ 2) then c.answer .stall
      else ((c.usbSet F.USB_STATUS_ALT_OUT a).modUsb fun u =>
        { u with fifo := [], under := none, fade := 64, last := [], out := [] }).rateCheck
    | .setAltIn a =>
      if 3 < a ∨ c.fld F.USB_STATUS_CONFIGURED = 0 ∨ (a ≠ 0 ∧ c.fld F.USB_STATUS_SPEED ≠ 2) then c.answer .stall
      else ((c.usbSet F.USB_STATUS_ALT_IN a).modUsb fun u => { u with inq := [] }).rateCheck
    | .setMidiAlt a =>
      if 1 < a ∨ c.fld F.USB_STATUS_CONFIGURED = 0 then c.answer .stall else c.usbSet F.USB_STATUS_MIDI_ALT a
    | .getAltOut => c.sayBytes (c.fld F.USB_STATUS_ALT_OUT) 1
    | .getAltIn => c.sayBytes (c.fld F.USB_STATUS_ALT_IN) 1
    | .getMidiAlt => c.sayBytes (c.fld F.USB_STATUS_MIDI_ALT) 1
    | .getStatus => c.sayBytes (1 + if c.usb.rwake then 2 else 0) 2
    | .setRemoteWakeup on => c.modUsb fun u => { u with rwake := on }
    | .getDescriptor off len =>
      let (b, c1) := c.dmaRead (0x20000000 + (4 * c.fld F.USB_DESC_BASE + off) % 2 ^ 24) len
      c1.answer (.bytes b)
    | .getRate => c.sayBytes (fsHz c.rate) 4
    | .getRateRange => c.sayBytes (1 + fsHz c.rate * 2 ^ 16 + fsHz c.rate * 2 ^ 48) 14
    | .setRate hz => if hz = fsHz c.rate then c else c.answer .stall

/-! ### USB MIDI (R356) -/

/-- Size of a ring. -/
def ringSize (n : Nat) : Nat := 2 ^ (min n 10 + 6)

/-- Largest bulk packet. -/
def bulkMax (c : Chip) : Nat := if c.fld F.USB_STATUS_SPEED = 2 then 512 else 64

/-- A USB MIDI OUT packet enters the receive ring, or is NAKed while it has no room. -/
def usbMidiOut (c : Chip) (b : List Byte) : Chip :=
  if c.usbLive && c.bit F.USB_STATUS_CONFIGURED then
    let n := ringSize (c.fld F.USB_MIDI_RX_BASE_SIZE)
    let h := c.fld F.USB_MIDI_RX_PTR_HEAD % n
    let used := (h + n - c.fld F.USB_MIDI_RX_PTR_TAIL % n) % n
    if n ≤ used + b.length then c.answer .nak
    else
      let base := 64 * c.fld F.USB_MIDI_RX_BASE_BASE
      let c1 := (List.range b.length).foldl (fun c k =>
        c.dmaWrite (0x20000000 + (base + (h + k) % n) % 2 ^ 24) (b.getD k 0)) c
      (c1.setFld F.USB_MIDI_RX_PTR_HEAD ((h + b.length) % n)).sticky F.USB_STATUS_MIDI_RX 111
  else c

/-- A queued USB MIDI packet is sent on the bulk IN endpoint. -/
def usbMidiIn (c : Chip) : Chip :=
  if c.usbLive && c.bit F.USB_STATUS_CONFIGURED then
    let n := ringSize (c.fld F.USB_MIDI_TX_BASE_SIZE)
    let t := c.fld F.USB_MIDI_TX_PTR_TAIL % n
    let k := min c.bulkMax ((c.fld F.USB_MIDI_TX_PTR_HEAD % n + n - t) % n)
    if k = 0 then c.answer .nak
    else
      let base := 64 * c.fld F.USB_MIDI_TX_BASE_BASE
      let (b, c1) := (List.range k).foldl (fun (b, c) i =>
        let (x, c1) := c.dmaRead (0x20000000 + (base + (t + i) % n) % 2 ^ 24) 1
        (b ++ x, c1)) (([] : List Byte), c)
      ((c1.setFld F.USB_MIDI_TX_PTR_TAIL ((t + k) % n)).sticky F.USB_STATUS_MIDI_TX 111).answer (.bytes b)
  else c

/-! ### DIN MIDI (R358 to R360) -/

/-- UART `k`. -/
def midiCh (c : Chip) (k : Nat) : MidiCh := Tab.get (fun _ => {}) c.midi k

/-- Put UART `k`; LEVEL and TXLEVEL follow. -/
def setMidi (c : Chip) (k : Nat) (x : MidiCh) : Chip :=
  ({ c with midi := Tab.set (fun _ => {}) c.midi k x }.setFld (F.MIDI_STATUS_LEVEL k) x.rx.length).setFld
    (F.MIDI_STATUS_TXLEVEL k) x.tx.length

/-- A byte is received at TIME `time` of this tick; `ferr` says that its stop bit sampled low. -/
def midiRx (c : Chip) (k : Nat) (b : Byte) (ferr : Bool) (time : Nat) : Chip :=
  if c.domOn 10 && c.bit (F.MIDI_CFG_RX_EN k) then
    let x := c.midiCh k
    if 64 ≤ x.rx.length then (c.sticky (F.MIDI_STATUS_OVF k) (112 + k)).bump (F.MIDI_STATUS_OVF_CNT k)
    else
      let a := 2 ^ 31 + (if ferr then 2 ^ 30 else 0) + time % 32 * 2 ^ 24 + b.toNat
      let c1 := c.setMidi k { x with rx := x.rx ++ [(BitVec.ofNat 32 a, BitVec.ofNat 32 c.now)] }
      (c1.when ferr (·.sticky (F.MIDI_STATUS_FERR k) (112 + k))).when
        (x.rx.length + 1 == max 1 (c.fld (F.MIDI_CFG_THR k))) (·.sticky (F.MIDI_STATUS_LVL k) (112 + k))
  else c

/-- Word A of the head entry. -/
def midiHead (c : Chip) (k : Nat) : Word := ((c.midiCh k).rx.head?.map (·.1)).getD 0

/-- Word B of the head entry, as a read that removes nothing sees it (R13). -/
def midiHeadB (c : Chip) (k : Nat) : Word := ((c.midiCh k).rx.head?.map (·.2)).getD 0

/-- A read of MIDI_RX_B: the entry's STC, and the entry is removed. -/
def midiPop (c : Chip) (k : Nat) : Word × Chip :=
  let x := c.midiCh k
  match x.rx with
  | [] => (0, c)
  | e :: l => (e.2, c.setMidi k { x with rx := l })

/-- A write of MIDI_TXk: a byte is queued, or TXOVF sets. -/
def midiTx (c : Chip) (k : Nat) (v : Word) : Chip :=
  let x := c.midiCh k
  if 64 ≤ x.tx.length then c.setFld (F.MIDI_STATUS_TXOVF k) 1 else c.setMidi k { x with tx := x.tx ++ [byteOf v 0] }

/-- The byte being sent is finished: it leaves the FIFO and the next one starts. -/
def midiSent (c : Chip) (k : Nat) : Chip :=
  let x := c.midiCh k
  if c.domOn 10 && c.bit (F.MIDI_CFG_TX_EN k) then
    match x.tx with
    | [] => c
    | b :: l => (c.setMidi k { x with tx := l }).answer (.bytes [b])
  else c

end Chip

end Sys2Proof.Machine
end

