-- ==== Sys2Proof/Machine/Power.lean ====
section
/-! DEFINITION. Resets and fuse loading (R8, R9, R422), power domains, entries, wakes, the RTC and the sleep ledger
(spec/18). -/

namespace Sys2Proof.Machine

/-! ### Fuse-backed registers (R8, R410) -/

/-- The value a ceiling of R410 reads: a field of `w` bits whose fuse bits are stored inverted. -/
def Otp.ceiling (o : Otp) (arg w : Nat) : Nat := maskOff (2 ^ w - 1) (Tab.get (fun _ => 0) o.ceil arg).toNat

/-- The anti-rollback counter (R402): consecutive blown bits from bit 0. -/
def Otp.counter (o : Otp) : Nat := ((List.range 64).takeWhile (fun k => bitAt o.arb.toNat k)).length

/-- FUSE_STATE (R409). -/
def Otp.stateWord (o : Otp) : Word :=
  let f := fun (b : Bool) (i : Nat) => if b then 2 ^ i else 0
  BitVec.ofNat 32 (o.lc % 4 * 2 ^ 30 + f o.cikSet 29 + f o.dukSet 28 + f o.slotSet 27 + o.counter)

/-- State that domain `d` had before the sequence. -/
def WakeSeq.was (q : WakeSeq) (d : Nat) : Nat :=
  if d < 16 then bits (q.prior.getD 0 0).toNat (2 * d + 1) (2 * d) else bits (q.prior.getD 1 0).toNat (2 * (d - 16) + 1) (2 * (d - 16))

namespace Chip

/-- A field is lowered to a bound. -/
def lower (c : Chip) (f : Field) (m : Nat) : Chip := if m < c.fld f then c.setFld f m else c

/-- Fuses of the domains in `mask` load; stored limits above their ceilings are lowered (R8, R410). -/
def fuseLoad (c : Chip) (o : Otp) (mask : Nat) : Chip :=
  let c1 := c.when (bitAt mask 12) fun c => (List.range 8).foldl (fun c p =>
    let lim := o.ceiling p 16
    let dc := o.ceiling (8 + p) 16
    (((c.setFld (F.PROT_FUSE_LIM_CEIL p) lim).setFld (F.PROT_FUSE_DC_CEIL p) dc).lower (F.PROT_LIM_CEIL p) lim).lower
      (F.PROT_DC_THR p) dc) c
  let c2 := c1.when (bitAt mask 14) fun c =>
    let c' := (List.range 4).foldl (fun c g =>
      (((c.setFld (F.ACT_FUSE_A_DUTY_CEIL g) (o.ceiling (16 + g) 16)).setFld (F.ACT_FUSE_A_ILIM_CEIL g) (o.ceiling (20 + g) 16)).setFld
        (F.ACT_FUSE_B_EMAX_CEIL g) (o.ceiling (24 + g) 24)).setFld (F.ACT_FUSE_C_LEAK_CEIL g) (o.ceiling (28 + g) 16)) c
    (List.range 32).foldl (fun c k =>
      (((c.lower (F.ACT_LIM_DUTY_MAX k) (o.ceiling (16 + k / 8) 16)).lower (F.ACT_CS_ILIM k) (o.ceiling (20 + k / 8) 16)).lower
        (F.ACT_EMAX_EMAX k) (o.ceiling (24 + k / 8) 24)).lower (F.ACT_LIM_LEAK k) (o.ceiling (28 + k / 8) 16)) c'
  let c3 := c2.when (bitAt mask 11) fun c => (c.setReg Reg.FUSE_STATE o.stateWord).setReg Reg.FUSE_SLOT o.slot
  c3.when (bitAt mask 18) fun c => c.setFld F.ID_LIFECYCLE_STATE o.lc

/-- The fuses that this step's resets ask for load. -/
def fuseSettle (c : Chip) (o : Otp) : Chip := if c.fuseDue = 0 then c else { c.fuseLoad o c.fuseDue with fuseDue := 0 }

/-! ### Domains losing their state (R8, R9, R414) -/

/-- Number of the domain a register key lies in; the SECP's copies of the core registers lie in PD_SECP. -/
def keyDom (k : Nat) : Nat :=
  let a := k % 2 ^ 32
  if 2 ^ 32 ≤ k ∧ 0x40000200 ≤ a ∧ a < 0x40000300 then 11 else ((Reg.domOf a).map Dom.no).getD 18

/-- The register is retained (R9). -/
def retained (k : Nat) : Bool := ((Reg.row k).map (·.ret)).getD false

/-- The registers of domain `d` return to their reset values, but for the retained ones where `keep` holds. -/
def dropRegs (c : Chip) (d : Nat) (keep : Bool) : Chip :=
  { c with regs := Tab.keep (fun k => keyDom k != d || (keep && retained k)) c.regs }

/-- The state of domain `d` that no register holds returns to its reset state; `keep` as in retention (R175). -/
def clearUnit (c : Chip) (d : Nat) (keep : Bool) : Chip :=
  if d < 12 then
    let c1 := { c with
      cores := Tab.drop c.cores d, aux := Tab.drop c.aux d, shadow := Tab.drop c.shadow d
      image := Tab.keep (fun k => k / 256 != d) c.image }
    if d = 10 then { c1 with tlk := {}, midi := [], spare := {}, pan := if keep then c1.pan else {} }
    else if d = 11 then { c1 with sec := { c1.sec with checked := none, fuseOp := none, ospi := none } }
    else c1
  else match d with
    | 12 => { c with sap := [], asrc := [], rtr := {} }
    | 13 => { c with sense := {} }
    | 14 => { c with act := [] }
    | 15 => { c with usb := { (({} : Usb)) with sumDue := c.usb.sumDue } }
    | 16 => { c with strm := { (({} : Strm)) with cfg := c.strm.cfg } }
    | 17 => { c with clk := {}, tick := { (({} : Tick)) with stc := c.tick.stc } }
    | _ => c

/-- Memories that domain `d` loses on entry to retention (`keep`) or off (R134, R413, R414). -/
def lostMems (c : Chip) (d : Nat) (keep : Bool) : List Nat :=
  if d < 10 then
    [8 * d + 3] ++ (if keep && c.bit (F.ENG_RET_PROG d) then [] else [8 * d]) ++
      (if keep && c.bit (F.ENG_RET_DELAY d) then [] else [8 * d + 1]) ++
      (if keep && c.bit (F.ENG_RET_COEF d) then [] else [8 * d + 2])
  else if keep then []
  else if d = 10 then [100] else if d = 11 then [101] else []

/-- Put the state of domain `d`: 0 on, 1 retention, 2 off, 3 in transition. -/
def setDomState (c : Chip) (d st : Nat) : Chip :=
  if d < 16 then c.setFld ⟨Reg.PMU_DSTATE0, 2 * d + 1, 2 * d⟩ st
  else c.setFld ⟨Reg.PMU_DSTATE1, 2 * (d - 16) + 1, 2 * (d - 16)⟩ st

/-- Put the state of serai bank `b`. -/
def setBankState (c : Chip) (b st : Nat) : Chip :=
  if b < 16 then c.setFld ⟨Reg.PMU_SSTATE0, 2 * b + 1, 2 * b⟩ st
  else c.setFld ⟨Reg.PMU_SSTATE1, 2 * (b - 16) + 1, 2 * (b - 16)⟩ st

/-- Domain `d` goes to retention (1) or off (2). -/
def domDown (c : Chip) (d st : Nat) : Chip :=
  let keep := st == 1
  let was := c.domState d
  let c1 := (c.lostMems d keep).foldl lose c
  let c2 := c1.when (d == 16 && st == 2) loseDdr
  let self := keep && c.bit F.DDR_STATUS_READY
  let c3 := if d = 16 then { c2 with pmu := { c2.pmu with selfRef := if was = 0 then self else keep && c2.pmu.selfRef } } else c2
  ((c3.clearUnit d keep).dropRegs d keep).setDomState d st

/-- Serai bank `b` goes to retention or off. -/
def bankDown (c : Chip) (b st : Nat) : Chip := (c.when (st == 2) (·.lose (110 + b))).setBankState b st

/-- Masters whose epoch a reset of domain `d` increments (R328). -/
def domEpoch (c : Chip) (d : Nat) : Chip :=
  if d < 10 then c.epochInc (mEng (c.logi d))
  else if d = 10 then (c.epochInc mCp).setReg Reg.READY (BitVec.ofNat 32 ((c.reg Reg.READY).toNat / 2 ^ 9 * 2 ^ 9))
  else if d = 11 then c.epochInc mSecp
  else c

/-- The SECP's ROM is to start: MB_LOCK clears (R329). -/
def romStart (c : Chip) (woke : Bool) : Chip :=
  { c.setFld F.MB_LOCK_LOCK 0 with sec := { c.sec with romDue := true, woke := woke, open_ := false } }

/-- Domain `d` returns to on, from off with a reset or from retention (R414). -/
def domUp (c : Chip) (d : Nat) (fromOff : Bool) : Chip :=
  let c1 := (c.setDomState d 0).when fromOff (·.domEpoch d)
  let c2 := { c1 with fuseDue := withBit c1.fuseDue d }
  let c3 := c2.when (d == 11) (·.romStart true)
  c3.when (d == 16 && c.pmu.selfRef) fun c =>
    { c with strm := { c.strm with training := true }, pmu := { c.pmu with selfRef := false } }

/-- A reset of every domain except PD_AON (R389, SEC_CTRL.REBOOT): memories keep their content. -/
def resetDomains (c : Chip) : Chip :=
  ((List.range 18).foldl (fun c d =>
    let c1 := ((c.clearUnit d false).dropRegs d false).domEpoch d
    { c1 with fuseDue := withBit c1.fuseDue d }) c).romStart false

/-- All memories lose their content. -/
def loseAll (c : Chip) : Chip :=
  (((List.range 10).flatMap fun p => [8 * p, 8 * p + 1, 8 * p + 2, 8 * p + 3]) ++ [100, 101] ++
    ((List.range 32).map (110 + ·))).foldl lose c |>.loseDdr

/-- A reset that reaches PD_AON: every register and unit at its reset state, every memory without known content; the boot
flash and the reset causes stay (R422). -/
def fullReset (c : Chip) (cause : Nat) (addr : Nat) : Chip :=
  let pmu : Pmu := { pin := c.pmu.pin }
  let c1 : Chip :=
    { lost := c.lost, ddrLost := c.ddrLost, drawn := c.drawn, flash := c.flash, fuseDue := 2 ^ 19 - 1, pmu := pmu
      ndo := { caps := c.ndo.caps } }
  let old := if cause = 0 then 0 else (c.reg Reg.PMU_RST_CAUSE).toNat
  (c1.loseAll.setReg Reg.PMU_RST_CAUSE (BitVec.ofNat 32 (withBit old cause))).setFld F.HPORT_CFG_I2C_ADDR addr

/-- I2C address for the level of HOST_I2C_ADDR_SEL (R349). -/
def i2cAddr (sel : Bool) : Nat := if sel then 0x2D else 0x2C

/-- POWER_ON: VIN_AON has risen. -/
def powerOn (c : Chip) (sel : Bool) : Chip := c.fullReset 0 (i2cAddr sel)

/-- PIN_RESET. -/
def pinReset (c : Chip) : Chip := c.fullReset 3 (c.fld F.HPORT_CFG_I2C_ADDR)

/-- BROWN_OUT, in normal or in low-power mode; event 121 after the reset. -/
def brownOut (c : Chip) (sel : Bool) : Chip :=
  (c.fullReset (if c.bit F.PMU_STATUS_LPMODE then 1 else 2) (i2cAddr sel)).raise 121

/-! ### The RTC (R426) -/

/-- The RTC count. -/
def rtc (c : Chip) : Nat := c.reg64 Reg.RTC_CNT_LO Reg.RTC_CNT_HI

/-- Put it. -/
def setRtc (c : Chip) (n : Nat) : Chip := c.setReg64 Reg.RTC_CNT_LO Reg.RTC_CNT_HI (n % 2 ^ 48)

/-- Alarm count. -/
def rtcAlarmAt (c : Chip) : Nat := c.reg64 Reg.RTC_ALARM_LO Reg.RTC_ALARM_HI

/-- The source in use changes; a sleep is then of class MIXED. -/
def rtcSource (c : Chip) (s : Nat) : Chip :=
  let c1 := c.setFld F.RTC_CTRL_ACTIVE_SRC s
  if c.fld F.RTC_CTRL_ACTIVE_SRC = s ∨ c.domOn 17 then c1 else { c1 with pmu := { c1.pmu with slpMixed := true } }

/-- XTAL32K has stopped for four RC periods. -/
def rtcXtalFail (c : Chip) : Chip :=
  if c.fld F.RTC_CTRL_ACTIVE_SRC = 1 then (c.rtcSource 0).setFld F.RTC_CTRL_XFAIL 1 else c

/-- A write of RTC_CTRL. -/
def writeRtcCtrl (c : Chip) (v : Nat) : Chip :=
  let c1 := ((c.setFld F.RTC_CTRL_EN (bits v 31 31)).setFld F.RTC_CTRL_ALARM_EN (bits v 27 27))
  let c2 := (c1.when (bitAt v 28) (·.setFld F.RTC_CTRL_XFAIL 0)).when (bitAt v 26) (·.setFld F.RTC_CTRL_ALARM 0)
  (c2.setFld F.RTC_CTRL_SRC (bits v 30 30)).when (bits v 30 30 != c.fld F.RTC_CTRL_SRC) (·.rtcSource (bits v 30 30))

/-! ### Wake requests (R423) -/

/-- All 18 domains but those on, of a mask. -/
def notOn (c : Chip) (doms : Nat) : Nat := (List.range 18).foldl (fun m d => if bitAt doms d && !c.domOn d then m + 2 ^ d else m) 0

/-- The serai banks of a mask that are not on. -/
def banksNotOn (c : Chip) (banks : Nat) : Nat :=
  (List.range 32).foldl (fun m b => if bitAt banks b && c.seraiState b != 0 then m + 2 ^ b else m) 0

/-- Domains that need PD_PLL (R413). -/
def needsPll : Nat := 0x1F7FF

/-- The processor pair wakes together, and PD_PLL with any domain that needs it (R416, R423). -/
def closeSet (doms : Nat) : Nat :=
  let d1 := if doms &&& 0xC00 ≠ 0 then doms ||| 0xC00 else doms
  if d1 &&& needsPll ≠ 0 then d1 ||| 0x20000 else d1

/-- A wake of domains and banks is requested: nothing where all are on. -/
def wakeAsk (c : Chip) (doms banks : Nat) : Chip :=
  let d := c.notOn (closeSet doms)
  let b := c.banksNotOn banks
  if d = 0 ∧ b = 0 then c
  else { c.setFld F.PMU_STATUS_BUSY 1 with pmu := { c.pmu with req := c.pmu.req ||| d, reqBanks := c.pmu.reqBanks ||| b } }

/-- The wake set. -/
def wakeSet (c : Chip) : Nat × Nat := (c.fld F.PMU_WAKE_SET_SET, c.fld F.PMU_WAKE_SERAI_SET)

/-- An entry is aborted: what has changed is woken again (R421). -/
def entryAbort (c : Chip) : Chip :=
  let (d, b) := c.pmu.fresh.getD (0, 0)
  let c1 := (((c.setFld F.PMU_STATUS_ENTRY_ABORT 1).setFld F.PMU_STATUS_PREP 0).setFld F.PMU_STATUS_BUSY 0).setFld
    F.PMU_STATUS_LPMODE 0
  { c1 with pmu := { c1.pmu with wait := none, fresh := none } }.wakeAsk d b

/-- An entry is in progress for a wake that falls in one. -/
def entering (c : Chip) : Bool := c.pmu.fresh.isSome || c.pmu.wait.isSome || c.bit F.PMU_STATUS_PREP

/-- Source `src` requests a wake of domains and banks; `level` for a level source (R421, R423). -/
def wakeFrom (c : Chip) (src doms banks : Nat) (level : Bool) (at_ : WakeAt) : Chip :=
  let c1 := c.setFbit F.PMU_WAKE_SRC_SRC src
  if c.entering && at_ == .entering then c1.entryAbort.wakeAsk doms banks
  else if c.entering && at_ == .window && !level then c.setFld F.PMU_STATUS_EDGE_LOST 1
  else c1.wakeAsk doms banks

/-- A mailbox whose receiver is a core that does not run holds a message (R333). -/
def mbWakes (c : Chip) : Bool :=
  (List.range 24).any fun m => c.mbState m == 1 && decide (c.recvDom m < 12) && !c.domOn (c.recvDom m)

/-- Wake requests of the level sources that hold now. -/
def wakeLevels (c : Chip) : Chip :=
  let (d, b) := c.wakeSet
  let pin := c.bit F.PMU_WAKE_EN_PIN && !c.bit F.PMU_WAKE_EN_PIN_EDGE && (c.pmu.pin != c.bit F.PMU_WAKE_EN_PIN_POL)
  let aux := c.bit F.PMU_WAKE_EN_AUX && c.bit F.AUX_CMP_EN && c.bit F.AUX_CMP_LEVEL
  let c1 := c.when (c.bit F.HPORT_STATUS_WAKE_REQ) (·.wakeFrom 0 d b true .asleep)
  let c2 := (c1.when pin (·.wakeFrom 1 d b true .asleep)).when aux (·.wakeFrom 3 d b true .asleep)
  c2.when c.mbWakes (·.wakeFrom 5 0xC00 0 true .asleep)

/-- Posts of this step to a receiver that sleeps request its wake (R333). -/
def mbWakeTake (c : Chip) : Chip :=
  if c.mbWake = 0 then c else { c.wakeFrom 5 0xC00 0 true .asleep with mbWake := 0 }

/-- The WAKE pin takes a level. -/
def wakePin (c : Chip) (level : Bool) (at_ : WakeAt) : Chip :=
  let pol := c.bit F.PMU_WAKE_EN_PIN_POL
  let was := c.pmu.pin != pol
  let is := level != pol
  let edge := c.bit F.PMU_WAKE_EN_PIN_EDGE
  let c1 := { c with pmu := { c.pmu with pin := level } }
  let (d, b) := c.wakeSet
  if c.bit F.PMU_WAKE_EN_PIN && is && (!edge || !was) then c1.wakeFrom 1 d b (!edge) at_ else c1

/-- The RTC count equals RTC_ALARM (R426): ALARM, event 123, and an edge wake. -/
def rtcAlarm (c : Chip) (at_ : WakeAt) : Chip :=
  if c.bit F.RTC_CTRL_EN && c.bit F.RTC_CTRL_ALARM_EN then
    let c1 := (c.setRtc c.rtcAlarmAt).sticky F.RTC_CTRL_ALARM 123
    let (d, b) := c.wakeSet
    c1.when (c.bit F.PMU_WAKE_EN_RTC) (·.wakeFrom 2 d b false at_)
  else c

/-- One period of the RTC passes. -/
def rtcTick (c : Chip) : Chip :=
  if c.bit F.RTC_CTRL_EN then
    let n := (c.rtc + 1) % 2 ^ 48
    let c1 := c.setRtc n
    if c.bit F.RTC_CTRL_ALARM_EN && n == c.rtcAlarmAt % 2 ^ 48 then c1.rtcAlarm .asleep else c1
  else c

/-- A K state on the USB: the bus resumes, or it is a wake while PD_USB is not on. -/
def usbWake (c : Chip) (at_ : WakeAt) : Chip :=
  if c.domOn 15 then c.usbResume
  else if c.bit F.PMU_WAKE_EN_USB then
    let (d, b) := c.wakeSet
    c.wakeFrom 4 (d ||| 0x8000) b false at_
  else c

/-- The AUX comparator's output changes: an armed comparator is a level wake source (R306, R423). -/
def auxChange (c : Chip) (level : Bool) : Chip :=
  let c1 := c.auxCompare level
  let (d, b) := c.wakeSet
  c1.when (c1.bit F.AUX_CMP_EN && c1.bit F.AUX_CMP_LEVEL && c1.bit F.PMU_WAKE_EN_AUX) (·.wakeFrom 3 d b true .asleep)

/-! ### Commands (R415 to R417, R420) -/

/-- Domain index of a domain code, 32 + b for serai bank b. -/
def domCode (code : Nat) : Option Nat :=
  if 0x10 ≤ code ∧ code ≤ 0x19 then some (code - 0x10)
  else if code = 1 ∨ code = 2 then some (9 + code)
  else if 0x40 ≤ code ∧ code ≤ 0x45 then some (code - 0x40 + 12)
  else if 0x20 ≤ code ∧ code < 0x40 then some (32 + (code - 0x20))
  else none

/-- Retention cost of domain `d` in units of 0.1 µA (R420). -/
def retCost (c : Chip) (d : Nat) : Nat :=
  let f := fun (b : Bool) (n : Nat) => if b then n else 0
  if d < 10 then 2 + f (c.bit (F.ENG_RET_PROG d)) 20 + f (c.bit (F.ENG_RET_COEF d)) 20 + f (c.bit (F.ENG_RET_DELAY d)) 60
  else match d with
    | 10 => 80
    | 11 => 12
    | 12 => 3
    | 13 => 3
    | 14 => 3
    | 16 => 3
    | _ => 0

/-- Cost of the retentions that `doms` and `banks` say. -/
def retLoad (c : Chip) (doms banks : Nat → Bool) : Nat :=
  ((List.range 18).map fun d => if doms d then c.retCost d else 0).sum +
    ((List.range 8).map fun b => if banks b then 40 else 0).sum

/-- PMU_RET_LOAD: retentions in force or requested. -/
def retLoadNow (c : Chip) : Nat :=
  c.retLoad (fun d => c.domState d == 1 || c.fbit F.PMU_STBY_CFG_RET d)
    (fun b => c.seraiState b == 1 || c.fbit F.PMU_STBY_SERAI_RET b)

/-- A new state for some domains and banks. -/
abbrev Plan := List (Nat × Nat) × List (Nat × Nat)

/-- State of domain `d` after a plan. -/
def planDom (c : Chip) (p : Plan) (d : Nat) : Nat := ((p.1.find? (·.1 == d)).map (·.2)).getD (c.domState d)

/-- State of bank `b` after a plan. -/
def planBank (c : Chip) (p : Plan) (b : Nat) : Nat := ((p.2.find? (·.1 == b)).map (·.2)).getD (c.seraiState b)

/-- What STANDBY asks of each domain and bank. -/
def standbyPlan (c : Chip) : Plan :=
  let goal := fun (st : Nat) (ret : Bool) => if st = 2 then 2 else if ret then 1 else 2
  ((List.range 18).map fun d => (d, goal (c.domState d) (c.fbit F.PMU_STBY_CFG_RET d)),
   (List.range 32).map fun b => (b, goal (c.seraiState b) (decide (b < 8) && c.fbit F.PMU_STBY_SERAI_RET b)))

/-- A domain leaves on under a plan. -/
def leavesOn (c : Chip) (p : Plan) (d : Nat) : Bool := c.domOn d && c.planDom p d != 0

/-- No domain but PD_AON is on after a plan. -/
def allDown (c : Chip) (p : Plan) : Bool :=
  (List.range 18).all (fun d => c.planDom p d != 0) && (List.range 32).all fun b => c.planBank p b != 0

/-- The first refusal of R415 that applies to a plan; 0 for none. `pair`: the operation is a SET of the processor pair. -/
def planErr (c : Chip) (p : Plan) (id : Nat) (standby pair : Bool) : Nat :=
  if (p.1.any fun (d, st) => st == 1 && (d == 15 || d == 17)) || (p.2.any fun (b, st) => st == 1 && decide (8 ≤ b)) then 3
  else if c.allDown p && decide (500 < c.retLoad (fun d => c.planDom p d == 1) (fun b => c.planBank p b == 1)) then 4
  else if c.leavesOn p 16 && c.bit F.STRM_CFG_EN then 5
  else if c.leavesOn p 14 && (List.range 32).any (fun k => c.bit (F.ACT_CTRL_EN k)) then 6
  else if c.leavesOn p 17 && (c.bit F.TICK_STATUS_RUNNING ||
      (List.range 17).any fun d => bitAt needsPll d && c.planDom p d == 0) then 7
  else if (List.range 10).any (fun d => c.leavesOn p d && c.locked73 d) then 8
  else if pair then 9
  else if id == mUsb && (standby || c.leavesOn p 15 || c.leavesOn p 17) then 11
  else 0

/-- Domains whose pads are held on entry (R419): those that own pads; shared outputs of a tandem pair float instead. -/
def heldPads (c : Chip) (p : Plan) : Nat :=
  [10, 12, 13, 14, 15, 16].foldl (fun m d =>
    if c.leavesOn p d && !(c.bit F.TLK_CFG_EN && (d == 12 || d == 14)) then m + 2 ^ d else m) 0

/-- The sleep ledger records its entry values (R427). -/
def sleepIn (c : Chip) : Chip :=
  let c1 := (c.setReg64 Reg.SLP_RTC_IN_LO Reg.SLP_RTC_IN_HI c.rtc).setFld F.SLP_STATUS_CAD c.rate
  { c1 with pmu := { c1.pmu with slpSrc := c.fld F.RTC_CTRL_ACTIVE_SRC, slpMixed := false, refclk := c.fld F.CLK_CFG_REFCLK_SEL } }

/-- POWER_ENTRY (R418, R419). The levels that hold at the end of its window request a wake (R421). -/
def powerEntry (c : Chip) (p : Plan) : Chip :=
  let gone := c.bit F.TLK_CFG_EN && c.holdsToken && (c.leavesOn p 12 || c.leavesOn p 14)
  let all := c.allDown p
  let doms := p.1.foldl (fun m (d, _) => if c.leavesOn p d then m + 2 ^ d else m) 0
  let banks := p.2.foldl (fun m (b, st) => if c.seraiState b == 0 && st != 0 then m + 2 ^ b else m) 0
  let c0 := c.when gone fun c => { (c.setFld F.TLK_STATUS_TOKEN 0).tlkEvt 2 with tlk := { c.tlk with driveOut := false } }
  let c1 := (c0.setFld F.PMU_PAD_HOLD_HOLD (c0.fld F.PMU_PAD_HOLD_HOLD ||| c.heldPads p)).when (c.leavesOn p 17) sleepIn
  let down := fun (c : Chip) (x : Nat × Nat) => if x.2 = 0 ∨ x.2 = c.domState x.1 then c else c.domDown x.1 x.2
  let c2 := p.1.foldl down c1
  let c3 := p.2.foldl (fun c x => if x.2 = 0 ∨ x.2 = c.seraiState x.1 then c else c.bankDown x.1 x.2) c2
  let c4 := (c3.setFld F.PMU_STATUS_BUSY 0).setFld F.PMU_STATUS_LPMODE (if all then 1 else c3.fld F.PMU_STATUS_LPMODE)
  { c4 with pmu := { c4.pmu with wait := none, fresh := some (doms, banks) } }.csCheck.wakeLevels

/-- An entry begins: at the end of phase 2 while a tick is in progress (R418). -/
def powerLower (c : Chip) (p : Plan) : Chip :=
  if c.tick.phase = .idle then c.powerEntry p
  else { c.setFld F.PMU_STATUS_BUSY 1 with pmu := { c.pmu with wait := some p } }

/-- The end of phase 2: an entry that waited runs. -/
def powerWaited (c : Chip) : Chip :=
  match c.pmu.wait with
  | some p => c.powerEntry p
  | none => c

/-- A refusal. -/
def pmuRefuse (c : Chip) (err : Nat) : Chip := c.setFld F.PMU_STATUS_ERR err

/-- SET of domain code `code` to state `st` by master `id`. -/
def pmuSet (c : Chip) (id code st : Nat) : Chip :=
  if c.bit F.PMU_STATUS_BUSY then c.pmuRefuse 1
  else if st = 3 then c.pmuRefuse 2
  else if code = 0 then (if st = 0 then c else c.pmuRefuse 2)
  else match domCode code with
    | none => c.pmuRefuse 2
    | some d =>
      if st = 0 then (if d < 32 then c.wakeAsk (2 ^ d) 0 else c.wakeAsk 0 (2 ^ (d - 32)))
      else
        let p : Plan := if d < 32 then ([(d, st)], []) else ([], [(d - 32, st)])
        let e := c.planErr p id false (d == 10 || d == 11)
        if e ≠ 0 then c.pmuRefuse e else c.powerLower p

/-- STANDBY: the cores are prepared first where the processor pair leaves on (R417). -/
def pmuStandby (c : Chip) (id : Nat) : Chip :=
  if c.bit F.PMU_STATUS_BUSY then c.pmuRefuse 1
  else
    let p := c.standbyPlan
    let e := c.planErr p id true false
    if e ≠ 0 then c.pmuRefuse e
    else if c.domOn 10 || c.domOn 11 then (c.setFld F.PMU_STATUS_BUSY 1).sticky F.PMU_STATUS_PREP 120
    else c.powerLower p

/-- WAKE: the wake sequence for the wake set. -/
def pmuWake (c : Chip) : Chip :=
  if c.bit F.PMU_STATUS_BUSY then c.pmuRefuse 1
  else
    let (d, b) := c.wakeSet
    (c.setFbit F.PMU_WAKE_SRC_SRC 6).wakeAsk d b

/-- A write of PMU_CMD by master `id`; engines cannot reach it. -/
def writePmuCmd (c : Chip) (id v : Nat) : Chip :=
  let c1 := ((c.setFld F.PMU_CMD_OP (bits v 30 28)).setFld F.PMU_CMD_DOMAIN (bits v 15 8)).setFld F.PMU_CMD_STATE (bits v 1 0)
  if !bitAt v 31 then c1
  else match bits v 30 28 with
    | 1 => c1.pmuSet id (bits v 15 8) (bits v 1 0)
    | 2 => c1.pmuStandby id
    | 3 => c1.pmuWake
    | _ => c1

/-- Both cores are halted in EVWAIT, the SECP also where its ROM waits after a double fault (R411), and no seal runs
(R417). -/
def prepared (c : Chip) : Bool :=
  (!c.domOn 10 || (c.auxOf 10).run == .waiting) &&
    (!c.domOn 11 || (c.auxOf 11).run == .waiting || c.bit F.SEC_BOOT_STATUS_SECP_HALT) && !c.bit F.SEC_REC_CTRL_BUSY

/-- PREP_COMPLETE: the entry proceeds. -/
def prepComplete (c : Chip) : Chip :=
  if c.bit F.PMU_STATUS_PREP && c.prepared then (c.setFld F.PMU_STATUS_PREP 0).powerLower c.standbyPlan else c

/-- PREP_TIMEOUT: the operation ends with QUIESCE and nothing is changed. -/
def prepTimeout (c : Chip) : Chip :=
  if c.bit F.PMU_STATUS_PREP then
    ((c.setFld F.PMU_STATUS_PREP 0).setFld F.PMU_STATUS_BUSY 0).pmuRefuse 10
  else c

/-- A write of PMU_PAD_HOLD: held pads of domains that are on are released (R419). -/
def writePadHold (c : Chip) (v : Nat) : Chip :=
  (List.range 18).foldl (fun c d => if bitAt v d && c.domOn d then c.clrFbit F.PMU_PAD_HOLD_HOLD d else c) c

/-! ### Wake sequences (R424, R425, R427) -/

/-- The arrays of a sequence, in order. -/
def arraysOf (doms banks : Nat) : List Nat :=
  ((List.range 32).filter (bitAt banks ·)) ++ (if bitAt doms 10 then [32] else []) ++ (if bitAt doms 11 then [33] else []) ++
    ((List.range 10).filter (bitAt doms ·)).map (34 + ·)

/-- The first step at or after `n` that a sequence runs. -/
def stepFrom (lp : Bool) (q : WakeSeq) (n : Nat) : Nat :=
  if n ≤ 1 ∧ lp then 1 else if n ≤ 2 ∧ bitAt q.doms 17 then 2 else if n ≤ 3 ∧ q.arrays ≠ [] then 3 else 4

/-- The domains and banks of a mask read "in transition". -/
def inTransit (c : Chip) (doms banks : Nat) : Chip :=
  (List.range 32).foldl (fun c b => c.when (bitAt banks b) (·.setBankState b 3))
    ((List.range 18).foldl (fun c d => c.when (bitAt doms d) (·.setDomState d 3)) c)

/-- WAKE_SEQUENCE: pending requests start a sequence (R424). -/
def wakeStart (c : Chip) : Chip :=
  if c.pmu.seq.isSome then c
  else
    let d := c.notOn (closeSet c.pmu.req)
    let b := c.banksNotOn c.pmu.reqBanks
    if d = 0 ∧ b = 0 then c
    else
      let q : WakeSeq := { doms := d, banks := b, step := 0, arrays := arraysOf d b, prior :=
         [c.reg Reg.PMU_DSTATE0, c.reg Reg.PMU_DSTATE1, c.reg Reg.PMU_SSTATE0, c.reg Reg.PMU_SSTATE1] }
      let lp := c.bit F.PMU_STATUS_LPMODE
      let c1 := ((c.inTransit d b).setFld F.PMU_STATUS_LPMODE 0).setFld F.PMU_STATUS_BUSY 1
      { c1 with pmu := { c1.pmu with seq := some { q with step := stepFrom lp q 1 }, req := 0, reqBanks := 0, fresh := none } }

/-- Put the sequence. -/
def setSeq (c : Chip) (q : Option WakeSeq) : Chip := { c with pmu := { c.pmu with seq := q } }

/-- Requests that arrived while the sequence ran join at the boundary before step `n`; a second sequence serves the
domains whose earlier step has passed, PD_PLL with all that would have to wait for it, and from step 4 on the domains with
arrays (R425). -/
def wakeJoin (c : Chip) (q : WakeSeq) (n : Nat) : Chip × WakeSeq :=
  let d0 := maskOff (c.notOn (closeSet c.pmu.req)) q.doms
  let b0 := maskOff (c.banksNotOn c.pmu.reqBanks) q.banks
  let d := if 3 ≤ n ∧ bitAt d0 17 then 0 else if 4 ≤ n then maskOff d0 0xFFF else d0
  let b := if 4 ≤ n then 0 else b0
  let c1 := c.inTransit d b
  ({ c1 with pmu := { c1.pmu with req := maskOff d0 d, reqBanks := maskOff b0 b } },
   { q with
      doms := q.doms ||| d, banks := q.banks ||| b
      arrays := if 4 ≤ n then q.arrays else arraysOf (q.doms ||| d) (q.banks ||| b) })

/-- The sequence goes on with the first step at or after `n`. -/
def wakeNext (c : Chip) (q : WakeSeq) (n : Nat) : Chip :=
  let (c1, q1) := c.wakeJoin q n
  c1.setSeq (some { q1 with step := stepFrom false q1 n, tried := false })

/-- The sleep ledger at the end of step 4: the STC advances by the time slept (R427). -/
def sleepOut (c : Chip) : Chip :=
  let dt := (c.rtc + 2 ^ 48 - c.reg64 Reg.SLP_RTC_IN_LO Reg.SLP_RTC_IN_HI) % 2 ^ 48
  let adv := dt * fsHz (c.fld F.SLP_STATUS_CAD) / 32768
  let acc := if c.pmu.slpMixed then 2 else if c.pmu.slpSrc = 1 then 0 else 1
  let c1 := (c.setReg64 Reg.SLP_RTC_OUT_LO Reg.SLP_RTC_OUT_HI c.rtc).setReg64 Reg.SLP_ADV_LO Reg.SLP_ADV_HI adv
  ((c1.setFld F.SLP_STATUS_ACC acc).setFld F.SLP_STATUS_TIME_ESTIMATED 1).modTick fun t =>
    { t with stc := t.stc + BitVec.ofNat 64 adv }

/-- PD_PLL is on again: the recorded reference runs and both PLLs have locked, or the device runs on the RC oscillator. -/
def pllUp (c : Chip) (good : Bool) : Chip :=
  let c1 := c.setFld F.CLK_CFG_REFCLK_SEL c.pmu.refclk
  if good then ((c1.setFld F.CLK_STATUS_XTAL_OK 1).setFld F.CLK_STATUS_SYS_LOCK 1).setFld F.CLK_STATUS_AUD_LOCK 1
  else (c1.sticky F.CLK_STATUS_XTAL_FAIL 76).goSafe

/-- Waiting posts' receivers are awake: MB_STATUS.WAKE ends (R333). -/
def wakeBits (c : Chip) : Chip :=
  (List.range 24).foldl (fun c m => c.when (c.domOn (c.recvDom m)) (·.setFld (F.MB_STATUS_WAKE m) 0)) c

/-- Step 4 is ready: PD_PLL first, every domain of the sequence reads on (R424). -/
def wakeDone (c : Chip) (q : WakeSeq) : Chip :=
  let up := fun (c : Chip) (d : Nat) => c.domUp d (q.was d == 2)
  let pll := bitAt q.doms 17
  let c1 := c.when pll fun c => ((up c 17).pllUp (!q.rc)).sleepOut
  let c2 := ((List.range 17).filter (bitAt q.doms ·)).foldl up c1
  let ready := q.doms != 0 || (List.range 32).any fun b => bitAt q.banks b && c.seraiState b == 0
  let c3 := ((c2.when ready (·.sticky F.PMU_STATUS_DOM_READY 120)).wakeBits.csCheck).setSeq none
  (c3.setFld F.PMU_STATUS_BUSY 0).wakeStart

/-- An array is at nominal voltage: a serai bank is accessible (R133). -/
def arrayReady (c : Chip) (a : Nat) : Chip := if a < 32 then c.setBankState a 0 else c

/-- Memories of an array. -/
def arrayMems (a : Nat) : List Nat :=
  if a < 32 then [110 + a] else if a = 32 then [100] else if a = 33 then [101]
  else [8 * (a - 34), 8 * (a - 34) + 1, 8 * (a - 34) + 2, 8 * (a - 34) + 3]

/-- An array does not become ready: it is treated as off (R424). -/
def arrayFail (c : Chip) (a : Nat) : Chip :=
  let bit := if a < 8 then some (12 + a) else if a < 32 then none else if a < 34 then some (a - 22) else some (a - 34)
  let c1 := ((arrayMems a).foldl lose c).sticky F.PMU_STATUS_MEMFAIL 122
  let c2 := match bit with
    | some i => c1.setFbit F.PMU_RETLOST_LOST i
    | none => c1
  if a < 32 then c2.setBankState a 2 else c2

/-- WAKE_STEP_READY: the present step is ready, `dt` RTC counts after the sequence's last event. -/
def wakeReady (c0 : Chip) (dt : Nat) : Chip :=
  match c0.pmu.seq with
  | none => c0
  | some q =>
    let c := if c0.bit F.RTC_CTRL_EN then c0.setRtc (c0.rtc + dt) else c0
    match q.step, q.arrays with
    | 1, _ => c.wakeNext q 2
    | 2, _ => c.wakeNext q 3
    | 3, a :: rest =>
      let c1 := c.arrayReady a
      if rest = [] then c1.wakeNext { q with arrays := [] } 4 else c1.setSeq (some { q with arrays := rest, tried := false })
    | _, _ => c.wakeDone q

/-- WAKE_STEP_TIMEOUT: the step is repeated once, then it fails. Step 4 has no timeout. -/
def wakeTimeout (c : Chip) : Chip :=
  match c.pmu.seq with
  | none => c
  | some q =>
    if q.step = 4 then c
    else if !q.tried then c.setSeq (some { q with tried := true })
    else match q.step, q.arrays with
      | 1, _ =>
        let c1 := (((c.setReg Reg.PMU_DSTATE0 (q.prior.getD 0 0)).setReg Reg.PMU_DSTATE1 (q.prior.getD 1 0)).setReg
          Reg.PMU_SSTATE0 (q.prior.getD 2 0)).setReg Reg.PMU_SSTATE1 (q.prior.getD 3 0)
        let c2 := ((c1.setFld F.PMU_STATUS_LPMODE 1).setFld F.PMU_STATUS_BUSY 0).sticky F.PMU_STATUS_WAKEFAIL 122
        { c2 with pmu := { c2.pmu with seq := none, req := 0, reqBanks := 0 } }
      | 2, _ => (c.sticky F.PMU_STATUS_DEGRADED 122).wakeNext { q with rc := true } 3
      | 3, a :: rest =>
        let c1 := c.arrayFail a
        if rest = [] then c1.wakeNext { q with arrays := [] } 4 else c1.setSeq (some { q with arrays := rest, tried := false })
      | _, _ => c

end Chip

end Sys2Proof.Machine
end

