-- ==== Sys2Proof/Machine/Sha.lean ====
section
/-! DEFINITION. SHA-256 (FIPS 180-4) and HMAC-SHA-256 (RFC 2104), which R394 names, over lists of bytes. -/

namespace Sys2Proof.Machine.Sha

/-- The round constants. -/
def roundK : List Word :=
  [0x428A2F98, 0x71374491, 0xB5C0FBCF, 0xE9B5DBA5, 0x3956C25B, 0x59F111F1, 0x923F82A4, 0xAB1C5ED5] ++
  [0xD807AA98, 0x12835B01, 0x243185BE, 0x550C7DC3, 0x72BE5D74, 0x80DEB1FE, 0x9BDC06A7, 0xC19BF174] ++
  [0xE49B69C1, 0xEFBE4786, 0x0FC19DC6, 0x240CA1CC, 0x2DE92C6F, 0x4A7484AA, 0x5CB0A9DC, 0x76F988DA] ++
  [0x983E5152, 0xA831C66D, 0xB00327C8, 0xBF597FC7, 0xC6E00BF3, 0xD5A79147, 0x06CA6351, 0x14292967] ++
  [0x27B70A85, 0x2E1B2138, 0x4D2C6DFC, 0x53380D13, 0x650A7354, 0x766A0ABB, 0x81C2C92E, 0x92722C85] ++
  [0xA2BFE8A1, 0xA81A664B, 0xC24B8B70, 0xC76C51A3, 0xD192E819, 0xD6990624, 0xF40E3585, 0x106AA070] ++
  [0x19A4C116, 0x1E376C08, 0x2748774C, 0x34B0BCB5, 0x391C0CB3, 0x4ED8AA4A, 0x5B9CCA4F, 0x682E6FF3] ++
  [0x748F82EE, 0x78A5636F, 0x84C87814, 0x8CC70208, 0x90BEFFFA, 0xA4506CEB, 0xBEF9A3F7, 0xC67178F2]

/-- The initial hash value. -/
def init : List Word := [0x6A09E667, 0xBB67AE85, 0x3C6EF372, 0xA54FF53A, 0x510E527F, 0x9B05688C, 0x1F83D9AB, 0x5BE0CD19]

/-- Four bytes, the highest first, as a word. -/
def beWord (a b c d : Byte) : Word := ((a ++ b) ++ c) ++ d

/-- The big-endian words of a list of bytes. -/
def beWords : List Byte → List Word
  | a :: b :: c :: d :: t => beWord a b c d :: beWords t
  | _ => []

/-- A word as four bytes, the highest first. -/
def beBytes (w : Word) : List Byte := [w.extractLsb' 24 8, w.extractLsb' 16 8, w.extractLsb' 8 8, w.extractLsb' 0 8]

/-- The small sigmas and the big sigmas. -/
def s0 (x : Word) : Word := x.rotateRight 7 ^^^ x.rotateRight 18 ^^^ (x >>> 3)
/-- sigma-1 -/
def s1 (x : Word) : Word := x.rotateRight 17 ^^^ x.rotateRight 19 ^^^ (x >>> 10)
/-- Sigma-0 -/
def b0 (x : Word) : Word := x.rotateRight 2 ^^^ x.rotateRight 13 ^^^ x.rotateRight 22
/-- Sigma-1 -/
def b1 (x : Word) : Word := x.rotateRight 6 ^^^ x.rotateRight 11 ^^^ x.rotateRight 25

/-- The message schedule from its first 16 words, the latest word first. -/
def schedule : Nat → List Word → List Word
  | 0, l => l
  | n + 1, l => schedule n ((s1 (l.getD 1 0) + l.getD 6 0 + s0 (l.getD 14 0) + l.getD 15 0) :: l)

/-- One round. -/
def round (h : List Word) (kw : Word × Word) : List Word :=
  match h with
  | [a, b, c, d, e, f, g, hh] =>
    let t1 := hh + b1 e + ((e &&& f) ^^^ (~~~e &&& g)) + kw.1 + kw.2
    let t2 := b0 a + ((a &&& b) ^^^ (a &&& c) ^^^ (b &&& c))
    [t1 + t2, a, b, c, d + t1, e, f, g]
  | _ => h

/-- One block of 16 words. -/
def block (h w : List Word) : List Word :=
  List.zipWith (· + ·) h ((roundK.zip (schedule 48 w.reverse).reverse).foldl round h)

/-- The blocks of a padded message. -/
def blocks : Nat → List Word → List Word → List Word
  | 0, h, _ => h
  | n + 1, h, w => if w = [] then h else blocks n (block h (w.take 16)) (w.drop 16)

/-- The padding of a message of `n` bytes. -/
def pad (n : Nat) : List Byte :=
  0x80 :: List.replicate ((119 - n % 64) % 64) 0 ++ (List.range 8).map fun k => BitVec.ofNat 8 (8 * n / 256 ^ (7 - k))

/-- SHA-256. -/
def sha256 (m : List Byte) : List Byte :=
  let w := beWords (m ++ pad m.length)
  (blocks (w.length / 16) init w).flatMap beBytes

/-- A key as one block of bytes. -/
def keyBlock (k : List Byte) : List Byte :=
  let k' := if 64 < k.length then sha256 k else k
  k' ++ List.replicate (64 - k'.length) 0

/-- HMAC-SHA-256. -/
def hmac (k m : List Byte) : List Byte :=
  sha256 ((keyBlock k).map (· ^^^ 0x5C) ++ sha256 ((keyBlock k).map (· ^^^ 0x36) ++ m))

/-- A 256-bit key as bytes, byte 0 in the lowest bits. -/
def keyBytes (k : BitVec 256) : List Byte := (List.range 32).map fun i => BitVec.ofNat 8 (k.toNat / 256 ^ i)

/-- K_SEAL = HMAC-SHA-256(DUK, ASCII "TH-SEAL") (R394). -/
def kSeal (duk : BitVec 256) : List Byte := hmac (keyBytes duk) [0x54, 0x48, 0x2D, 0x53, 0x45, 0x41, 0x4C]

/-- K_REC = HMAC-SHA-256(DUK, ASCII "TH-BREC") (R395). -/
def kRec (duk : BitVec 256) : List Byte := hmac (keyBytes duk) [0x54, 0x48, 0x2D, 0x42, 0x52, 0x45, 0x43]

end Sys2Proof.Machine.Sha
end

