-- ==== Sys2Proof/Machine/Security.lean ====
section
/-! DEFINITION. The fuse and security block: boot flash, fuse operations, the boot record's seal, release and reboot
(R390, R395, R401, R402, R405, R406, R409, R410). -/

namespace Sys2Proof.Machine

/-! ### Fuse operations (R402, R409, R410) -/

/-- Bits below `n`. -/
def lowMask (w n : Nat) : BitVec w := BitVec.ofNat w (2 ^ n - 1)

/-- FUSE_DATA as a 256-bit value, byte 0 lowest. -/
def FuseOp.key (f : FuseOp) : BitVec 256 :=
  BitVec.ofNat 256 (f.data.foldr (fun w n => n * 2 ^ 32 + w.toNat) 0)

/-- Width of the ceiling that ARG selects. -/
def ceilWidth (arg : Nat) : Nat := if 24 ≤ arg ∧ arg < 28 then 24 else 16

/-- The refusal of a fuse operation: 1 STATE, 2 ORDER, 0 none. -/
def Otp.refusal (o : Otp) (f : FuseOp) : Nat :=
  let blank := o.lc = 0 ∧ f.locked = false
  match f.op with
  | 1 => if f.arg < o.counter ∨ 64 < f.arg then 2 else 0
  | 2 => if o.lc < f.arg ∧ f.arg ≤ 3 ∧ (f.arg = 1 → o.cikSet ∧ o.dukSet ∧ o.slotSet) then 0 else 1
  | 3 => if blank ∧ o.slotSet = false ∧ o.slot = 0 then 0 else 1
  | 4 => if blank ∧ o.cikSet = false ∧ o.cik = 0 then 0 else 1
  | 5 => if blank ∧ o.dukSet = false ∧ o.duk = 0 then 0 else 1
  | 6 =>
    if 3 ≤ o.lc ∨ 31 < f.arg then 1
    else if maskOff (bits (f.data.getD 0 0).toNat 23 0) (o.ceiling f.arg (ceilWidth f.arg)) ≠ 0 then 2 else 0
  | _ => 1

/-- The bits an accepted operation is to blow, in the numbering of its field; `rnd` is what the random source gives. -/
def Otp.target (o : Otp) (f : FuseOp) (rnd : BitVec 256) : BitVec 256 :=
  match f.op with
  | 1 => lowMask 256 f.arg
  | 2 => lowMask 256 f.arg
  | 3 => BitVec.ofNat 256 (f.data.getD 0 0).toNat
  | 4 => f.key
  | 5 => rnd
  | 6 => BitVec.ofNat 256 (maskOff (o.ceiling f.arg (ceilWidth f.arg)) (bits (f.data.getD 0 0).toNat 23 0))
  | _ => 0

/-- The fuses after the bits `b` of the operation's field have been blown; `whole` says that all of them read back blown.
Blowing only sets bits. -/
def Otp.blow (o : Otp) (f : FuseOp) (b : BitVec 256) (whole : Bool) : Otp :=
  match f.op with
  | 1 => { o with arb := o.arb ||| b.setWidth 64 }
  | 2 =>
    let o1 := if whole then { o with lc := max o.lc (min f.arg 3) } else o
    if f.arg = 3 then { o1 with cik := if whole then BitVec.allOnes 256 else o.cik, duk := if whole then BitVec.allOnes 256 else o.duk }
    else o1
  | 3 => { o with slot := o.slot ||| b.setWidth 32, slotSet := o.slotSet || whole }
  | 4 => { o with cik := o.cik ||| b, cikSet := o.cikSet || whole }
  | 5 => { o with duk := o.duk ||| b, dukSet := o.dukSet || whole }
  | 6 => { o with ceil := Tab.set (fun _ => 0) o.ceil f.arg (Tab.get (fun _ => 0) o.ceil f.arg ||| b.setWidth 24) }
  | _ => o

/-- Domains whose fuse-backed registers follow an operation. -/
def fuseDoms (c : Chip) (f : FuseOp) : Nat :=
  2 ^ 18 + (if c.domOn 11 then 2 ^ 11 else 0) +
    (if f.op = 6 then (if f.arg < 16 then (if c.domOn 12 then 2 ^ 12 else 0) else if c.domOn 14 then 2 ^ 14 else 0) else 0)

/-- 256 bits of free values. -/
def Chip.draw256 (c : Chip) : BitVec 256 × Chip :=
  (BitVec.ofNat 256 ((List.range 8).foldl (fun n k => n * 2 ^ 32 + (Config.free (c.drawn + k)).toNat) 0),
   { c with drawn := c.drawn + 8 })

/-- FUSE_OP_DONE: the operation that runs ends; `bad` names bits that did not read back blown (R402, R409, R410). -/
def fuseDone (s : State) (bad : BitVec 256) : State :=
  match s.chip.sec.fuseOp with
  | none => s
  | some f =>
    let c0 := { s.chip with sec := { s.chip.sec with fuseOp := none } }.setFld F.FUSE_STATUS_BUSY 0
    let err := s.otp.refusal f
    let (rnd, c1) := c0.draw256
    let want := s.otp.target f rnd
    let whole := (want &&& bad) == 0
    let err' := if err ≠ 0 then err else if whole then 0 else 3
    let o := if err ≠ 0 then s.otp else s.otp.blow f (want &&& ~~~bad) whole
    let c2 := (c1.setFld F.FUSE_STATUS_ERR err').sticky (if err' = 0 then F.FUSE_STATUS_DONE else F.FUSE_STATUS_FAIL) 125
    { s with otp := o, chip := (c2.sticky F.SEC_EVT_FUSE 125).fuseLoad o (fuseDoms c2 f) }

/-- A reset of PD_SECP interrupts a fuse operation that ran in `c0` and does not in `c`: some of its bits are blown (R402). -/
def Otp.cut (o : Otp) (c0 c : Chip) : Otp × Chip :=
  match c0.sec.fuseOp, c.sec.fuseOp with
  | some f, none =>
    let (r, c1) := c.draw256
    let (rnd, c2) := c1.draw256
    let done := if f.op = 1 then lowMask 256 (r.toNat % 65) else r
    (if o.refusal f ≠ 0 then o else o.blow f (o.target f rnd &&& done) (done == BitVec.allOnes 256),
      { c2 with fuseDue := c2.fuseDue ||| fuseDoms c2 f })
  | _, _ => (o, c)

namespace Chip

/-- A write of FUSE_CMD: GO starts OP, and is ignored while BUSY is 1. -/
def writeFuseCmd (c : Chip) (v : Nat) : Chip :=
  let op := bits v 30 28
  let c1 := (c.setFld F.FUSE_CMD_OP op).setFld F.FUSE_CMD_ARG (bits v 7 0)
  if bitAt v 31 && !c.bit F.FUSE_STATUS_BUSY && op != 0 && op != 7 then
    { c1.setFld F.FUSE_STATUS_BUSY 1 with
      sec := { c1.sec with fuseOp := some { op := op, arg := bits v 7 0, locked := c.bit F.SEC_CTRL_KEY_LOCK,
                                            data := (List.range 8).map fun i => c.reg (Reg.FUSE_DATA i) } } }
  else c1

/-! ### Boot flash (R390) -/

/-- A byte of the boot flash. -/
def flashByte (c : Chip) (a : Nat) : Byte := Tab.get (fun _ => 0xFF) c.flash a

/-- Put a byte. -/
def setFlash (c : Chip) (a : Nat) (b : Byte) : Chip := { c with flash := Tab.set (fun _ => 0xFF) c.flash a b }

/-- Programming clears bits. -/
def programByte (c : Chip) (a : Nat) (b : Byte) : Chip := c.setFlash a (c.flashByte a &&& b)

/-- Program bytes from address `a` on. -/
def program (c : Chip) (a : Nat) : List Byte → Chip
  | [] => c
  | b :: t => program (c.programByte a b) (a + 1) t

/-- Erase the bytes from `a` to `a + n - 1`. -/
def erase (c : Chip) (a n : Nat) : Chip :=
  { c with flash := Tab.keep (fun k => decide (k < a) || decide (a + n ≤ k)) c.flash }

/-- Bytes of the flash. -/
def flashBytes (c : Chip) (a n : Nat) : List Byte := (List.range n).map fun k => c.flashByte (a + k)

/-- A little-endian word of the flash. -/
def flashWord (c : Chip) (a : Nat) : Word :=
  wordOf (c.flashByte a) (c.flashByte (a + 1)) (c.flashByte (a + 2)) (c.flashByte (a + 3))

/-- First byte and length of what an operation touches. -/
def ospiRange (op a n : Nat) : Nat × Nat :=
  match op with
  | 2 => (a, n)
  | 3 => (a / 4096 * 4096, 4096)
  | 4 => (a / 65536 * 65536, 65536)
  | _ => (0, 0)

/-- The operation touches a protected sector. -/
def ospiGuarded (c : Chip) (op a n : Nat) : Bool :=
  let (lo, k) := ospiRange op a n
  let p := c.fld F.SEC_OSPI_WP_START * 4096
  let q := p + c.fld F.SEC_OSPI_WP_LEN * 4096
  decide (lo < q) && decide (p < lo + k)

/-- A write of OSPI_CMD. -/
def writeOspiCmd (c : Chip) (v : Nat) : Chip :=
  let c1 := (c.when (bitAt v 29) (·.setFld F.OSPI_CMD_DONE 0)).when (bitAt v 28) (·.setFld F.OSPI_CMD_FAIL 0)
  let c2 := (c1.setFld F.OSPI_CMD_LEN (bits v 24 16)).setFld F.OSPI_CMD_OP (bits v 3 0)
  let op := bits v 3 0
  if !bitAt v 31 || c.bit F.OSPI_CMD_BUSY || op == 0 || decide (4 < op) then c2
  else
    let a := (c.reg Reg.OSPI_ADDR).toNat
    let n := min 256 (bits v 24 16 + 1)
    if c.ospiGuarded op a n then (c2.setFld F.OSPI_CMD_FAIL 1).setFld F.OSPI_CMD_ERR 2
    else
      { (c2.setFld F.OSPI_CMD_BUSY 1).setFld F.OSPI_CMD_ERR 0 with
        sec := { c2.sec with ospi := some (op, a, n, (List.range 64).map fun i => c.reg (Reg.OSPI_BUF i)) } }

/-- A reset of PD_SECP interrupts a program or erase operation that ran in `c0` and does not in `c`: what the bytes of its
range then hold the spec does not say. -/
def ospiCut (c0 c : Chip) : Chip :=
  match c0.sec.ospi, c.sec.ospi with
  | some (op, a, n, _), none =>
    let (s, len) := ospiRange op a n
    (List.range len).foldl (fun (c : Chip) (k : Nat) =>
      let (w, c1) := c.draw
      c1.setFlash (s + k) (w.setWidth 8)) c
  | _, _ => c

/-- OSPI_DONE: the operation ends, or times out and fails. -/
def ospiDone (c : Chip) (timeout : Bool) : Chip :=
  match c.sec.ospi with
  | none => c
  | some (op, a, n, buf) =>
    let c1 := { c.setFld F.OSPI_CMD_BUSY 0 with sec := { c.sec with ospi := none } }
    if timeout then (c1.setFld F.OSPI_CMD_FAIL 1).setFld F.OSPI_CMD_ERR 1
    else
      let c2 := match op with
        | 1 => (List.range n).foldl (fun (c : Chip) (k : Nat) =>
            let r := Reg.OSPI_BUF (k / 4)
            c.setReg r (merge (c.reg r) (BitVec.ofNat 32 ((c.flashByte (a + k)).toNat * 2 ^ (8 * (k % 4)))) (2 ^ (k % 4)))) c1
        | 2 => c1.program a ((buf.flatMap wordBytes).take n)
        | _ => let (lo, k) := ospiRange op a n; c1.erase lo k
      c2.setFld F.OSPI_CMD_DONE 1

/-- A write of SEC_OSPI_WP: START and LEN until WP_LOCK is set. -/
def writeOspiWp (c : Chip) (v : Nat) : Chip :=
  let c1 := if c.bit F.SEC_OSPI_WP_WP_LOCK then c
    else (c.setFld F.SEC_OSPI_WP_LEN (bits v 30 16)).setFld F.SEC_OSPI_WP_START (bits v 15 0)
  c1.when (bitAt v 31) (·.setFld F.SEC_OSPI_WP_WP_LOCK 1)

/-! ### The boot record's seal (R405, R406) -/

/-- The seal may start. -/
def sealable (c : Chip) : Bool :=
  (c.auxOf 10).run == .waiting && c.sec.rec_.fastwake &&
    (List.range 10).all fun n => !c.fbit F.SEC_REC_CTRL_MASK n ||
      c.engState n == 6 || c.engState n == 2 || c.engState n == 0

/-- A write of SEC_REC_CTRL. -/
def writeRecCtrl (c : Chip) (v : Nat) : Chip :=
  let c1 := c.when (bitAt v 28) (·.setFld F.SEC_REC_CTRL_FAIL 0)
  if c.bit F.SEC_REC_CTRL_BUSY then c1
  else
    let c2 := c1.setFld F.SEC_REC_CTRL_MASK (bits v 10 0)
    if !bitAt v 31 then c2
    else if c2.sealable then c2.setFld F.SEC_REC_CTRL_BUSY 1
    else c2.setFld F.SEC_REC_CTRL_FAIL 1

/-- Memory number of region `n` of a seal: SEn's program memory, or CP SRAM for 10. -/
def regionMem (n : Nat) : Nat := if n = 10 then 100 else 8 * n

/-- Address and length of region `n`. -/
def regionAt (n : Nat) : Nat × Nat := if n = 10 then (0x10000000, 0x100000) else (engBase n, 0x40000)

/-- SHA-256 digest of region `n`. -/
def regionDigest (c : Chip) (n : Nat) : List Byte :=
  let (a, k) := regionAt n
  Sha.sha256 ((List.range k).map fun i => c.byte (a + i))

/-- How often region `n` has lost its content. -/
def losses (c : Chip) (n : Nat) : Nat := Tab.get (fun _ => 0) c.lost (regionMem n)

/-- Regions of a mask. -/
def regions (mask : Nat) : List Nat := (List.range 11).filter (bitAt mask ·)

/-- SEAL_DONE: the seal completes. -/
def sealDone (c : Chip) (o : Otp) : Chip :=
  if c.bit F.SEC_REC_CTRL_BUSY then
    let m := c.fld F.SEC_REC_CTRL_MASK
    let c1 := { c with sec := { c.sec with rec_ := { c.sec.rec_ with
      mask := m, digests := (regions m).map fun n => (n, c.regionDigest n), lc := o.lc, key := o.duk
      losses := (regions m).map fun n => (n, c.losses n), broken := false } } }
    (c1.setFld F.SEC_REC_CTRL_BUSY 0).setFld F.SEC_REC_CTRL_VALID 1
  else c

/-! ### Release, key lock, reboot (R389, R395, R401) -/

/-- Core `k` (10 or 11) starts at a byte address. -/
def startCore (c : Chip) (k entry : Nat) : Chip :=
  (c.setCore k { (({} : Core)) with pc := entry }).modAux k fun a => { a with entry := entry, run := .running }

/-- The cores the image names start together (R401). -/
def release (c : Chip) : Chip :=
  let e := fun k => (c.sec.rec_.entry.getD k 0xFFFFFFFF).toNat
  let c1 := (List.range 10).foldl (fun c p =>
    if e p = 0xFFFFFFFF ∨ !c.domOn p then c
    else (c.setFld (F.ENG_SETUP_PC_PC p) (e p)).engSetupGo p) (c.setFld F.SEC_CTRL_RELEASED 1)
  (c1.startCore 10 (e 10)).startCore 11 (e 11)

/-- REBOOT. -/
def reboot (c : Chip) : Chip :=
  let c1 := c.resetDomains.setFld F.PMU_RST_CAUSE_REBOOT 1
  { c1 with sec := { c1.sec with sample := true } }

/-- A write of SEC_CTRL: KEY_LOCK, then RELEASE, then REBOOT. -/
def writeSecCtrl (c : Chip) (v : Nat) : Chip :=
  let c1 := c.when (bitAt v 0) (·.setFld F.SEC_CTRL_KEY_LOCK 1)
  let ok := c1.bit F.SEC_CTRL_KEY_LOCK && c1.bit F.MB_LOCK_LOCK && !c1.bit F.SEC_CTRL_RELEASED
  (c1.when (bitAt v 31 && ok) release).when (bitAt v 30) reboot

end Chip

end Sys2Proof.Machine
end

