-- ==== Sys2Proof/Machine/Bus.lean ====
section
/-! DEFINITION. The bus (spec/01): register reads and writes by master with their access codes (R10, R11, R13, R14) and
the side effects of each register, the register-file window of the engines (spec/03), the memory windows (R24, R27,
R113, R450) and the external window (R28). -/

namespace Sys2Proof.Machine

namespace Chip

/-! ### Which registers a master reaches -/

/-- Domain of the registers of a block that no row of the register table names, by the block's number in R26. -/
def blockDom (b : Nat) : Nat :=
  match b with
  | 2 | 3 => 17 | 6 | 7 | 8 => 12 | 9 | 14 | 17 | 19 => 10 | 10 | 11 => 16 | 12 => 13 | 13 => 14 | 16 => 15 | 18 => 11
  | _ => 18

/-- The register is one of the banked ones (R340). -/
def banked (a : Nat) : Bool :=
  (decide (0x40000200 ≤ a) && decide (a ≤ 0x4000021C)) || (decide (0x40000240 ≤ a) && decide (a ≤ 0x40000293)) ||
    a == Reg.EVT_CLAIM

/-- The core whose copy of a banked register master `id` reaches: CP 10, SECP 11. -/
def bankCore (id : Nat) : Nat := if id = mSecp then 11 else 10

/-- A register address of peripheral space or of an engine's control region answers master `id` at all: its domain is on,
its engine's window is open, banked registers only to the two cores, the fuse and security block not to the CP. -/
def regReached (c : Chip) (id a : Nat) : Bool :=
  if a < 0x40000000 then
    let p := (a - 0x30000000) / 0x400000
    c.domOn p && !c.windowShut p
  else if banked a then id == mCp || id == mSecp
  else if a / 0x10000 = 0x4012 then id != mCp
  else match Reg.domOf a with
    | some d => c.domOn d.no
    | none => c.domOn (blockDom (a / 0x10000 - 0x4000))

/-! ### Views -/

/-- ENG_* registers that are views of the engine: ENG_SETUP_PC, ENG_MODE, ENG_SEG_LEN_NEXT. -/
def engView (c : Chip) (p a : Nat) : Word :=
  let off := a % 0x400000 - 0x180000
  let st := c.engState p
  if off = 0x24 then BitVec.ofNat 32 (c.core p).mode
  else if off = 8 ∧ st ≠ 0 ∧ st ≠ 6 then BitVec.ofNat 32 (c.auxOf p).lastPc
  else if 0x100 ≤ off ∧ off < 0x140 then
    let seg := (c.core p).seg ((off - 0x100) / 4)
    BitVec.ofNat 32 (bits (c.reg a).toNat 17 0 + (if seg.next.isSome then 2 ^ 31 else 0))
  else c.reg a

/-- STRM_STATE of the selected stream. -/
def strmStateWord (c : Chip) : Word :=
  let x := c.stream (c.fld F.STRM_SEL_STREAM)
  BitVec.ofNat 32 (x.running.toNat * 2 ^ 31 + x.ready.toNat * 2 ^ 30 + x.primed.toNat * 2 ^ 29 +
    x.ended.toNat * 2 ^ 28 + x.clamped.toNat * 2 ^ 27 + min 2047 x.depth * 2 ^ 16 + min 65535 x.missCnt)

/-- STRM_* registers that are views of the streamer. -/
def strmView (c : Chip) (a : Nat) : Word :=
  if a = Reg.STRM_CAP then BitVec.ofNat 32 (c.fld F.STRM_CAP_PEAK * 65536 +
    (if c.bit F.DDR_STATUS_READY then min 65535 c.burstCap else 0))
  else if a = Reg.STRM_CMD then
    let n := c.strm.queue.length
    BitVec.ofNat 32 ((if n = 0 then 0 else 2 ^ 31) + n * 65536)
  else if a = Reg.STRM_STATE then c.strmStateWord
  else if a = Reg.STRM_POS_LO then BitVec.ofNat 32 (c.stream (c.fld F.STRM_SEL_STREAM)).pos.toNat
  else c.reg a

/-- GLD_* registers that are views of a glide channel. -/
def gldView (c : Chip) (a : Nat) : Word :=
  if 0x40098000 ≤ a ∧ a % 32 = 12 then BitVec.ofNat 32 (c.glideState ((a - 0x40098000) / 32))
  else if 0x40098000 ≤ a ∧ a % 32 = 16 then (c.glide ((a - 0x40098000) / 32)).v
  else c.reg a

/-- Registers of the mailbox block as master `id` reads them, but for the semaphores. -/
def mboxView (c : Chip) (id a : Nat) : Word :=
  let m := (a - 0x40050000) / 0x80
  let off := a % 0x80
  if a < 0x40050C00 then
    if off < 0x40 then (if c.mbReadable m id then c.reg a else 0)
    else if off = 0x48 then BitVec.ofNat 32 (c.mbStatusWord m)
    else if off = 0x54 then c.reg (a + id * 2 ^ 32)
    else c.reg a
  else if 0x40051020 ≤ a ∧ a < 0x40051040 then BitVec.ofNat 32 (c.fld (F.BELL_BELL ((a - 0x40051020) / 4)))
  else c.reg a

/-- CORE_* registers of core `k`; CORE_EPC is the resume address in the frame of the present level. -/
def coreView (c : Chip) (k a : Nat) : Word :=
  if a = 0x40000204 then (if c.runlvl k = 0 then 0 else c.reg (Reg.CORE_RPC (c.runlvl k) + bankOf k))
  else c.reg (a + bankOf k)

/-- ID_* registers whose values the implementation fixes. -/
def idView (c : Chip) (a : Nat) : Word :=
  if a = Reg.ID_PART then BitVec.ofNat 32 (0x10800000 + Config.grade.toNat)
  else if Reg.ID_UID 0 ≤ a ∧ a ≤ Reg.ID_UID 3 then
    BitVec.ofNat 32 (Config.uid.toNat / 2 ^ (32 * ((a - Reg.ID_UID 0) / 4)))
  else c.reg a

/-- A register that is a view of state kept elsewhere; `none` for one that the register table holds. -/
def view (c : Chip) (id a : Nat) : Option Word :=
  if a < 0x40000000 then some (c.engView ((a - 0x30000000) / 0x400000) a)
  else match a / 0x10000 - 0x4000 with
    | 0 => if banked a then some (c.coreView (bankCore id) a) else if a < 0x40000040 then some (c.idView a) else none
    | 1 => if a = Reg.PMU_RET_LOAD then some (BitVec.ofNat 32 c.retLoadNow)
      else if a = Reg.RTC_CNT_HI then some (Tab.get (fun _ => 0) c.pmu.shadows id) else none
    | 3 => if a = Reg.STC_HI then some (c.readStcHi id) else none
    | 4 => if a = Reg.EVT_CLAIM then some (BitVec.ofNat 32 (c.claim (bankCore id))) else none
    | 5 => some (c.mboxView id a)
    | 8 => if Reg.RT_CUR 0 ≤ a ∧ a ≤ Reg.RT_CUR 4095 then some (c.rtCurWord ((a - Reg.RT_CUR 0) / 4)) else none
    | 9 => some (c.gldView a)
    | 10 => if a = Reg.STRM_POS_HI then some (Tab.get (fun _ => 0) c.tick.shadows (256 + id)) else some (c.strmView a)
    | 12 => if a = Reg.SENSE_FIFO_A 0 then some (c.fifoHead 0) else if a = Reg.SENSE_FIFO_A 1 then some (c.fifoHead 1)
      else if a = Reg.SENSE_FIFO_B 0 then some (c.fifoHeadB 0) else if a = Reg.SENSE_FIFO_B 1 then some (c.fifoHeadB 1)
      else none
    | 13 => if a < 0x400D0400 ∧ a % 32 = 24 then some (BitVec.ofNat 32 (min 0xFFFFFFFF (c.actCh ((a - 0x400D0000) / 32)).acc))
      else none
    | 17 => if a % 32 = 8 then some (c.midiHead ((a - 0x40110000) / 32))
      else if a % 32 = 12 then some (c.midiHeadB ((a - 0x40110000) / 32)) else none
    | 19 => if Reg.REPLAY_CONE 0 ≤ a ∧ a ≤ Reg.REPLAY_CONE 9 then
        let n := (a - Reg.REPLAY_CONE 0) / 4
        some (BitVec.ofNat 32 (min 65535 (c.recordedLen n) * 65536 + c.recorded n)) else none
    | _ => none

/-- What a register reads as, without any effect of the read: WO fields read 0. -/
def regValue (c : Chip) (id a : Nat) : Word :=
  match c.view id a with
  | some w => w
  | none => match Reg.row a with
    | some r => BitVec.ofNat 32 (maskOff (c.reg a).toNat r.wo)
    | none => c.reg a

/-- The RC fields of a register after a read (R11). -/
def clearRc (c : Chip) (a : Nat) : Chip :=
  match Reg.row a with
  | some r => if r.rc = 0 then c else c.setReg a (BitVec.ofNat 32 (maskOff (c.reg a).toNat r.rc))
  | none => c

/-- A read of the register at `a` by master `id`, with what the read does: nothing through the debug port (R13). -/
def regTake (c : Chip) (id a : Nat) : Word × Chip :=
  if a = Reg.STC_LO then c.readStcLo id
  else if a = Reg.RTC_CNT_LO then
    (c.reg a, { c with pmu := { c.pmu with shadows := Tab.set (fun _ => 0) c.pmu.shadows id (c.reg Reg.RTC_CNT_HI) } })
  else if a = Reg.STRM_POS_LO then
    let p := (c.stream (c.fld F.STRM_SEL_STREAM)).pos
    (c.regValue id a, c.modTick fun t =>
      { t with shadows := Tab.set (fun _ => 0) t.shadows (256 + id) (BitVec.ofNat 32 (p.toNat / 2 ^ 32)) })
  else if Reg.SEM 0 ≤ a ∧ a ≤ Reg.SEM 63 then c.semRead ((a - Reg.SEM 0) / 4) id
  else if id = mDbg then (c.regValue id a, c)
  else if a = Reg.SENSE_FIFO_B 0 then c.fifoPop 0
  else if a = Reg.SENSE_FIFO_B 1 then c.fifoPop 1
  else if a / 0x10000 = 0x4011 ∧ a % 32 = 12 ∧ a < 0x40110080 then c.midiPop ((a - 0x40110000) / 32)
  else (c.regValue id a, c.clearRc a)

/-! ### Writes -/

/-- A write under the access codes of R11 to the register with key `k` in the table's row for it. -/
def regStore (c : Chip) (k : Nat) (v : Word) : Chip :=
  match Reg.row k with
  | some r =>
    let old := (c.reg k).toNat
    c.setReg k (BitVec.ofNat 32 (maskOff (maskOff old r.rw + (v.toNat &&& r.rw)) (v.toNat &&& r.w1c) ||| (v.toNat &&& r.w1s)))
  | none => c

/-- A write of an engine's control and status region: ENG_* registers. The second result is a bus error. -/
def writeEng (c : Chip) (a : Nat) (v : Word) : Chip × Bool :=
  let p := (a - 0x30000000) / 0x400000
  let off := a % 0x400000 - 0x180000
  let st := c.engState p
  if off = 0 then (c.writeEngCtrl p v.toNat, false)
  else if off = 8 then (if st = 0 ∨ st = 6 then c.regStore a v else c, false)
  else if off = 0xC ∨ off = 0x14 then (if c.locked73 p then (c, true) else (c.regStore a v, false))
  else if off = 0x24 then
    if c.locked73 p then (c, true)
    else ((c.regStore a v).modCore p fun x => { x with mode := v.toNat % 16 }, false)
  else if 0x100 ≤ off ∧ off < 0x140 then
    let k := (off - 0x100) / 4
    (((c.setReg a (BitVec.ofNat 32 (v.toNat % 2 ^ 18))).modCore p fun x =>
      x.setSeg k { x.seg k with next := some (BitVec.ofNat 18 v.toNat) }).settleLength p k, false)
  else (c.regStore a v, false)

/-- A write of the mailbox block by master `id`. -/
def writeMbox (c : Chip) (id a : Nat) (v : Word) : Chip :=
  let m := (a - 0x40050000) / 0x80
  let off := a % 0x80
  if a < 0x40050C00 then
    if off < 0x40 then c.writeMbData m id (off / 4) v
    else match off with
      | 0x40 => c.writeMbCtrl m id v.toNat
      | 0x44 => if bitAt v.toNat 31 then c.mbAck m id (v.toNat % 65536) else c
      | 0x58 => if c.listed m id || c.receives m id then c.regStore a v else c
      | 0x5C => if id = mSecp ∧ !c.bit F.MB_LOCK_LOCK then c.regStore a v else c
      | _ => c.regStore a v
  else if a = Reg.MB_LOCK then (if id = mSecp then c.regStore a v else c)
  else if 0x40051020 ≤ a ∧ a < 0x40051040 then c.bellRing ((a - 0x40051020) / 4) (v.toNat % 256)
  else if a = Reg.SEM_REL then c.writeSemRel id v.toNat
  else if Reg.SEM 0 ≤ a ∧ a ≤ Reg.SEM 63 then c
  else c.regStore a v

/-- A write of READY: bits 8:0 by any master that may write them, bit 15 by the SECP; a bit that sets raises 120. -/
def writeReady (c : Chip) (id : Nat) (v : Word) : Chip :=
  let old := (c.reg Reg.READY).toNat
  let new := (v.toNat &&& 0x1FF) + (if id = mSecp then v.toNat &&& 0x8000 else old &&& 0x8000)
  (c.setReg Reg.READY (BitVec.ofNat 32 new)).when (maskOff new old != 0) (·.raise 120)

/-- A write of the system block by master `id`. -/
def writeSys (c : Chip) (id a : Nat) (v : Word) : Chip :=
  if banked a then
    let k := bankCore id
    if a = 0x40000204 then (if c.runlvl k = 0 then c else c.regStore (Reg.CORE_RPC (c.runlvl k) + bankOf k) v)
    else c.regStore (a + bankOf k) v
  else if a = Reg.CP_CTRL then (if id = mSecp ∧ bitAt v.toNat 31 then c.cpReset 1 else c)
  else if a = Reg.READY then c.writeReady id v
  else if a = Reg.EXT_WINDOW ∧ id = mCp then c.setFld F.EXT_WINDOW_CP_BASE (v.toNat % 4)
  else c.regStore a v

/-- A write of EVT_CFGe: a pending event that is now routed to the host is news for the summary (R357). -/
def writeEvtCfg (c : Chip) (e : Nat) (v : Word) : Chip :=
  let was := c.bit (F.EVT_CFG_HOST e)
  (c.regStore (Reg.EVT_CFG e) v).sumNews (c.pends e && !was && bitAt v.toNat 31)

/-- A write of the tick generator's block. -/
def writeTick (c : Chip) (a : Nat) (v : Word) : Chip :=
  if a = Reg.TICK_CTRL then c.writeTickCtrl v.toNat
  else if a = Reg.TICK_CADENCE then c.writeCadence v.toNat
  else if a = Reg.TICK_HOLD then ((List.range 10).filter (bitAt v.toNat ·)).foldl holdRelease c
  else c.regStore a v

/-- A write of the clock block. -/
def writeClk (c : Chip) (a : Nat) (v : Word) : Chip :=
  if a = Reg.CLK_CFG then c.writeClkCfg v.toNat
  else if a = Reg.CLK_ECLK then c.writeClkEclk v.toNat
  else if a = Reg.AUD_CFG then c.writeAudCfg v.toNat
  else if a = Reg.TRK_CTRL then c.writeTrkCtrl v.toNat
  else if a = Reg.WCLK_CTRL then c.writeWclk v.toNat
  else c.regStore a v

/-- A write of the PMU's block by master `id`. -/
def writePmu (c : Chip) (id a : Nat) (v : Word) : Chip :=
  if a = Reg.PMU_CMD then c.writePmuCmd id v.toNat
  else if a = Reg.PMU_STBY_CFG then c.regStore a (BitVec.ofNat 32 (maskOff v.toNat 0x28000))
  else if a = Reg.PMU_PAD_HOLD then c.writePadHold v.toNat
  else if a = Reg.PMU_WAKE_EN then (c.regStore a v).wakeLevels
  else if a = Reg.RTC_CTRL then c.writeRtcCtrl v.toNat
  else c.regStore a v

/-- A write of the SAP block. -/
def writeSap (c : Chip) (a : Nat) (v : Word) : Chip :=
  let k := (a - 0x40060000) / 0x1000
  if 8 ≤ k then c
  else match a % 0x1000 with
    | 0 => (c.writeSapCtrl k v.toNat).when (bitAt v.toNat 31 && !c.bit (F.SAP_CTRL_EN k)) (·.protStart k)
    | 4 => c.writeSapFmt k v.toNat
    | _ => c.regStore a v

/-- A write of the ASRC block. -/
def writeAsrc (c : Chip) (a : Nat) (v : Word) : Chip :=
  if a < 0x40070040 ∧ a % 16 = 0 then c.writeAsrcGctrl ((a - 0x40070000) / 16) v.toNat
  else if Reg.ASRC_CH 0 ≤ a ∧ a ≤ Reg.ASRC_CH 63 then c.writeAsrcCh ((a - Reg.ASRC_CH 0) / 4) v.toNat
  else if Reg.MCLK_CTRL 0 ≤ a ∧ a ≤ Reg.MCLK_CTRL 3 then c.writeMclk ((a - Reg.MCLK_CTRL 0) / 4) v.toNat
  else c.regStore a v

/-- A write of the router's block; the second result is a bus error. -/
def writeRouter (c : Chip) (a : Nat) (v : Word) : Chip × Bool :=
  if Reg.RT_EP 0 ≤ a ∧ a ≤ Reg.RT_EP 4095 ∧ a % 8 = 0 then c.writeRtEp ((a - Reg.RT_EP 0) / 8) v.toNat
  else
    (if a = Reg.RTR_COMMIT then c.writeRtrCommit v.toNat
     else if Reg.FL_CTRL 0 ≤ a ∧ a ≤ Reg.FL_CTRL 15 ∧ a % 8 = 0 then c.writeFlCtrl ((a - Reg.FL_CTRL 0) / 8) v.toNat
     else if Reg.PROT_LIM 0 ≤ a ∧ a < Reg.PROT_TRIP 0 ∧ a % 16 = 0 then c.writeProtLim ((a - Reg.PROT_LIM 0) / 16) v.toNat
     else if Reg.PROT_LIM 0 ≤ a ∧ a < Reg.PROT_TRIP 0 ∧ a % 16 = 4 then c.writeProtDc ((a - Reg.PROT_LIM 0) / 16) v.toNat
     else if Reg.MTR_CFG 0 ≤ a ∧ a ≤ Reg.MTR_CFG 255 then c.writeMtrCfg ((a - Reg.MTR_CFG 0) / 4) v
     else c.regStore a v, false)

/-- A write of the pannier and glide block. -/
def writePan (c : Chip) (a : Nat) (v : Word) : Chip :=
  if a < Reg.PAN_STATUS ∧ a % 16 = 0 then c.writeSwapCtrl ((a - 0x40090000) / 16) v.toNat
  else if Reg.GLD_CTRL 0 ≤ a ∧ a % 32 = 0 then
    (c.regStore a v).when (bitAt v.toNat 31) (·.glideGo ((a - Reg.GLD_CTRL 0) / 32))
  else c.regStore a v

/-- A write of the streamer's and the LPDDR controller's blocks. WINDOW is ignored while EN is 1. -/
def writeStrm (c : Chip) (a : Nat) (v : Word) : Chip :=
  if a = Reg.STRM_CFG then
    (c.when (!c.bit F.STRM_CFG_EN) (·.setFld F.STRM_CFG_WINDOW (v.toNat % 2048))).setFld F.STRM_CFG_EN (bits v.toNat 31 31)
  else if a = Reg.STRM_CMD then c.strmCommand (v.toNat % 8)
  else if a = Reg.DDR_CTRL then (c.regStore a v).when (bitAt v.toNat 0) ddrInit
  else c.regStore a v

/-- A write of the sense block; SENSE_SCAN is ignored while EN is 1 (R300). -/
def writeSense (c : Chip) (a : Nat) (v : Word) : Chip :=
  if a = Reg.SENSE_CTRL then c.writeSenseCtrl v.toNat
  else if Reg.SENSE_SCAN 0 ≤ a ∧ a ≤ Reg.SENSE_SCAN 3 then (if c.bit F.SENSE_CTRL_EN then c else c.regStore a v)
  else if Reg.SENSE_PT_CFG 0 ≤ a ∧ a ≤ Reg.SENSE_PT_CFG 255 ∧ a % 16 = 0 then
    c.writePtCfg ((a - Reg.SENSE_PT_CFG 0) / 16) v.toNat
  else if 0x400C8000 ≤ a ∧ a % 128 = 64 then c.regStore a (BitVec.ofNat 32 (v.toNat % 65536))
  else c.regStore a v

/-- A write of the actuators' block. -/
def writeAct (c : Chip) (a : Nat) (v : Word) : Chip :=
  let k := (a - 0x400D0000) / 32
  if a < 0x400D0400 then
    match a % 32 with
    | 0 => c.writeActCtrl k v.toNat
    | 4 => c.writeActPer k v.toNat
    | 0xC => c.writeActLim k v.toNat
    | 0x10 => c.writeActEmax k v.toNat
    | 0x14 => c.writeActCs k v.toNat
    | _ => c.regStore a v
  else if a = Reg.ACT_TRIP then c.writeActTrip v.toNat
  else if a = Reg.ACT_STATUS then c.writeActStatus v.toNat
  else c.regStore a v

/-- A write of TLK_LDG_CMD. -/
def writeLdgCmd (c : Chip) (v : Nat) : Chip :=
  (c.when (bitAt v 30) (·.setFld F.TLK_LDG_CMD_RESTAMPED 0)).when (bitAt v 31) ldgSubmit

/-- A write of the tandem unit's block. -/
def writeTlk (c : Chip) (a : Nat) (v : Word) : Chip :=
  if a = Reg.TLK_CFG then c.writeTlkCfg v.toNat
  else if a = Reg.TLK_FWD then c.writeTlkFwd v.toNat
  else if a = Reg.TLK_LATCH then c.writeTlkLatch v.toNat
  else if a = Reg.TLK_LDG_CMD then c.writeLdgCmd v.toNat
  else if a = Reg.TLK_REJOIN_CTRL then c.writeRejoinCtrl v.toNat
  else c.regStore a v

/-- A write of the USB device's block. -/
def writeUsb (c : Chip) (a : Nat) (v : Word) : Chip :=
  if a = Reg.USB_CTRL then c.writeUsbCtrl v.toNat
  else if a = Reg.USB_DESC then c.writeUsbDesc v.toNat
  else c.regStore a v

/-- A write of the fuse and security block by master `id`. The 2 KiB of the boot record at 0x4012_1000 hold bytes whose
layout the spec does not give: a write there breaks the record's tag (R405). -/
def writeSec (c : Chip) (id a : Nat) (v : Word) : Chip :=
  if a = Reg.SEC_CTRL then c.writeSecCtrl v.toNat
  else if a = Reg.FUSE_CMD then (if id = mSecp then c.writeFuseCmd v.toNat else c)
  else if Reg.FUSE_DATA 0 ≤ a ∧ a ≤ Reg.FUSE_DATA 7 then c.setReg a v
  else if a = Reg.SEC_REC_CTRL then c.writeRecCtrl v.toNat
  else if a = Reg.SEC_OSPI_WP then c.writeOspiWp v.toNat
  else if a = Reg.OSPI_CMD then c.writeOspiCmd v.toNat
  else if 0x40121000 ≤ a ∧ a < 0x40121800 then
    { c with sec := { c.sec with rec_ := { c.sec.rec_ with broken := true } } }
  else c.regStore a v

/-- A write of the replay, journal and spare block; the second result is a bus error. -/
def writeReplay (c : Chip) (a : Nat) (v : Word) : Chip × Bool :=
  let n := (a - Reg.REPLAY_CONE 0) / 4
  if Reg.REPLAY_CONE 0 ≤ a ∧ a ≤ Reg.REPLAY_CONE 9 then
    if c.locked73 (c.phys n) then (c, true) else (c.setReg a (BitVec.ofNat 32 (withBit (v.toNat % 1024) n)), false)
  else
    (if a = Reg.SPARE_CFG then (if c.fld F.MIG_STATUS_PHASE = 0 then c.regStore a v else c)
     else if a = Reg.MIG_CTRL then
       ((c.regStore a v).when (bitAt v.toNat 30) (·.migAbort 5)).when (bitAt v.toNat 31) migStart
     else if a = Reg.BIST_CTRL then (c.regStore a v).when (bitAt v.toNat 31) bistStart
     else if a = Reg.LOOP_CTRL then
       ((c.regStore a v).when (bitAt v.toNat 30) loopStop).when (bitAt v.toNat 31) loopStart
     else c.regStore a v, false)

/-- A write of `v` to the register at `a` by master `id`, with all its effects; the second result is a bus error. The
guard of R214 and the domain are not looked at. -/
def regPut (c : Chip) (id a : Nat) (v : Word) : Chip × Bool :=
  if a < 0x40000000 then c.writeEng a v
  else match a / 0x10000 - 0x4000 with
    | 0 => (c.writeSys id a v, false)
    | 1 => (c.writePmu id a v, false)
    | 2 => (c.writeClk a v, false)
    | 3 => (c.writeTick a v, false)
    | 4 => (if Reg.EVT_CFG 0 ≤ a ∧ a ≤ Reg.EVT_CFG 127 then c.writeEvtCfg ((a - Reg.EVT_CFG 0) / 4) v
            else if a = Reg.EVT_CLAIM then c else c.regStore a v, false)
    | 5 => (c.writeMbox id a v, false)
    | 6 => (c.writeSap a v, false)
    | 7 => (c.writeAsrc a v, false)
    | 8 => c.writeRouter a v
    | 9 => (c.writePan a v, false)
    | 10 | 11 => (c.writeStrm a v, false)
    | 12 => (c.writeSense a v, false)
    | 13 => (c.writeAct a v, false)
    | 14 => (c.writeTlk a v, false)
    | 15 => (c.regStore a v, false)
    | 16 => (c.writeUsb a v, false)
    | 17 => (if a < 0x40110080 ∧ a % 32 = 16 then c.midiTx ((a - 0x40110000) / 32) v else c.regStore a v, false)
    | 18 => (c.writeSec id a v, false)
    | 19 => c.writeReplay a v
    | _ => (c, false)

/-! ### The register-file window (spec/03) -/

/-- A word of the register-file window of engine `p` at offset `off` from 0x18_0000. -/
def fileRead (c : Chip) (p off : Nat) : Word :=
  let core := c.core p
  let n := (off - 0x1800) / 4
  let hi := fun (x : Int) => BitVec.ofInt 32 (x / 2 ^ 32)
  if off < 0x1800 then BitVec.ofNat 32 (core.gprAt ((off - 0x1000) / 4))
  else if off < 0x1820 then BitVec.ofNat 32 (core.gprAt (512 + n))
  else if off < 0x1840 then
    let x := core.accM ((n - 8) / 2)
    if n % 2 = 0 then BitVec.ofInt 32 x else hi x
  else if off < 0x1850 then
    let x := core.prodOf ((n - 16) / 2)
    if n % 2 = 0 then BitVec.ofInt 32 x else hi x
  else if off < 0x1860 then BitVec.ofNat 32 (core.gprAt (520 + (n - 20)))
  else if off = 0x1860 then BitVec.ofNat 32 core.wb
  else if off = 0x1864 then BitVec.ofNat 32 core.repcnt
  else if 0x1900 ≤ off ∧ off < 0x1A00 then
    BitVec.ofNat 32 ((core.seg ((off - 0x1900) / 16)).word ((off - 0x1900) / 4 % 4))
  else 0

/-- An accumulator or product of `w` bits with one of its two words replaced. -/
def halfPut (x : Int) (hi : Bool) (v : Word) (w : Nat) : Nat :=
  let n := natOf w x
  if hi then v.toNat % 2 ^ (w - 32) * 2 ^ 32 + n % 2 ^ 32 else n / 2 ^ 32 * 2 ^ 32 + v.toNat

/-- The core with a word of the register-file window written. -/
def filePut (core : Core) (off : Nat) (v : Word) : Core :=
  let n := (off - 0x1800) / 4
  if off < 0x1800 then core.setGpr ((off - 0x1000) / 4) v.toNat
  else if off < 0x1820 then core.setGpr (512 + n) v.toNat
  else if off < 0x1840 then
    (core.setAcc ((n - 8) / 2) (halfPut (core.accM ((n - 8) / 2)) (n % 2 == 1) v 56)).flush
  else if off < 0x1850 then core.setProd ((n - 16) / 2) (halfPut (core.prodOf ((n - 16) / 2)) (n % 2 == 1) v 48)
  else if off < 0x1860 then core.setGpr (520 + (n - 20)) v.toNat
  else if off = 0x1860 then { core with wb := v.toNat % 512 / 8 * 8 }
  else if off = 0x1864 then { core with repcnt := v.toNat % 8192 }
  else if 0x1900 ≤ off ∧ off < 0x1A00 then
    let k := (off - 0x1900) / 16
    core.setSeg k ((core.seg k).write ((off - 0x1900) / 4 % 4) v.toNat)
  else core

/-- A write of the register-file window, whatever the state of the engine; a length written takes effect where its rule
lets it (R122). -/
def fileWrite (c : Chip) (p off : Nat) (v : Word) : Chip :=
  let c1 := c.modCore p fun core => filePut core off v
  if 0x1900 ≤ off ∧ off < 0x1A00 ∧ (off - 0x1900) / 4 % 4 = 1 then c1.settleLength p ((off - 0x1900) / 16) else c1

/-- A bus write to the register-file window: accepted in RESET, SETUP_WAIT and HALTED (R73). -/
def filePutBus (c : Chip) (p off : Nat) (v : Word) : Chip × Bool :=
  let st := c.engState p
  if st = 0 ∨ st = 2 ∨ st = 6 then (c.fileWrite p off v, false) else (c, true)

end Chip

/-! ### Memory -/

/-- What an address of the map of R24 names for a bus access. -/
inductive Place where
  /-- SECP ROM. -/
  | rom (a : Nat)
  /-- SRAM of the CP (10) or SECP (11). -/
  | sram (k a : Nat)
  /-- Serai memory. -/
  | serai (a : Nat)
  /-- Program memory of an engine. -/
  | prog (p a : Nat)
  /-- Delay memory. -/
  | delay (p a : Nat)
  /-- Front role, by word. -/
  | front (p w : Nat)
  /-- Pannier role, by word. -/
  | pannier (p w : Nat)
  /-- Relay-out. -/
  | relay (p a : Nat)
  /-- Input relay and sense relay. -/
  | inputs (p a : Nat)
  /-- The register-file window, by offset. -/
  | file (p off : Nat)
  /-- A register. -/
  | reg (a : Nat)
  /-- External memory, by external address. -/
  | ext (a : Nat)
  /-- Nothing. -/
  | nowhere
  deriving DecidableEq, Repr

/-- What offset `off` of engine window `p` names (R27, spec/05). -/
def enginePlace (p off a : Nat) : Place :=
  if off < 0x40000 then .prog p a
  else if off < 0x100000 then .delay p a
  else if off < 0x120000 then .front p ((off - 0x100000) / 4)
  else if off < 0x140000 then .pannier p ((off - 0x120000) / 4)
  else if off < 0x140400 then .relay p a
  else if off < 0x140500 then .inputs p a
  else if 0x141000 ≤ off ∧ off < 0x142000 then .inputs p a
  else if 0x181000 ≤ off ∧ off < 0x182000 then .file p (off - 0x180000)
  else if 0x180000 ≤ off ∧ off < 0x190000 then .reg a
  else .nowhere

namespace Chip

/-- What the aligned address `a` names for master `id` (R24, R27, R28). -/
def place (c : Chip) (id a : Nat) : Place :=
  let secp := id == mSecp || id == mDbg
  if a < 0x20000 then (if secp then .rom a else .nowhere)
  else if a < 0x10000000 then .nowhere
  else if a < 0x10100000 then .sram 10 a
  else if a < 0x18000000 then .nowhere
  else if a < 0x18020000 then (if secp then .sram 11 a else .nowhere)
  else if a < 0x20000000 then .nowhere
  else if a < 0x21000000 then .serai a
  else if a < 0x30000000 then .nowhere
  else if a < 0x32800000 then enginePlace ((a - 0x30000000) / 0x400000) ((a - 0x30000000) % 0x400000) a
  else if a < 0x40000000 then .nowhere
  else if a < 0x40150000 then .reg a
  else if a < 0x80000000 then .nowhere
  else if a < 0x100000000 then
    .ext ((if id = mSecp then c.fld F.EXT_WINDOW_SECP_BASE else c.fld F.EXT_WINDOW_CP_BASE) * 2 ^ 31 + (a - 0x80000000))
  else .nowhere

/-- An access finds the place it names: the domain is on, the engine's window open, the serai bank accessible, external
memory ready and large enough (R28, R133, R190, R192, R414). -/
def placeOpen (c : Chip) (id : Nat) (x : Place) : Bool :=
  match x with
  | .rom _ => c.domOn 11
  | .sram k _ => c.domOn k
  | .serai a => c.seraiBankOn a
  | .prog p _ | .delay p _ | .front p _ | .pannier p _ | .relay p _ | .inputs p _ | .file p _ =>
    c.domOn p && !c.windowShut p
  | .reg a => c.regReached id a
  | .ext a => c.domOn 16 && c.bit F.DDR_STATUS_READY && decide (a < c.ddrSize)
  | .nowhere => false

/-- A read of an engine memory's word: corrected, or 0 with a bus error (R128). -/
def engRead (c : Chip) (p a : Nat) : Word × Chip × Bool :=
  match c.eccOf a with
  | 2 => (0, c.recordUe p a, true)
  | 1 => (c.peek a, c.recordCe p a, false)
  | _ => (c.peek a, c, false)

/-- A read of a serai word (R133). -/
def seraiRead (c : Chip) (a : Nat) : Word × Chip × Bool :=
  match c.eccOf a with
  | 2 => (0, c.seraiUe a, true)
  | 1 => (c.peek a, c.seraiCe a, false)
  | _ => (c.peek a, c, false)

/-- A read of the word at aligned address `a` by master `id` with an access of `size` bytes: the word as the memory or
register holds it, the block, a bus error. -/
def busRead (c : Chip) (id a size : Nat) : Word × Chip × Bool :=
  let al := a / 4 * 4
  let x := c.place id al
  if !c.placeOpen id x then (0, c, true)
  else match x with
    | .rom a => (c.peek a, c, false)
    | .sram k a => c.ownRead k a
    | .serai a => c.seraiRead a
    | .prog p a | .delay p a | .relay p a | .inputs p a => c.engRead p a
    | .front p w => c.engRead p (c.frontAddr p w)
    | .pannier p w => c.engRead p (c.panAddr p w)
    | .file p off => if size = 4 ∧ a % 4 = 0 then (c.fileRead p off, c, false) else (0, c, true)
    | .reg r =>
      if size = 4 ∧ a % 4 = 0 then
        if 0x40121000 ≤ r ∧ r < 0x40121800 then
          let (w, c) := c.draw
          (w, c, false)
        else
          let (w, c) := c.regTake id r
          (w, c, false)
      else (0, c, true)
    | .ext e => (c.ddrWord (e / 4 * 4), c, false)
    | .nowhere => (0, c, true)

/-- Journaled stores of delay word `w` of engine `p` lose the bytes a later bus write replaces (R126). -/
def journalUnder (c : Chip) (p w mask : Nat) : Chip :=
  c.modAux p fun a => { a with journal := (a.journal.map fun j =>
    if j.word = w then { j with mask := maskOff j.mask mask } else j).filter fun j => j.mask != 0 }

/-- Place of a bus master in the order of R126. -/
def busRank (id : Nat) : Nat := if id = mSecp then 0 else if id = mDbg then 3 else 1

/-- The write of word `a` in the same cycle that a bus write meets (R126): the latest one, where `same` says so. -/
def met (last : Option Wrote) (a : Nat) (same : Bool) : Option Wrote := if same then last.filter (·.addr == a) else none

/-- The bytes that a write of rank `rank` leaves in the word where it meets `hit`: those that no master earlier in the
order of R126 writes. -/
def prevails (hit : Option Wrote) (rank mask : Nat) : Nat :=
  hit.elim mask fun x => if x.rank < rank then maskOff mask x.mask else mask

/-- The latest write of word `a` after one of rank `rank` that met `hit`. -/
def wroteAt (hit : Option Wrote) (a mask rank : Nat) : Wrote :=
  hit.elim ⟨a, mask, rank⟩ fun x => ⟨a, x.mask ||| mask, min x.rank rank⟩

/-- The bytes of `mask` of the word at `a`, where there are any, are written. -/
def pokeSome (c : Chip) (a mask : Nat) (v : Word) : Chip := c.when (mask != 0) (·.poke a mask v)

/-- The count of a collision in an engine memory. -/
def collision (c : Chip) (p : Nat) : Chip := (c.bump (F.ENG_COLL_CNT_COLL_CNT p)).memFlag p 5

/-- A bus write of the bytes of `mask` at the place `x`; `same` says that it completes in the cycle of the latest store of
the engine, or of the latest write of serai (R126). The second result is a bus error. -/
def placeWrite (c : Chip) (id : Nat) (x : Place) (mask : Nat) (v : Word) (same : Bool) : Chip × Bool :=
  match x with
  | .rom _ | .nowhere | .reg _ | .file _ _ | .inputs _ _ => (c, true)
  | .sram _ a => (c.poke a mask v, false)
  | .serai a =>
    let hit := met c.strm.last a same
    let c1 := (c.when hit.isSome (·.bump F.SERAI_COLL_CNT_COLL_CNT)).pokeSome a (prevails hit (busRank id) mask) v
    ({ c1 with strm := { c1.strm with last := some (wroteAt hit a mask (busRank id)) } }, false)
  | .prog p a => if c.locked73 p then (c, true) else (c.poke a mask v, false)
  | .delay p a =>
    let hit := met (c.auxOf p).lastStore a same
    let m := prevails hit (busRank id) mask
    (((c.when hit.isSome (·.collision p)).journalUnder p ((a % 0x400000 - 0x40000) / 4) m).pokeSome a m v, false)
  | .front p w =>
    if c.frontRefused p w then (c.setFbit F.PAN_STATUS_FRONT_WR p, true) else (c.poke (c.frontAddr p w) mask v, false)
  | .pannier p w =>
    if c.panRefused p then (c.setFbit F.PAN_STATUS_ARMED_WR p, true)
    else ((c.poke (c.panAddr p w) mask v).setDirty (c.logi p) w, false)
  | .relay p a =>
    if c.locked73 p then (c, true)
    else
      let hit := met (c.auxOf p).lastStore a same
      ((c.when hit.isSome (·.collision p)).pokeSome a (prevails hit (busRank id) mask) v, false)
  | .ext e => (c.pokeDdr (e / 4 * 4) mask v, false)

/-- A write of the bytes of `mask` of the word that holds address `a` by master `id`, with an access of `size` bytes; a
register takes aligned words only (R10). The ledger writes so too (R211). -/
def busPut (c : Chip) (id a size mask : Nat) (v : Word) (same : Bool) : Chip × Bool :=
  let x := c.place id (a / 4 * 4)
  if !c.placeOpen id x then (c, true)
  else match x with
    | .reg r => if size = 4 ∧ a % 4 = 0 then c.regPut id r v else (c, true)
    | .file p off => if size = 4 ∧ a % 4 = 0 then c.filePutBus p off v else (c, true)
    | _ =>
      let (c1, err) := c.placeWrite id x mask v same
      (c1.mirror, err)

/-- The same as masters make it: the guard of R214 holds for all but the debug port. -/
def busWrite (c : Chip) (id a size mask : Nat) (v : Word) (same : Bool) : Chip × Bool :=
  if c.ledgerGuarded (a / 4 * 4) && id != mDbg then (c, true) else c.busPut id a size mask v same

end Chip

/-- The bus as the cores' instructions see it. -/
def busPort : Port :=
  { rd := fun c k ea size =>
      let (w, c, err) := c.busRead (coreMaster k) ea size
      (c, w, err)
    wr := fun c k ea size mask v => c.busWrite (coreMaster k) ea size mask v false }

end Sys2Proof.Machine
end

