-- ==== Sys2Proof/Machine/Window.lean ====
section
/-! DEFINITION. The host window (R341 to R343, R352) and the three ports that reach it: SPI frames (R345 to R348), I2C
transactions (R349 to R351) and USB vendor requests (R357). -/

namespace Sys2Proof

/-- Master ID (R328). -/
def Master.id : Master → Nat
  | .secp => 0 | .cp => 1 | .spi => 2 | .i2c => 3 | .usb => 4 | .debug => 6

end Sys2Proof

namespace Sys2Proof.Machine

/-- CRC-16/CCITT-FALSE over one byte (R346). -/
def crc16Byte (crc b : Nat) : Nat :=
  (List.range 8).foldl (fun r _ => if bitAt r 15 then (2 * r) % 65536 ^^^ 0x1021 else (2 * r) % 65536) (crc ^^^ (b * 256))

/-- CRC-16/CCITT-FALSE over bytes. -/
def crc16 (l : List Byte) : Nat := l.foldl (fun r b => crc16Byte r b.toNat) 0xFFFF

namespace Chip

/-- The level HOST_IRQ is to take (R326). -/
def irqDue (c : Chip) : Bool := c.bit F.EVT_HOST_CTRL_EN && c.hostPend

/-- HOST_IRQ_UPDATE: the pin follows the pending state (R326). -/
def irqUpdate (c : Chip) : Chip := { c with irq := c.irqDue }

/-- EVT_SUMi (R352). -/
def evtSum (c : Chip) (i : Nat) : Nat :=
  ((List.range 32).map fun b =>
    if c.pends (32 * i + b) && c.bit (F.EVT_CFG_HOST (32 * i + b)) then 2 ^ b else 0).foldl (· + ·) 0

/-- HOST_STAT (R352). -/
def hostStat (c : Chip) : Nat := c.irq.toNat + 2 * (c.bit F.EVT_HOST_CTRL_EN).toNat

/-- The mailbox behind a slot of the window (R342; in recovery boot the USB vendor interface reaches mailboxes 0 and 4). -/
def slotBox (c : Chip) (id s : Nat) : Option Nat :=
  if id ≠ mUsb then some s
  else if c.recovery then (if s = 0 ∨ s = 4 then some s else none)
  else if s < 4 then some (16 + s) else none

/-- The system register a window offset reaches (R341); none for an offset that is not listed, for the summary and for
HOST_STAT. -/
def windowReg (c : Chip) (id off : Nat) : Option Nat :=
  if off < 0x400 then (c.slotBox id (off / 0x80)).map fun m => 0x40050000 + 0x80 * m + off % 0x80
  else if off < 0x420 then some (0x40051000 + (off - 0x400))
  else if off < 0x440 then some (0x40051020 + (off - 0x420))
  else if off = 0x500 then some Reg.READY
  else if off = 0x700 then some Reg.PMU_CMD
  else if off = 0x704 then some Reg.PMU_STATUS
  else if 0x800 ≤ off ∧ off < 0x820 then some (0x40000000 + (off - 0x800))
  else none

/-- A refused access (R343). -/
def hostRefuse (c : Chip) (id off : Nat) (write : Bool) : Chip :=
  ((c.setReg Reg.HPORT_ERR (BitVec.ofNat 32 (id * 2 ^ 24 + write.toNat * 65536 + off % 4096))).setFld
    F.HPORT_STATUS_REFUSED 1).raise 118

/-- A read of window offset `off` (a multiple of 4) by host master `id`: the word, or none where it is refused. No field
changes when it is read (R343). -/
def hostRead (c : Chip) (id off : Nat) : Option Word × Chip :=
  if 0x600 ≤ off ∧ off < 0x610 then (some (BitVec.ofNat 32 (c.evtSum ((off - 0x600) / 4))), c)
  else if off = 0x610 then (some (BitVec.ofNat 32 c.hostStat), c)
  else match c.windowReg id off with
    | some a => (some (c.regValue id a), c)
    | none => (none, c.hostRefuse id off false)

/-- A write of window offset `off` by host master `id`; the first result says that it was accepted. -/
def hostWrite (c : Chip) (id off : Nat) (v : Word) : Bool × Chip :=
  if 0x600 ≤ off ∧ off < 0x610 then
    let i := (off - 0x600) / 4
    (true, c.setReg (Reg.EVT_PEND i) (BitVec.ofNat 32 (maskOff (c.reg (Reg.EVT_PEND i)).toNat (v.toNat &&& c.evtSum i))))
  else if 0x400 ≤ off ∧ off < 0x420 then (true, c.bellClear ((off - 0x400) / 4) (v.toNat % 256))
  else if off = 0x500 ∨ off = 0x610 ∨ (0x800 ≤ off ∧ off < 0x820 ∧ off ≠ 0x80C) then (false, c.hostRefuse id off true)
  else match c.windowReg id off with
    | some a => (true, (c.regPut id a v).1)
    | none => (false, c.hostRefuse id off true)

/-- Words from index `w` on are written, modulo 1024; the result says whether any was refused. -/
def hostWrites (id : Nat) : Nat → List Word → Bool → Chip → Bool × Chip
  | _, [], bad, c => (bad, c)
  | w, v :: t, bad, c =>
    let (ok, c1) := c.hostWrite id (w % 1024 * 4) v
    hostWrites id (w + 1) t (bad || !ok) c1

/-- `n` words from index `w` on are read; a refused word reads 0. -/
def hostReads (id : Nat) : Nat → Nat → List Word → Bool → Chip → List Word × Bool × Chip
  | 0, _, l, bad, c => (l.reverse, bad, c)
  | n + 1, w, l, bad, c =>
    let (v, c1) := c.hostRead id (w % 1024 * 4)
    hostReads id n (w + 1) (v.getD 0 :: l) (bad || v.isNone) c1

/-- The response token (R347). -/
def token (c : Chip) (code : Nat) : Byte := BitVec.ofNat 8 (0xC0 + c.irq.toNat * 32 + code)

/-! ### SPI (R345 to R348) -/

/-- A discarded SPI frame. -/
def spiBad (c : Chip) : Chip :=
  let c1 := (c.setFld F.HPORT_STATUS_SPI_FRAME 1).raise 116
  c1.answer (.bytes [c1.token 3])

/-- A frame whose form is right: the bytes before the CRC are `body`, `crc` is what the host sent. -/
def spiServe (c : Chip) (body : List Byte) (crc : Nat) (rd : Bool) (count widx : Nat) : Chip :=
  if crc16 body ≠ crc then
    let c1 := ((c.setFld F.HPORT_STATUS_SPI_CRC 1).bump F.HPORT_CNT_SPI_CRC_CNT).raise 116
    c1.answer (.bytes [c1.token 1])
  else if rd then
    let (ws, bad, c1) := hostReads mSpi count widx [] false c
    let out := c1.token (if bad then 2 else 0) :: ws.flatMap wordBytes
    let k := crc16 out
    c1.answer (.bytes (out ++ [BitVec.ofNat 8 (k / 256), BitVec.ofNat 8 k]))
  else
    let (bad, c1) := hostWrites mSpi widx (wordsOf (body.drop 3)) false c
    c1.answer (.bytes [c1.token (if bad then 2 else 0)])

/-- SPI_FRAME: the bytes the host has clocked out between the edges of CS_N, at most those of its part of the frame being
looked at. -/
def spiFrame (c : Chip) (b : List Byte) : Chip :=
  if !c.bit F.HPORT_CFG_SPI_EN then c
  else
    let h0 := (b.getD 0 0).toNat
    let h2 := (b.getD 2 0).toNat
    let rd := bitAt h0 7
    let count := h0 % 16 + 1
    let n := 3 + (if rd then 0 else 4 * count)
    if b.length < n + 2 ∨ bits h0 6 4 ≠ 6 ∨ 4 ≤ h2 then c.spiBad
    else
      let crc := (b.getD n 0).toNat * 256 + (b.getD (n + 1) 0).toNat
      c.spiServe (b.take n) crc rd count ((b.getD 1 0).toNat + h2 * 256)

/-! ### I2C (R349 to R351) -/

/-- The STOP that ends a transaction ends an address-match wake request (R351). -/
def i2cStop (c : Chip) : Chip := c.setFld F.HPORT_STATUS_WAKE_REQ 0

/-- An I2C protocol error. -/
def i2cProto (c : Chip) : Chip :=
  ((c.setFld F.HPORT_STATUS_I2C_PROTO 1).bump F.HPORT_CNT_I2C_ERR_CNT).raise 117

/-- The slave answers to a 7-bit address. -/
def i2cMine (c : Chip) (addr : Nat) : Bool := c.bit F.HPORT_CFG_I2C_EN && addr == c.fld F.HPORT_CFG_I2C_ADDR

/-- Words are written until one is refused: it and the rest are not applied. -/
def i2cWords : Nat → List Word → Chip → Bool × Chip
  | _, [], c => (true, c)
  | w, v :: t, c =>
    let (ok, c1) := c.hostWrite mI2c (w % 1024 * 4) v
    if ok then i2cWords (w + 1) t c1 else (false, c1)

/-- A reserved bit in the second index byte. -/
def i2cIndex (c : Chip) (i1 : Byte) : Chip := c.when (decide (4 ≤ i1.toNat)) i2cProto

/-- I2C_WRITE: address, the two index bytes and the data bytes, up to the STOP or repeated START. -/
def i2cWrite (c : Chip) (addr : Nat) (b : List Byte) : Chip :=
  if !c.i2cMine addr then c.answer .nak
  else
    let c1 := c.when (decide (2 ≤ b.length)) (·.i2cIndex (b.getD 1 0))
    let widx := (b.getD 0 0).toNat + (b.getD 1 0).toNat % 4 * 256
    let (ok, c2) := i2cWords widx (wordsOf (b.drop 2)) c1
    (c2.i2cStop).answer (if ok then .bytes [] else .nak)

/-- I2C_READ: the index bytes, then `n` data bytes read until the host NACKs. -/
def i2cRead (c : Chip) (addr : Nat) (i0 i1 : Byte) (n : Nat) : Chip :=
  if !c.i2cMine addr then c.answer .nak
  else
    let (ws, _, c2) := hostReads mI2c ((n + 3) / 4) (i0.toNat + i1.toNat % 4 * 256) [] false (c.i2cIndex i1)
    (c2.i2cStop).answer (.bytes ((ws.flatMap wordBytes).take n))

/-- I2C_STUCK_BUS: SCL has been low for 25 ms within a transaction. -/
def i2cStuck (c : Chip) : Chip :=
  if c.bit F.HPORT_CFG_I2C_TO_EN && c.bit F.HPORT_CFG_I2C_EN then c.i2cProto.i2cStop else c

/-- I2C_ADDRESS_MATCH (R351): a level wake request, until the STOP. -/
def i2cMatch (c : Chip) (addr : Nat) (at_ : WakeAt) : Chip :=
  if c.i2cMine addr && c.bit F.HPORT_CFG_WAKE_EN then
    let c1 := ((c.setFld F.HPORT_STATUS_WAKE_REQ 1).setFld F.HPORT_STATUS_I2C_WAKE 1).raise 117
    let (d, b) := c1.wakeSet
    c1.wakeFrom 0 d b true at_
  else c

/-! ### USB vendor requests (R357) -/

/-- The requests of one transfer, one after another, with the response bytes so far; `fuel` bounds their number. -/
def vendorServe : Nat → List Byte → List Byte → Chip → List Byte × Chip
  | 0, _, out, c => (out, c)
  | fuel + 1, b, out, c =>
    match b with
    | [] => (out, c)
    | b0 :: t =>
      let h0 := b0.toNat
      let rd := bitAt h0 7
      let count := h0 % 16 + 1
      let n := 3 + (if rd then 0 else 4 * count)
      let bad := fun (tag : Byte) =>
        let c1 := (c.setFld F.USB_STATUS_VENDOR 1).raise 111
        (out ++ [c1.token 3, tag, 0, 0], c1)
      if t.length < n ∨ bits h0 6 4 ≠ 6 ∨ 4 ≤ (t.getD 1 0).toNat then bad (t.getD 2 0)
      else
        let widx := (t.getD 0 0).toNat + (t.getD 1 0).toNat * 256
        let tag := t.getD 2 0
        if rd then
          let (ws, no, c1) := hostReads mUsb count widx [] false c
          vendorServe fuel (t.drop n) (out ++ [c1.token (if no then 2 else 0), tag, 0, 0] ++ ws.flatMap wordBytes) c1
        else
          let (no, c1) := hostWrites mUsb widx (wordsOf ((t.drop 3).take (4 * count))) false c
          vendorServe fuel (t.drop n) (out ++ [c1.token (if no then 2 else 0), tag, 0, 0]) c1

/-- USB_VENDOR_REQUEST: a transfer on the vendor bulk OUT endpoint. -/
def vendorRequest (c : Chip) (b : List Byte) : Chip :=
  if c.usbLive && c.bit F.USB_STATUS_CONFIGURED then
    let (out, c1) := vendorServe b.length b [] c
    c1.answer (.bytes out)
  else c.answer .nak

/-- USB_INTERRUPT_POLL: the vendor interrupt endpoint sends the summary after a bit of it has set; the audio one a waiting
clock-source notification, whose layout the spec does not state. -/
def interruptPoll (c : Chip) (clock : Bool) : Chip :=
  if !(c.usbLive && c.bit F.USB_STATUS_CONFIGURED) then c.answer .nak
  else if clock then
    if c.usb.notify then
      let (w, c1) := c.draw
      (c1.modUsb fun u => { u with notify := false }).answer (.bytes (wordBytes w))
    else c.answer .nak
  else if c.usb.sumDue then
    (c.modUsb fun u => { u with sumDue := false }).answer
      (.bytes ((List.range 4).flatMap fun i => wordBytes (BitVec.ofNat 32 (c.evtSum i))))
  else c.answer .nak

/-! ### The debug access port (R408) -/

/-- The lifecycle lets the debug port reach address `a`. Retired excepts key registers, which no address names. -/
def debugReaches (c : Chip) (a : Nat) : Bool :=
  c.sec.open_ && match c.fld F.ID_LIFECYCLE_STATE with
    | 0 | 3 => true
    | 1 => !(decide (a < 0x20000) || (decide (0x18000000 ≤ a) && decide (a < 0x18020000)) || a / 0x10000 == 0x4012)
    | _ => false

/-- A refused debug access. -/
def debugRefuse (c : Chip) : Chip :=
  (((c.bump F.SEC_EVT_DBG_CNT).setFld F.SEC_EVT_DBG 1).raise 126).answer .busError

/-- DEBUG_ACCESS: a word read (`data` none) or written through the debug port. -/
def debugAccess (c : Chip) (a : Nat) (data : Option Word) : Chip :=
  if !c.debugReaches a then c.debugRefuse
  else match data with
    | some v =>
      let (c1, err) := c.busWrite mDbg a 4 15 v false
      c1.when err (·.answer .busError)
    | none =>
      let (w, c1, err) := c.busRead mDbg a 4
      c1.answer (if err then .busError else .data w)

/-! ### Registers by master -/

/-- The words of the window (R341): their number, which no reduction of a term but the kernel's counts up to. -/
@[irreducible] def windowWords : Nat := 1024

/-- A window access can reach the register at `a` (R341): used where a host port issues a register's command. -/
def windowOf (c : Chip) (id a : Nat) : Option Nat :=
  ((List.range windowWords).map (4 * ·)).find? fun off => c.windowReg id off == some a

/-- The register at `a` is written by master `m`: over the bus, through the debug port or through the window. -/
def masterWrite (c : Chip) (m : Master) (a : Nat) (v : Word) : Chip :=
  match m with
  | .secp | .cp =>
    let (c1, err) := c.busWrite m.id a 4 15 v false
    c1.when err (·.answer .busError)
  | .debug => c.debugAccess a (some v)
  | _ =>
    match c.windowOf m.id a with
    | some off =>
      let (ok, c1) := c.hostWrite m.id off v
      c1.when (!ok) (·.answer .busError)
    | none => c.answer .busError

/-- The register at `a` is read by master `m`. -/
def masterRead (c : Chip) (m : Master) (a : Nat) : Chip :=
  match m with
  | .secp | .cp =>
    let (w, c1, err) := c.busRead m.id a 4
    c1.answer (if err then .busError else .data w)
  | .debug => c.debugAccess a none
  | _ =>
    match c.windowOf m.id a with
    | some off =>
      let (w, c1) := c.hostRead m.id off
      c1.answer (match w with | some w => .data w | none => .busError)
    | none => c.answer .busError

end Chip

end Sys2Proof.Machine
end

