-- ==== Sys2Proof/Machine/Boot.lean ====
section
/-! DEFINITION. The boot ROM (spec/17): image format (R392, R393), slots and their commits (R391, R397 to R400), loading
and hand-over (R401), the fast wake (R405 to R407), recovery boot and its requests (R403, R404), and the JTAG port
(R408). -/

namespace Sys2Proof.Machine

/-! ### Images -/

/-- One load map entry (R393). -/
structure LoadEntry where
  /-- DEST. -/
  dest : Nat
  /-- SRC. -/
  src : Nat
  /-- LEN. -/
  len : Nat
  /-- KIND. -/
  kind : Nat
  deriving DecidableEq, Repr

/-- The little-endian word at image offset `o`, of an image whose bytes `rd` gives. -/
def imgWord (rd : Nat → Byte) (o : Nat) : Nat := (wordOf (rd o) (rd (o + 1)) (rd (o + 2)) (rd (o + 3))).toNat

/-- LENGTH. -/
def imgLength (rd : Nat → Byte) : Nat := imgWord rd 0x10

/-- The bytes before the tag. -/
def imgBody (rd : Nat → Byte) : List Byte := (List.range (imgLength rd)).map rd

/-- The load map. -/
def loadMap (rd : Nat → Byte) : List LoadEntry :=
  (List.range (imgWord rd 0x50)).map fun i =>
    let o := 0x60 + 16 * i
    ⟨imgWord rd o, imgWord rd (o + 4), imgWord rd (o + 8), imgWord rd (o + 12)⟩

/-- The address is a register whose Reset column reads "boot", other than CORE_VBASE and ENG_SETUP_PC. -/
def bootReg (a : Nat) : Bool :=
  if a < 0x40000000 then
    decide (0x30000000 ≤ a) && decide (a < 0x32800000) && [0x180000, 0x18000C, 0x180014].contains ((a - 0x30000000) % 0x400000)
  else a == Reg.DDR_CFG || a == Reg.CLK_CFG ||
    (decide (Reg.REPLAY_CONE 0 ≤ a) && decide (a ≤ Reg.REPLAY_CONE 9) && a % 4 == 0)

/-- The bytes from `d` on, `n` of them, lie in the destinations R393 permits for COPY and ZERO. -/
def destOk (d n : Nat) : Bool :=
  let inside := fun lo hi => decide (lo ≤ d) && decide (d + n ≤ hi)
  let w := (d - 0x30000000) / 0x400000
  inside 0x10000000 0x10100000 || inside 0x18004000 0x18020000 || inside 0x20000000 0x21000000 ||
    (decide (w < 10) && inside (engBase w) (engBase w + 0x140400))

/-- The pairs of a REG section. -/
def regPairs (rd : Nat → Byte) (e : LoadEntry) : List (Nat × Word) :=
  (List.range (e.len / 8)).map fun i => (imgWord rd (e.src + 8 * i), BitVec.ofNat 32 (imgWord rd (e.src + 8 * i + 4)))

/-- One entry is allowed (R393), in an image whose sections lie from `first` to `last`. -/
def entryOk (rd : Nat → Byte) (first last : Nat) (e : LoadEntry) : Bool :=
  let inImage := decide (first ≤ e.src) && decide (e.src + e.len ≤ last)
  e.len % 4 == 0 && match e.kind with
    | 0 => destOk e.dest e.len && inImage
    | 1 => destOk e.dest e.len
    | 2 => inImage && (regPairs rd e).all fun p => bootReg p.1
    | _ => false

/-- Two destination ranges overlap. -/
def overlap (a b : LoadEntry) : Bool :=
  decide (a.kind < 2) && decide (b.kind < 2) && decide (a.dest < b.dest + b.len) && decide (b.dest < a.dest + a.len)

/-- Entries are in increasing SRC order (a ZERO entry's SRC is ignored), and no two destinations overlap. -/
def mapOk : List LoadEntry → Bool
  | [] => true
  | e :: t => t.all (fun x => !overlap e x && (e.kind == 1 || x.kind == 1 || decide (e.src < x.src))) && mapOk t

/-- The header and load map meet R392 and R393. -/
def headerOk (rd : Nat → Byte) : Bool :=
  let w := imgWord rd
  let n := w 0x10
  let engEntry := (List.range 10).all fun c => w (0x20 + 4 * c) == 0xFFFFFFFF || decide (w (0x20 + 4 * c) < 131072)
  let cp := w 0x48
  let secp := w 0x4C
  w 0 == 0x48545254 && w 4 == 1 && n % 64 == 0 && decide (0x1000 ≤ n) && decide (n ≤ 0x800000) && decide (w 0x14 ≤ 64) &&
    decide (w 0x1C < 2) && engEntry && decide (0x10000000 ≤ cp) && decide (cp < 0x10100000) &&
    decide (0x18004000 ≤ secp) && decide (secp < 0x18020000) && decide (1 ≤ w 0x50) && decide (w 0x50 ≤ 256) &&
    w 0x54 % 1024 == 0 && w 0x58 % 1024 == 0 && w 0x5C == 0 && decide (0x60 + 16 * w 0x50 ≤ n) &&
    (loadMap rd).all (entryOk rd (0x60 + 16 * w 0x50) n) && mapOk (loadMap rd)

/-- The tag of an image body: keyed with the CIK, keyed with K_SEAL, or the Open tag (R394, R400). -/
def cikTag (o : Otp) (body : List Byte) : List Byte := if o.lc = 0 then Sha.sha256 body else Sha.hmac (Sha.keyBytes o.cik) body

/-- The seal tag. -/
def sealTag (o : Otp) (body : List Byte) : List Byte := Sha.hmac (Sha.kSeal o.duk) body

namespace Chip

/-! ### Loading (R393, R396, R401) -/

/-- The address a loader's write at `a` reaches: the coefficient offsets name roles. -/
def loadAddr (c : Chip) (a : Nat) : Nat :=
  let off := (a - 0x30000000) % 0x400000
  let p := (a - 0x30000000) / 0x400000
  if a < 0x30000000 ∨ off < 0x100000 ∨ 0x140000 ≤ off then a
  else if off < 0x120000 then c.frontAddr p ((off - 0x100000) / 4) + a % 4
  else c.panAddr p ((off - 0x120000) / 4) + a % 4

/-- Bytes written from address `a` on, by words where they are whole. -/
def loadBytes (c : Chip) : Nat → List Byte → Chip
  | a, b0 :: b1 :: b2 :: b3 :: t =>
    if a % 4 = 0 then loadBytes (c.pokeW (c.loadAddr a) (wordOf b0 b1 b2 b3)) (a + 4) t
    else loadBytes (c.poke (c.loadAddr a / 4 * 4) (2 ^ (a % 4)) (wordOf b0 b0 b0 b0)) (a + 1) (b1 :: b2 :: b3 :: t)
  | a, b :: t => loadBytes (c.poke (c.loadAddr a / 4 * 4) (2 ^ (a % 4)) (wordOf b b b b)) (a + 1) t
  | _, [] => c
termination_by structural _ l => l

/-- Serai banks that `n` bytes from `a` on touch, as a mask. -/
def banksOf (a n : Nat) : Nat :=
  (List.range 32).foldl (fun m b =>
    let lo := max a (0x20000000 + b / 8 * 0x400000)
    let hi := min (a + n) (0x20000000 + (b / 8 + 1) * 0x400000)
    let first := lo / 32 * 32 + b % 8 * 4
    let w := if first + 4 ≤ lo then first + 32 else first
    if lo < hi ∧ w < hi then m + 2 ^ b else m) 0

/-- The ROM powers what a destination lies in (R396). -/
def powerFor (c : Chip) (a n : Nat) : Chip :=
  let up := fun (c : Chip) (d : Nat) => if c.domOn d then c else c.domUp d (c.domState d == 2)
  if 0x30000000 ≤ a then up c ((a - 0x30000000) / 0x400000)
  else if 0x20000000 ≤ a then
    ((List.range 32).filter (bitAt (banksOf a n) ·)).foldl (fun c b => if c.seraiState b = 0 then c else c.setBankState b 0) c
  else c

/-- The registers a pair may name are in domains that are on. -/
def powerReg (c : Chip) (a : Nat) : Chip :=
  match Reg.domOf a with
  | some d => if c.domOn d.no then c else c.domUp d.no (c.domState d.no == 2)
  | none => c

/-- The load map is applied in SRC order (R393). -/
def applyMap (c : Chip) (rd : Nat → Byte) : Chip :=
  (loadMap rd).foldl (fun c e =>
    match e.kind with
    | 0 => (c.powerFor e.dest e.len).loadBytes e.dest ((List.range e.len).map fun i => rd (e.src + i))
    | 1 => (c.powerFor e.dest e.len).loadBytes e.dest (List.replicate e.len 0)
    | _ => (regPairs rd e).foldl (fun c p => ((c.powerReg p.1).regPut mSecp p.1 p.2).1) c) c

/-- A failed load clears every word the loader wrote (R398). -/
def clearMap (c : Chip) (rd : Nat → Byte) : Chip :=
  (loadMap rd).foldl (fun c e =>
    match e.kind with
    | 0 | 1 => c.loadBytes e.dest (List.replicate e.len 0)
    | _ => (regPairs rd e).foldl (fun c p => (c.regPut mSecp p.1 0).1) c) c

/-- Read accessor of an image already taken as bytes. -/
def imgOf (l : Array Byte) (i : Nat) : Byte := l.getD i 0

/-- The boot record and the registers that describe the running image (R405), for the image `rd`. -/
def bootRecord (c : Chip) (rd : Nat → Byte) (wp : Nat × Nat) : Chip :=
  let w := fun o => BitVec.ofNat 32 (imgWord rd o)
  let pairs := ((loadMap rd).filter (·.kind == 2)).flatMap fun e => (regPairs rd e).map fun p => (BitVec.ofNat 32 p.1, p.2)
  let dig := Sha.sha256 (imgBody rd)
  let c1 := (((c.setReg Reg.SEC_IMG_VERSION (w 8)).setReg Reg.SEC_IMG_SEQ (w 12)).setReg Reg.SEC_IMG_INFO (w 0x14)).setReg
    Reg.SEC_IMG_BUILD (w 0x18)
  let c2 := (List.range 8).foldl (fun c i => c.setReg (Reg.SEC_PROG_DIGEST i)
    (((wordsOf dig).getD i 0))) c1
  let c3 := { c2.setFld F.SEC_REC_CTRL_VALID 0 with
    sec := { c2.sec with rec_ :=
      { pairs := pairs.take 128, entry := (List.range 12).map fun k => w (0x20 + 4 * k), vbase := (w 0x54, w 0x58)
        fastwake := imgWord rd 0x1C == 1, wp := wp } } }
  c3.modTlk fun t => { t with image := dig, build := w 0x18 }

/-- Hand-over (R401): vector bases, access lists, flash protection, locks, release. -/
def handOver (c : Chip) (path slot : Nat) : Chip :=
  let r := c.sec.rec_
  let c1 := (c.setReg Reg.CORE_VBASE r.vbase.1).setReg (Reg.CORE_VBASE + bankOf 11) r.vbase.2
  let c2 := ((List.range 24).foldl (fun c m => c.setReg (Reg.MB_ACL m) (BitVec.ofNat 32 (Reg.aclReset m))) c1).setFld
    F.MB_LOCK_LOCK 1
  let c3 := ((c2.setFld F.SEC_OSPI_WP_START r.wp.1).setFld F.SEC_OSPI_WP_LEN r.wp.2).setFld F.SEC_OSPI_WP_WP_LOCK 1
  let c4 := ((c3.setFld F.SEC_BOOT_STATUS_PATH path).setFld F.SEC_BOOT_STATUS_SLOT slot).setFld F.READY_RECOVERY 0
  (c4.setFld F.SEC_CTRL_KEY_LOCK 1).writeSecCtrl (2 ^ 31)

/-! ### Slots (R391, R397 to R400) -/

/-- Flash offset of slot `k` (0 A, 1 B). -/
def slotAt (o : Otp) (k : Nat) : Nat :=
  if o.slotSet then bits o.slot.toNat (16 * k + 15) (16 * k) * 65536 else if k = 0 then 0x10000 else 0x910000

/-- Byte `i` of the image in the slot at flash offset `s`. -/
def slotImg (c : Chip) (s i : Nat) : Byte := c.flashByte (s + 0x1000 + i)

/-- STATE of the slot at flash offset `s`. -/
def slotState (c : Chip) (s : Nat) : Word := c.flashWord s

/-- The reject code of R397 found before loading; the lowest that holds. `late` says that a read timed out. -/
def slotCode (c : Chip) (o : Otp) (s : Nat) (late : Bool) : Nat :=
  let st := c.slotState s
  if late then 7
  else if st = 0xFFFFFFFF then 1
  else if !([(0xFFFFFF00 : Word), 0xFFFF0000, 0xFF000000, 0] : List _).contains st || !headerOk (c.slotImg s) then 2
  else if imgWord (c.slotImg s) 0x14 < o.counter then 4
  else if st = 0xFF000000 ∧ o.lc ≠ 0 then 5
  else if c.flashWord (s + 4) ≠ 0xFFFFFFFF then 6
  else 0

/-- Field of SEC_BOOT_STATUS for the reject code of slot `k`. -/
def rejField (k : Nat) : Field := if k = 0 then F.SEC_BOOT_STATUS_REJ_A else F.SEC_BOOT_STATUS_REJ_B

/-- Slot `k` at flash offset `s` is rejected with a code: recorded, and marked in the flash where R397 says so, with a
value that the spec does not state but for not being clear. -/
def slotReject (c : Chip) (k s code : Nat) : Chip :=
  let c1 := (c.setFld (rejField k) code).sticky F.SEC_EVT_IMG 124
  if code = 2 ∨ code = 3 ∨ code = 5 then
    let (w, c2) := c1.draw
    c2.program (s + 4) (wordBytes (if w = 0xFFFFFFFF then 0xFFFFFFFE else w))
  else c1

/-- The tag that the slot at flash offset `s` must show, and where it lies: CIK or Open tag after the image for a pending
slot or in lifecycle Open, else the seal tag. -/
def slotTagOk (c : Chip) (o : Otp) (s : Nat) : Bool :=
  let rd := c.slotImg s
  let body := imgBody rd
  if o.lc = 0 ∨ c.slotState s = 0xFFFFFF00 then
    (List.range 32).map (fun i => rd (imgLength rd + i)) == cikTag o body
  else c.flashBytes (s + 0x20) 32 == sealTag o body

/-- A pending slot whose CIK tag matched is committed: seal tag, then STATE = TRIAL (R398). -/
def slotCommit (c : Chip) (o : Otp) (s : Nat) : Chip :=
  if o.lc = 0 ∨ c.slotState s ≠ 0xFFFFFF00 then c
  else ((c.program (s + 0x20) (sealTag o (imgBody (c.slotImg s)))).program s (wordBytes 0xFFFF0000)).sticky F.SEC_EVT_COMMIT 124

/-- Slot `a` goes before slot `b` (R398), by VERSION, SEQUENCE and letter. -/
def slotBefore (c : Chip) (o : Otp) (a b : Nat) : Bool :=
  let v := fun k => imgWord (c.slotImg (slotAt o k)) 8
  let q := fun k => imgWord (c.slotImg (slotAt o k)) 12
  decide (v b < v a) || (v a == v b && (decide (q b < q a) || (q a == q b && decide (a < b))))

/-- A candidate is loaded and verified (R398, R399): the block and whether it holds. `late` says that a read or program
timed out. -/
def slotLoad (c : Chip) (o : Otp) (k : Nat) (late : Bool) : Chip × Bool :=
  let s := slotAt o k
  let rd := c.slotImg s
  let wp := ((s + 0x1000) / 4096, (imgLength rd + 32 + 4095) / 4096)
  let c1 := c.applyMap rd
  if late then ((c1.clearMap rd).slotReject k s 7, false)
  else if !c.slotTagOk o s then ((c1.clearMap rd).slotReject k s 3, false)
  else
    let c2 := c1.slotCommit o s
    let trial := c2.slotState s == 0xFFFF0000 && o.lc != 0
    let c3 := c2.when trial fun c => (c.program s (wordBytes 0xFF000000)).setFld F.SEC_BOOT_STATUS_COMMITTED 1
    ((c3.bootRecord rd wp), true)

/-- A pending slot that is not loaded is committed in a read-only pass (R398). -/
def slotAside (c : Chip) (o : Otp) (k : Nat) : Chip :=
  let s := slotAt o k
  if o.lc = 0 ∨ c.slotState s ≠ 0xFFFFFF00 then c
  else if c.slotTagOk o s then c.slotCommit o s else c.slotReject k s 3

/-! ### Recovery boot (R403) -/

/-- Recovery boot with its cause. -/
def recoveryBoot (c : Chip) (cause : Nat) : Chip :=
  let c1 := (c.setFld F.SEC_BOOT_STATUS_PATH 2).setFld F.SEC_BOOT_STATUS_REC_CAUSE cause
  let c2 := (((c1.setReg (Reg.MB_ACL 0) 0x1C).setReg (Reg.MB_ACL 4) 1).setFld (F.EVT_CFG_HOST 4) 1).setFld F.EVT_HOST_CTRL_EN 1
  let c3 := (c2.when (!c2.bit F.READY_RECOVERY) (·.raise 120)).setFld F.READY_RECOVERY 1
  let c4 := { c3 with sec := { c3.sec with checked := none, buf := 0 } }
  c4.when (c.sec.bootsel == 2) fun c =>
    (if c.domOn 15 then c else c.domUp 15 (c.domState 15 == 2)).writeUsbCtrl (2 ^ 31 + 2 ^ 30)

/-! ### The ROM (R396, R407) -/

/-- What the fast check finds: 0 for success, else FW_FAIL. -/
def fastCheck (c : Chip) (o : Otp) : Nat :=
  let r := c.sec.rec_
  let l := regions r.mask
  if r.broken ∨ r.key ≠ o.duk then 1
  else if l.any fun n => c.losses n != Tab.get (fun _ => 0) r.losses n || c.fbit F.PMU_RETLOST_LOST n then 2
  else if r.lc ≠ o.lc then 3
  else if c.fld F.SEC_IMG_INFO_ARB < o.counter then 4
  else if l.any fun n => some (c.regionDigest n) != ((r.digests.find? fun x => x.1 == n).map (·.2)) then 5
  else 0

/-- The boot from step 4 on. -/
def coldBoot (c : Chip) (o : Otp) (late : Nat) (dfault : Bool) : Chip :=
  if c.sec.bootsel = 1 ∨ c.sec.bootsel = 2 then c.recoveryBoot 1
  else if dfault then c.recoveryBoot 4
  else if bitAt late 1 then c.recoveryBoot 3
  else
    let code := fun k => c.slotCode o (slotAt o k) (bitAt late (2 + k))
    let c1 := [0, 1].foldl (fun c k => if code k = 0 then c else c.slotReject k (slotAt o k) (code k)) c
    let good := [0, 1].filter fun k => code k == 0
    let order := if good.length = 2 ∧ c.slotBefore o 1 0 then [1, 0] else good
    match order with
    | [] => c1.recoveryBoot 2
    | k :: rest =>
      let c2 := rest.foldl (fun c j => if bitAt late (4 + j) then c.slotReject j (slotAt o j) 7 else c.slotAside o j) c1
      let (c3, ok) := c2.slotLoad o k (bitAt late (4 + k))
      if ok then c3.handOver 0 k
      else match rest.filter (fun j => c3.fld (rejField j) == 0) with
        | [] => c3.recoveryBoot 2
        | j :: _ =>
          let (c4, ok) := c3.slotLoad o j (bitAt late (4 + j))
          if ok then c4.handOver 0 j else c4.recoveryBoot 2

/-- BOOT_ROM_START: the ROM runs from reset release, a wake, REBOOT or a double fault to hand-over or recovery boot.
`bootsel` are the pins; `late` says which waits time out: bit 0 the clocks, 1 the flash, 2 and 3 reads of slots A and B,
4 and 5 their loads or programs. -/
def romBoot (c : Chip) (o : Otp) (bootsel late : Nat) : Chip :=
  if !c.sec.romDue then c
  else
    let woke := c.sec.woke
    let dfault := !woke && !c.sec.sample && c.fld F.SEC_BOOT_STATUS_DF_CNT == 2
    let c0 := c.fuseLoad o (2 ^ 11 + 2 ^ 18)
    let c1 := { c0 with sec := { c0.sec with
      romDue := false, woke := false, open_ := true, sample := false
      bootsel := if c.sec.sample then bootsel % 4 else c.sec.bootsel } }
    let c2 := [F.SEC_BOOT_STATUS_PATH, F.SEC_BOOT_STATUS_COMMITTED, F.SEC_BOOT_STATUS_DEGRADED, F.SEC_BOOT_STATUS_REC_CAUSE,
      F.SEC_BOOT_STATUS_FW_FAIL, F.SEC_BOOT_STATUS_SECP_HALT, F.SEC_BOOT_STATUS_REJ_A, F.SEC_BOOT_STATUS_REJ_B].foldl (fun c f => c.setFld f 0) c1
    if o.lc = 3 then c2
    else
      let c3 :=
        if bitAt late 0 then (c2.setFld F.SEC_BOOT_STATUS_DEGRADED 1).goSafe
        else (c2.setFld F.CLK_STATUS_XTAL_OK 1).setFld F.CLK_STATUS_SYS_LOCK 1
      if woke && c.bit F.SEC_REC_CTRL_VALID && o.lc != 0 then
        let why := c3.fastCheck o
        if why = 0 then
          let c4 := c3.sec.rec_.pairs.foldl (fun c p => (((c.powerReg p.1.toNat).regPut mSecp p.1.toNat p.2).1)) c3
          c4.handOver 1 (c.fld F.SEC_BOOT_STATUS_SLOT)
        else ((c3.setFld F.SEC_BOOT_STATUS_FW_FAIL why).sticky F.SEC_EVT_FWFAIL 124).coldBoot o late false
      else c3.coldBoot o late dfault

/-- JTAG_INSTRUCTION: an instruction of the port, in every lifecycle state (R408). -/
def jtagSet (c : Chip) (i : Jtag) : Chip :=
  let c1 := { c with sec := { c.sec with jtag := i } }
  if i = .idcode then c1.answer (.data 0x2108088F) else c1

/-! ### Recovery requests (R404) -/

/-- Word `k` of the message in mailbox `m`. -/
def msg (c : Chip) (m k : Nat) : Word := c.reg (Reg.MB_DATA m k)

/-- OPCODE of the message in mailbox `m` (R362). -/
def msgOp (c : Chip) (m : Nat) : Nat := bits (c.msg m 0).toNat 11 0

/-- LEN of it. -/
def msgLen (c : Chip) (m : Nat) : Nat := bits (c.msg m 0).toNat 15 12

/-- A message is posted in mailbox `r` by core master `id` where it is free: word 0 with MINOR and SEQ of `head`, OPCODE
`op`, and the payload. -/
def postReply (c : Chip) (r id : Nat) (head : Word) (op : Nat) (payload : List Word) : Chip :=
  let w0 := BitVec.ofNat 32 (head.toNat / 65536 * 65536 + payload.length % 16 * 4096 + op % 4096)
  (((w0 :: payload).zipIdx.foldl (fun c x => c.setReg (Reg.MB_DATA r x.2) x.1) c)).mbPost r id

/-- The recovery ROM answers the request in mailbox 0 with a return code. -/
def recAck (c : Chip) (rc : Nat) : Chip := c.mbAck 0 mSecp rc

/-- It has a request for opcode `op` to serve. -/
def recAsked (c : Chip) (op : Nat) : Bool := c.recovery && c.mbState 0 == 1 && c.msgOp 0 == op

/-- It answers with reply data in mailbox 4: the request waits while that is not free. -/
def recReply (c : Chip) (payload : List Word) : Chip :=
  if c.mbState 4 = 0 then (c.postReply 4 mSecp (c.msg 0 0) (c.msgOp 0) payload).recAck 0 else c

/-- A byte of the recovery buffer. -/
def bufByte (c : Chip) (i : Nat) : Byte := c.byte (0x20000000 + i)

/-- LOAD: words enter the buffer in order; a gap or overlap empties it (R372, R404). -/
def recLoad (c : Chip) : Chip :=
  let w := (c.msg 0 1).toNat
  let n := c.msgLen 0 - 1
  let at_ := bits w 20 0
  let c1 := { c with sec := { c.sec with checked := none, buf := if bitAt w 31 then 0 else c.sec.buf } }
  if c.msgLen 0 < 2 then c.recAck 0x11
  else if bits w 27 21 ≠ 0 ∨ 8388640 < 4 * (at_ + n) then c.recAck 0x12
  else if at_ ≠ c1.sec.buf then ({ c1 with sec := { c1.sec with buf := 0 } }).recAck 0x12
  else
    let c2 := (List.range n).foldl (fun c i => c.pokeW (seraiAddr (at_ + i)) (c.msg 0 (2 + i)))
      (c1.powerFor (seraiAddr at_) (4 * n))
    ({ c2 with sec := { c2.sec with buf := at_ + n } }).recAck 0

/-- What CHECK finds: 0, IMAGE or ROLLBACK. -/
def recVerdict (c : Chip) (o : Otp) : Nat :=
  let rd := c.bufByte
  if !headerOk rd || decide (4 * c.sec.buf < imgLength rd + 32) then 0x36
  else if imgWord rd 0x14 < o.counter then 0x61
  else if (List.range 32).map (fun i => rd (imgLength rd + i)) ≠ cikTag o (imgBody rd) then 0x36
  else 0

/-- CHECK. -/
def recCheck (c : Chip) (o : Otp) : Chip :=
  let rc := c.recVerdict o
  let rd := c.bufByte
  if c.msgLen 0 ≠ 0 then c.recAck 0x11
  else if rc ≠ 0 then
    (({ c with sec := { c.sec with checked := none } }).sticky F.SEC_EVT_IMG 124).recAck rc
  else if c.mbState 4 ≠ 0 then c
  else
    ({ c with sec := { c.sec with checked := some (imgLength rd, BitVec.ofNat 32 (imgWord rd 8)) } }).recReply
      [BitVec.ofNat 32 (imgLength rd), BitVec.ofNat 32 (imgWord rd 8)]

/-- WRITE: the slot is erased and programmed, then STATE = PENDING; `bad` says that the flash failed after the erase. -/
def recWrite (c : Chip) (o : Otp) (bad : Bool) : Chip :=
  if c.msgLen 0 ≠ 1 then c.recAck 0x11
  else if 1 < (c.msg 0 1).toNat then c.recAck 0x12
  else if c.sec.checked.isNone then c.recAck 0x25
  else
    let s := slotAt o ((c.msg 0 1).toNat % 2)
    let img := (List.range (imgLength c.bufByte + 32)).map c.bufByte
    let c1 := c.erase s 0x802000
    if bad then c1.recAck 0x60
    else ((c1.program (s + 0x1000) img).program s (wordBytes 0xFFFFFF00)).recAck 0

/-- BOOT: the checked image is loaded from the buffer and handed over; there is no reply, and no slot to protect. -/
def recBoot (c : Chip) : Chip :=
  if c.msgLen 0 ≠ 0 then c.recAck 0x11
  else if c.sec.checked.isNone then c.recAck 0x25
  else
    let img := ((List.range (imgLength c.bufByte + 32)).map c.bufByte).toArray
    ((((c.recAck 0).applyMap (imgOf img)).bootRecord (imgOf img) (0, 0))).handOver 3 0

/-- HELLO in recovery boot; it also answers a request whose opcode no recovery request has. -/
def recHello (c : Chip) (o : Otp) : Chip :=
  if !(c.recovery && c.mbState 0 == 1) then c
  else if !([1, 0x10, 0x11, 0x12, 0x13, 0x20, 0x21, 0x30] : List _).contains (c.msgOp 0) then c.recAck 0x10
  else if c.msgOp 0 ≠ 1 then c
  else if c.msgLen 0 ≠ 0 then c.recAck 0x11
  else c.recReply [o.stateWord, c.slotState (slotAt o 0), c.slotState (slotAt o 1), c.reg Reg.SEC_BOOT_STATUS]

/-- REBOOT in recovery boot. -/
def recReboot (c : Chip) : Chip := if c.msgLen 0 ≠ 0 then c.recAck 0x11 else (c.recAck 0).reboot

end Chip

/-! ### Recovery requests that blow fuses -/

/-- One fuse operation as the ROM makes it: all its bits are blown, or it is refused. -/
def fuseNow (s : State) (op arg : Nat) (data : List Word) : State × Bool :=
  let f : FuseOp := { op := op, arg := arg, data := data, locked := s.chip.bit F.SEC_CTRL_KEY_LOCK }
  if s.otp.refusal f ≠ 0 then (s, false)
  else
    let (rnd, c) := s.chip.draw256
    let o := s.otp.blow f (s.otp.target f rnd) true
    ({ s with otp := o, chip := (c.sticky F.SEC_EVT_FUSE 125).fuseLoad o (fuseDoms c f) }, true)

/-- Acknowledge a recovery request in the whole state. -/
def recAckS (s : State) (rc : Nat) : State := { s with chip := s.chip.recAck rc }

/-- ENROL: slot offsets, CIK, DUK and the step to Customer, in lifecycle Open only. -/
def recEnrol (s : State) : State :=
  let c := s.chip
  if c.msgLen 0 ≠ 9 then recAckS s 0x11
  else if s.otp.lc ≠ 0 then recAckS s 0x62
  else
    let (s1, ok1) := fuseNow s 3 0 [c.msg 0 1]
    let (s2, ok2) := fuseNow s1 4 0 ((List.range 8).map fun i => c.msg 0 (2 + i))
    let (s3, ok3) := fuseNow s2 5 0 []
    let (s4, ok4) := fuseNow s3 2 1 []
    recAckS s4 (if ok1 && ok2 && ok3 && ok4 then 0 else 0x62)

/-- LIFECYCLE: a step forward to Secured or Retired. -/
def recLifecycle (s : State) : State :=
  let c := s.chip
  let t := (c.msg 0 1).toNat
  if c.msgLen 0 ≠ 2 then recAckS s 0x11
  else if (t ≠ 2 ∧ t ≠ 3) ∨ c.msg 0 2 ≠ 0x4C435943 then recAckS s 0x12
  else
    let (s1, ok) := fuseNow s 2 t []
    recAckS s1 (if ok then 0 else 0x62)

end Sys2Proof.Machine
end

