-- ==== Sys2Proof/Machine/Ndomus.lean ====
section
/-! DEFINITION. The CP firmware's command protocol (spec/16): requests, the checks of R363 to R371, replies, the ledger and
the partner, notifications. Its commands are in NdoCmd.lean. -/

namespace Sys2Proof.Machine

/-- The reply mailbox of request mailbox `m` (R361); none for the partner's mailbox 14. -/
def replyBox (m : Nat) : Option Nat :=
  if m < 4 then some (m + 4) else if m = 16 ∨ m = 17 then some (m + 2) else none

/-- Word `k` of a request; 0 where the request ends before it. -/
def NdReq.w (q : NdReq) (k : Nat) : Nat := (if k = 0 then q.head else q.body.getD (k - 1) 0).toNat
/-- LEN (the words the request carries). -/
def NdReq.len (q : NdReq) : Nat := q.body.length
/-- MINOR. -/
def NdReq.minor (q : NdReq) : Nat := bits q.head.toNat 31 24
/-- SEQ. -/
def NdReq.seq (q : NdReq) : Nat := bits q.head.toNat 23 16
/-- OPCODE. -/
def NdReq.op (q : NdReq) : Nat := bits q.head.toNat 11 0
/-- Two requests are the same in SEQ, OPCODE, sender and sender's epoch (R367). -/
def NdReq.same (q r : NdReq) : Bool := q.seq == r.seq && q.op == r.op && q.sender == r.sender && q.epoch == r.epoch

/-- What a command has done: the block, its return code, the reply's payload, whether it counts as executed (R367), and
what is left to do. -/
structure NdRes where
  /-- Block. -/
  chip : Chip
  /-- Return code. -/
  rc : Nat
  /-- Payload of the reply. -/
  reply : Option (List Word) := none
  /-- Executed. -/
  ran : Bool := true
  /-- Work left. -/
  task : Option NdTask := none
  deriving DecidableEq, Repr

/-- A refusal: nothing is executed. -/
def NdRes.refuse (c : Chip) (rc : Nat) : NdRes := { chip := c, rc := rc, ran := false }
/-- Done, without reply data. -/
def NdRes.ok (c : Chip) : NdRes := { chip := c, rc := 0 }

namespace Chip

/-- Change the firmware's state. -/
def modNdo (c : Chip) (f : Ndo → Ndo) : Chip := { c with ndo := f c.ndo }

/-- The request in mailbox `m` (R362). -/
def ndReq (c : Chip) (m : Nat) : NdReq :=
  { mb := m, head := c.msg m 0, body := (List.range (c.msgLen m)).map fun k => c.msg m (k + 1)
    sender := c.fld (F.MB_STAMP_SENDER m), epoch := c.fld (F.MB_STAMP_S_EPOCH m)
    tick := (c.reg (Reg.MB_POST_TICK m)).toNat }

/-- The firmware keeps no state from a previous CP epoch (R366). -/
def ndFresh (c : Chip) : Chip :=
  let e := c.fld (F.EPOCH_EPOCH mCp)
  if c.ndo.epoch = e then c else c.modNdo fun n => { caps := n.caps, epoch := e }

/-! ### Replies (R363) -/

/-- Acknowledge the request posted in tick `t` in mailbox `m`, if it is still there. -/
def ndAck (c : Chip) (m rc t : Nat) : Chip :=
  if (c.reg (Reg.MB_POST_TICK m)).toNat = t then c.mbAck m mCp rc else c

/-- One waiting answer goes out. -/
def ndSend (c : Chip) (o : NdOut) : Chip :=
  let c1 := match o.msg, replyBox o.mb with
    | some (op, body), some r => c.postReply r mCp o.head op body
    | _, _ => c
  match o.ack with
  | some (rc, t) => c1.ndAck o.mb rc t
  | none => c1

/-- Waiting answers go out in order, each where its reply mailbox is free and no earlier one waits for it. -/
def ndFlush : List NdOut → List NdOut → Chip → Chip
  | [], kept, c => c.modNdo fun n => { n with out := kept.reverse }
  | o :: l, kept, c =>
    let free := match replyBox o.mb with
      | some r => c.mbState r == 0 && !kept.any (·.mb == o.mb)
      | none => true
    if free then ndFlush l kept (c.ndSend o) else ndFlush l (o :: kept) c

/-- The firmware clears the reply mailboxes that the host has acknowledged, and sends what waited for them. -/
def ndSweep (c : Chip) : Chip :=
  let c1 := c.ndFresh
  let c2 := [4, 5, 6, 7, 18, 19].foldl (fun c r => if c.mbState r = 2 then c.setFld (F.MB_STATUS_STATE r) 0 else c) c1
  ndFlush c2.ndo.out [] c2

/-- An answer joins the queue, and leaves it at once where nothing holds it. -/
def ndAnswer (c : Chip) (o : NdOut) : Chip :=
  let c1 := c.modNdo fun n => { n with out := n.out ++ [o] }
  ndFlush c1.ndo.out [] c1

/-! ### Which request comes next (R365) -/

/-- Mailboxes of requests: the hosts', and the partner's (R361, R371). -/
def ndBoxes : List Nat := [0, 1, 2, 3, 16, 17, 14]

/-- The request in mailbox `m` has been taken and its acknowledge is to come. -/
def ndTaken (c : Chip) (m : Nat) : Bool :=
  let t := (c.reg (Reg.MB_POST_TICK m)).toNat
  c.ndo.out.any (fun o => o.mb == m && (o.ack.map (·.2)) == some t) ||
    c.ndo.tasks.any fun k => !k.defer && k.q.mb == m && k.q.tick == t

/-- A request waits in mailbox `m`. -/
def ndPosted (c : Chip) (m : Nat) : Bool := c.mbState m == 1 && !c.ndTaken m

/-- The request in `m` comes before the one in `k`: posted earlier, or in the same tick in a lower mailbox. -/
def ndBefore (c : Chip) (m k : Nat) : Bool :=
  let d := ((c.reg (Reg.MB_POST_TICK k)).toNat + 2 ^ 32 - (c.reg (Reg.MB_POST_TICK m)).toNat) % 2 ^ 32
  if d = 0 then decide (m < k) else decide (d < 2 ^ 31)

/-- The request in mailbox `m` is the one to take now. -/
def ndTurn (c : Chip) (m : Nat) : Bool :=
  !c.recovery && c.domOn 10 && ndBoxes.contains m && c.ndPosted m && c.ndo.tasks.all (·.defer) &&
    ndBoxes.all fun k => k == m || !c.ndPosted k || c.ndBefore m k

/-! ### The checks before a command (R366 to R371) -/

/-- How a command is submitted in tandem (R371). -/
inductive NdTandem where
  | local_ | ledger | partner | install | cadence
  deriving DecidableEq, Repr

/-- What R371 says of an opcode: bit of the capability bitmap, READY bit, tandem column. The bits that go with the commands
of the program chapter are DEDUCED from their names. -/
def ndInfo (op : Nat) : Option (Option Nat × Nat × NdTandem) :=
  match op with
  | 0x001 | 0x002 => some (none, 0, .local_)
  | 0x010 => some (some 0, 1, .local_)
  | 0x011 => some (some 0, 1, .install)
  | 0x020 => some (some 0, 1, .ledger)
  | 0x021 => some (some 1, 1, .ledger)
  | 0x022 => some (some 2, 1, .ledger)
  | 0x030 => some (some 3, 2, .ledger)
  | 0x040 => some (some 4, 2, .partner)
  | 0x041 => some (some 5, 2, .cadence)
  | 0x050 => some (some 6, 5, .partner)
  | 0x051 => some (some 7, 6, .ledger)
  | 0x060 => some (some 8, 2, .local_)
  | 0x070 => some (some 9, 0, .local_)
  | 0x080 => some (some 10, 0, .local_)
  | 0x090 | 0x091 => some (some 11, 8, .local_)
  | 0x0A0 => some (some 12, 0, .local_)
  | 0x0A1 => some (some 12, 2, .local_)
  | 0x0F0 => some (some 13, 0, .local_)
  | _ => none

/-- The negotiated minor of a sender in its present epoch (R368). -/
def ndMinor (c : Chip) (sender : Nat) : Option Nat :=
  (c.ndo.vers.find? fun v => v.1 == sender && v.2.2 == c.fld (F.EPOCH_EPOCH sender)).map (·.2.1)

/-- The device is a leader whose commands go through the ledger (R210, R371). -/
def ndLedger (c : Chip) : Bool := c.leader && (c.tlkState == 6 || c.tlkState == 8)

/-- The command may not run for the part its device plays in a pair: the return code, 0 where it may (R371). `rate` and
`eclk` say what a CLOCK_CONFIG changes. -/
def ndRole (c : Chip) (t : NdTandem) (rate eclk : Bool) : Nat :=
  let st := c.tlkState
  let follower := c.tandem && !c.leader
  let ledger := follower && (st == 4 || st == 5 || st == 6)
  let partner := follower && (st == 4 || st == 5 || st == 6 || st == 7)
  match t with
  | .local_ => 0
  | .install => if st = 5 ∨ st = 6 then 0x51 else 0
  | .ledger => if ledger then 0x50 else 0
  | .partner => if partner then 0x50 else 0
  | .cadence => if (ledger && rate) || (partner && eclk) then 0x50 else 0

/-- The return code of the checks that stand before a command's own, 0 where they pass. -/
def ndVerdict (c : Chip) (q : NdReq) : Nat :=
  let fromPartner := q.mb == 14
  let minor := if fromPartner then some q.minor else c.ndMinor q.sender
  match ndInfo q.op with
  | none => if minor.isNone then 0x14 else 0x10
  | some (cap, ready, t) =>
    if q.op = 1 then 0
    else if q.op ≠ 2 ∧ minor.isNone then 0x14
    else if q.op ≠ 2 ∧ minor.getD 0 < q.minor then 0x13
    else if (match cap with | some b => !bitAt c.ndo.caps b | none => false) then 0x25
    else
      let role := if fromPartner then 0 else c.ndRole t (bitAt (q.w 3) 3) (bitAt (q.w 3) 6)
      if role ≠ 0 then role
      else if !c.bit ⟨Reg.READY, ready, ready⟩ then 0x20
      else 0

/-- The message is stale (R366). -/
def ndStale (c : Chip) (q : NdReq) : Bool :=
  bitAt (c.mbStatusWord q.mb) 5 || c.fld (F.EPOCH_EPOCH q.sender) != q.epoch

/-! ### Serving a request -/

/-- A command's outcome is recorded, its reply and acknowledge are formed (R363, R364, R367). `head` is word 0 of the
reply. -/
def ndFinish (q : NdReq) (head : Word) (r : NdRes) : Chip :=
  let msg := r.reply.map fun b => (q.op, b)
  let c1 := r.chip.when r.ran (·.modNdo fun n => { n with recs := (n.recs.filter (·.1 != q.mb)) ++ [(q.mb, ⟨q, r.rc, msg⟩)] })
  match r.task with
  | some t =>
    let c2 := c1.modNdo fun n => { n with tasks := n.tasks ++ [t] }
    if t.defer then c2.ndAnswer ⟨q.mb, head, msg, some (r.rc, q.tick)⟩ else c2
  | none => c1.ndAnswer ⟨q.mb, head, msg, some (r.rc, q.tick)⟩

/-- Serve the request in mailbox `m` where `mine` holds of it and it is its turn: the checks of R363 in order, then the
command. `head` gives word 0 of its reply. -/
def ndServeAs (head : NdReq → Chip → Word) (mine : NdReq → Bool) (run : NdReq → Chip → NdRes) (c : Chip) (m : Nat) :
    Chip :=
  let c1 := c.ndSweep
  let q := c1.ndReq m
  if !c1.ndTurn m || !mine q then c1
  else if c1.ndStale q then ndFinish q q.head (.refuse c1 0x15)
  else
    match (c1.ndo.recs.find? fun r => r.1 == m && r.2.q.same q) with
    | some (_, r) => c1.ndAnswer ⟨m, head q c1, r.reply, some (r.rc, q.tick)⟩
    | none =>
      let v := c1.ndVerdict q
      if v ≠ 0 then ndFinish q q.head (.refuse c1 v)
      else
        let r := run q c1
        ndFinish q (head q r.chip) r

/-- The same for every request but HELLO: its reply repeats word 0 of the request (R362). -/
def ndServe (mine : NdReq → Bool) (run : NdReq → Chip → NdRes) (c : Chip) (m : Nat) : Chip :=
  ndServeAs (fun q _ => q.head) mine run c m

/-! ### What running commands hold (R364) -/

/-- One of `l` is held by a command that runs. -/
def ndHeld (c : Chip) (l : List NdHold) : Bool := c.ndo.tasks.any fun t => t.defer && t.holds.any (l.contains ·)

/-! ### Register writes, directly or through the ledger (R371) -/

/-- Writes made by the CP over the bus, in order, up to the first that ends in a bus error. -/
def ndDirect : List (Nat × Word) → Chip → Chip × Bool
  | [], c => (c, true)
  | (a, v) :: l, c =>
    let (c1, err) := c.busWrite mCp a 4 15 v false
    if err then (c1, false) else ndDirect l c1

/-- The entries of a command are submitted with target tick `t`: whether one was stamped later; none where the ledger is
full. -/
def ndSubmit (t : Nat) : List (Nat × Word) → Bool → Chip → Option (Chip × Bool)
  | [], adj, c => some (c, adj)
  | (a, v) :: l, adj, c =>
    let c1 := (((c.setReg Reg.TLK_LDG_ADDR (BitVec.ofNat 32 a)).setReg Reg.TLK_LDG_DATA v).setReg64 Reg.TLK_LDG_AT_LO
      Reg.TLK_LDG_AT_HI t).setFld F.TLK_LDG_CMD_RESTAMPED 0
    if c1.ldgReject = 3 then none
    else
      let c2 := c1.ldgSubmit
      ndSubmit t l (adj || c2.bit F.TLK_LDG_CMD_RESTAMPED) c2

/-- What a command's writes have come to. -/
structure NdWrote where
  /-- Block. -/
  chip : Chip
  /-- Return code: 0, 1 (OK_ADJUSTED), 0x12 or 0x21. -/
  rc : Nat
  /-- Tick of the entries' stamp; the present tick where they were made directly. -/
  tick : Nat
  deriving DecidableEq, Repr

/-- A command's writes, with target tick `t` (0: none). -/
def ndWrite (c : Chip) (t : Nat) (l : List (Nat × Word)) : NdWrote :=
  if c.ndLedger then
    match ndSubmit t l false c with
    | none => { chip := (c.setFld F.TLK_LDG_CMD_REJ 3).tlkEvt 6, rc := 0x21, tick := c.now }
    | some (c1, adj) =>
      { chip := c1, rc := if adj then 1 else 0
        tick := if l.isEmpty then c.now else c1.reg64 Reg.TLK_LDG_STAMP_LO Reg.TLK_LDG_STAMP_HI }
  else
    let (c1, ok) := ndDirect l c
    { chip := c1, rc := if ok then 0 else 0x12, tick := c.now }

/-- A word for a register. -/
def ndW (v : Nat) : Word := BitVec.ofNat 32 v

/-- The two words of a 64-bit tick. -/
def tickWords (t : Nat) : List Word := [ndW t, ndW (t / 2 ^ 32)]

/-- Reads made by the CP over the bus, in order, up to the first that ends in a bus error: the words, and whether all
were read. -/
def ndReads : List Nat → Chip → List Word × Chip × Bool
  | [], c => ([], c, true)
  | a :: l, c =>
    let (w, c1, err) := c.busRead mCp a 4
    if err then ([], c1, false)
    else
      let (ws, c2, ok) := ndReads l c1
      (w :: ws, c2, ok)

/-- The partner commands: a leader also sends the request to its partner, and acknowledges after the partner (R371). A
failed command is not sent. -/
def ndPartner (q : NdReq) (r : NdRes) : NdRes :=
  let c := r.chip
  if c.tandem && c.leader && c.linkUp && q.mb != 14 && r.task.isNone && decide (r.rc ≤ 1) then
    { r with task := some { q := q, kind := .partner, defer := false, args := [r.rc], words := r.reply.getD [] } }
  else r

/-! ### Routes of a set of channels (R373, R378) -/

/-- Entries of the route table in use whose source or sink `p` holds for, with their gains. -/
def ndRoutes (c : Chip) (p : Nat → Bool) : List (Nat × Word) :=
  ((List.range 4096).filter fun k => c.reg (Reg.RT_GAIN k) != 0 &&
    (p (c.fld (F.RT_EP_SRC k)) || p (c.fld (F.RT_EP_SINK k)))).map fun k => (k, c.reg (Reg.RT_GAIN k))

/-- The writes that commit the gains `l` with a linear fade of `n` ticks (256 written as 0), at tick `at_` or at once. -/
def ndFadeTo (l : List (Nat × Word)) (n : Nat) (at_ : Option Nat) : List (Nat × Word) :=
  let mode := match at_ with | some _ => 2 ^ 29 | none => 0
  l.map (fun x => (Reg.RT_GAIN x.1, x.2)) ++
    (match at_ with
      | some t => [(Reg.RTR_AT_LO, ndW t), (Reg.RTR_AT_HI, ndW (t / 2 ^ 32))]
      | none => []) ++
    [(Reg.RTR_COMMIT, ndW (2 ^ 31 + mode + n % 256))]

/-- No commit is pending and no fade runs. -/
def ndSettled (c : Chip) : Bool := !c.bit F.RTR_COMMIT_PENDING && !c.bit F.RTR_STATUS_FADING

/-- Code `x` is a channel of a logical engine of `mask` (R250). -/
def engOf (mask x : Nat) : Bool := decide (256 ≤ x) && decide (x < 896) && bitAt mask ((x - 256) / 64)

end Chip

end Sys2Proof.Machine
end

