-- ==== Sys2Proof/Machine/NdoCmd.lean ====
section
/-! DEFINITION. The commands of the CP firmware (spec/16): what each does when its checks have passed. -/

namespace Sys2Proof.Machine

/-- A field of word `k` of a request. -/
def NdReq.f (q : NdReq) (k hi lo : Nat) : Nat := bits (q.w k) hi lo
/-- A 64-bit tick in words `k` and `k + 1`. -/
def NdReq.at64 (q : NdReq) (k : Nat) : Nat := q.w k + q.w (k + 1) * 2 ^ 32

/-- An occurrence of event `e` at STC `t` joins those of a subscription (R384). -/
def NdSub.count (s : NdSub) (e t : Nat) : NdSub :=
  if !s.mask.getLsbD e then s
  else
    let old := s.counts.find? (·.1 == e)
    { s with counts := (s.counts.filter (·.1 != e)) ++ [match old with
      | some (_, n, first) => (e, min (n + 1) 65535, first)
      | none => (e, 1, t)] }

namespace Chip

/-! ### Session commands -/

/-- HELLO (R368): it serves the opcodes that R371 does not list as well, which `ndVerdict` refuses. -/
def ndHello (q : NdReq) (c : Chip) : NdRes :=
  let l := q.body
  if q.len < 1 ∨ 4 < q.len then .refuse c 0x11
  else if l.any fun w => bits w.toNat 31 16 != 0 then .refuse c 0x12
  else
    let keep := c.ndo.vers.filter (·.1 != q.sender)
    match l.find? fun w => bits w.toNat 15 8 == 2 with
    | none => .refuse (c.modNdo fun n => { n with vers := keep }) 0x13
    | some w =>
      let minor := min (bits w.toNat 7 0) 3
      let c1 := c.modNdo fun n => { n with vers := keep ++ [(q.sender, minor, q.epoch)] }
      { chip := c1, rc := 0
        reply := some [ndW (0x200 + minor), ndW (c.ndo.caps % 2 ^ 16), c.reg Reg.SEC_IMG_BUILD, c.reg Reg.READY] }

/-- The header of HELLO's reply carries the chosen minor; every other reply the request's. -/
def ndHelloHead (q : NdReq) (c : Chip) : Word :=
  ndW ((c.ndMinor q.sender).getD q.minor * 2 ^ 24 + q.head.toNat % 2 ^ 24)

/-- READY_QUERY. Which functions other than external memory have failed to start is the firmware's: a free value. -/
def ndReady (q : NdReq) (c : Chip) : NdRes :=
  if q.len ≠ 0 then .refuse c 0x11
  else
    let (w, c1) := c.draw
    let ready := (c.reg Reg.READY).toNat
    let ddr := if c.bit F.DDR_STATUS_TRAIN_FAIL && !bitAt ready 7 then 0x80 else 0
    let failed := maskOff (w.toNat &&& 0x17F) ready + ddr
    let slot := c.fld F.SEC_BOOT_STATUS_SLOT
    let other := c.reg64 Reg.FUSE_SLOT Reg.FUSE_SLOT
    let ofs := fun k => if c.bit F.FUSE_STATE_SLOT_SET then bits other (16 * k + 15) (16 * k) * 65536
      else if k = 0 then 0x10000 else 0x910000
    let pend := c.flashWord (ofs 0) == 0xFFFFFF00 || c.flashWord (ofs 1) == 0xFFFFFF00
    let (lo, c2) := c1.readStcLo mCp
    { chip := c2, rc := 0
      reply := some [c.reg Reg.READY, ndW failed, c.reg Reg.SEC_IMG_VERSION, c.reg Reg.SEC_IMG_SEQ,
        ndW (slot * 2 ^ 31 + pend.toNat * 2 ^ 30 + c.fld F.FUSE_STATE_ARB), lo, c2.readStcHi mCp] }

/-! ### Programs and parameters -/

/-- Load buffer `b`. -/
def ndBuf (c : Chip) (b : Nat) : List Word × Option (List ArsicEng) :=
  ((c.ndo.bufs.find? (·.1 == b)).map (·.2)).getD ([], none)

/-- Put it. -/
def setNdBuf (c : Chip) (b : Nat) (x : List Word × Option (List ArsicEng)) : Chip :=
  c.modNdo fun n => { n with bufs := (b, x.1, x.2) :: n.bufs.filter (·.1 != b) }

/-- Logical engines of an image, as a mask. -/
def imgMask (l : List ArsicEng) : Nat := l.foldl (fun m e => withBit m (e.eng % 10)) 0

/-- PROGRAM_LOAD (R372); `img` is what the check on LAST finds. -/
def ndLoad (img : Option (List ArsicEng)) (q : NdReq) (c : Chip) : NdRes :=
  let b := q.f 1 29 28
  let wofs := q.f 1 18 0
  let had := if bitAt (q.w 1) 31 then [] else (c.ndBuf b).1
  if q.len < 2 then .refuse c 0x11
  else if q.f 1 27 19 ≠ 0 ∨ (bitAt (q.w 1) 31 ∧ wofs ≠ 0) then .refuse c 0x12
  else if c.ndHeld [.buf b] then .refuse c 0x21
  else if wofs ≠ had.length ∨ 0x80000 < wofs + (q.len - 1) then .refuse (c.setNdBuf b ([], none)) 0x12
  else
    let ws := had ++ q.body.drop 1
    if !bitAt (q.w 1) 30 then .ok (c.setNdBuf b (ws, none))
    else match img with
      | none => { chip := c.setNdBuf b ([], none), rc := 0x36 }
      | some l => { chip := c.setNdBuf b (ws, some l), rc := 0, reply := some [ndW ws.length, ndW (imgMask l)] }

/-- PROGRAM_INSTALL (R373). -/
def ndInstall (q : NdReq) (c : Chip) : NdRes :=
  let b := q.f 1 29 28
  let mask := q.f 1 25 16
  let l := (List.range 10).filter (bitAt mask)
  if q.len ≠ 1 then .refuse c 0x11
  else if q.w 1 &&& 0xCC00FF00 ≠ 0 then .refuse c 0x12
  else if maskOff mask (imgMask ((c.ndBuf b).2.getD [])) ≠ 0 then .refuse c 0x12
  else if c.ndHeld (l.map .eng) then .refuse c 0x21
  else
    { chip := c, rc := 2
      task := some { q := q, kind := .install, args := [b, mask, q.f 1 7 0], holds := .buf b :: l.map .eng } }

/-- Bus address of word `w` of a coefficient role of logical engine `l`. -/
def roleAddr (c : Chip) (l : Nat) (front : Bool) (w : Nat) : Nat :=
  engBase (c.phys l) + (if front then 0x100000 else 0x120000) + 4 * w

/-- PARAM_WRITE (R374). -/
def ndParam (q : NdReq) (c : Chip) : NdRes :=
  let l := q.f 1 31 28
  let front := bitAt (q.w 1) 27
  let ix := q.f 1 14 0
  if q.len < 2 then .refuse c 0x11
  else if q.f 1 26 15 ≠ 0 ∨ 9 < l ∨ 32768 < ix + (q.len - 1) then .refuse c 0x12
  else if c.ndHeld [.eng l] then .refuse c 0x21
  else if front && c.locked73 (c.phys l) then .refuse c 0x25
  else if !front && c.armedNames l 4 then .refuse c 0x24
  else
    let w := c.ndWrite 0 ((q.body.drop 1).zipIdx.map fun x => (c.roleAddr l front (ix + x.2), x.1))
    if w.rc = 0x21 then .refuse w.chip 0x21 else { chip := w.chip, rc := w.rc }

/-- A swap slot is free: not armed, and no entry that is to arm it waits in the ledger. -/
def slotFree (c : Chip) (k : Nat) : Bool :=
  !c.bit (F.SWAP_CTRL_ARMED k) && !c.tlk.entries.any (·.addr == Reg.SWAP_CTRL k)

/-- SWAP_ARM (R375). -/
def ndSwapArm (q : NdReq) (c : Chip) : NdRes :=
  let v := q.w 1
  let mask := q.f 1 9 0
  let imm := bitAt v 31
  let names := fun (p : Nat → Bool) => (List.range 10).any fun l => bitAt mask l && p l
  if q.len ≠ 3 then .refuse c 0x11
  else if v &&& 0x0C00FC00 ≠ 0 ∨ (bitAt v 29 ∧ q.minor < 1) ∨ mask = 0 then .refuse c 0x12
  else if c.ndHeld (((List.range 10).filter (bitAt mask)).map .eng) then .refuse c 0x21
  else
    match (List.range 4).find? c.slotFree with
    | none => .refuse c 0x22
    | some k =>
      if names fun l => c.armedNames l 4 then .refuse c 0x23
      else if names fun l => c.fbit F.PAN_STATUS_CF_BUSY l then .refuse c 0x21
      else
        let t := q.at64 2
        let w := c.ndWrite (if imm then 0 else t)
          [(Reg.SWAP_AT_LO k, ndW t), (Reg.SWAP_AT_HI k, ndW (t / 2 ^ 32)),
           (Reg.SWAP_CTRL k, ndW (2 ^ 31 + (if imm then 2 ^ 29 else 0) +
             (if bitAt v 30 then 2 ^ 28 else 0) + mask))]
        if w.rc = 0x21 ∨ w.rc = 0x12 then .refuse w.chip w.rc
        else
          let late := !imm && decide (t ≤ c.now)
          let first := if c.ndLedger then w.tick else c.now + 1
          let at_ := if imm || late then first else max t (if c.ndLedger then w.tick else 0)
          let reply := ndW k :: tickWords at_
          if bitAt v 29 then
            { chip := w.chip, rc := 2, reply := some reply
              task := some { q := q, kind := .swapWait, args := [k, at_], words := tickWords at_ } }
          else { chip := w.chip, rc := if late ∨ w.rc = 1 then 1 else 0, reply := some reply }

/-- SWAP_ARM with DISARM (R375). -/
def ndSwapDisarm (q : NdReq) (c : Chip) : NdRes :=
  let k := q.f 1 25 24
  if q.len ≠ 3 then .refuse c 0x11
  else if q.w 1 &&& 0x0C00FC00 ≠ 0 then .refuse c 0x12
  else if !c.bit (F.SWAP_CTRL_ARMED k) then .refuse c 0x25
  else
    let w := c.ndWrite 0 [(Reg.SWAP_CTRL k, ndW (2 ^ 30))]
    if w.rc = 0x21 then .refuse w.chip 0x21 else { chip := w.chip, rc := w.rc }

/-- GLIDE_SET's groups in order, up to the first that fails (R376): groups applied, the code, whether an entry was
restamped. -/
def ndGlides : List (Nat × Word × Word × Word) → Nat → Bool → Chip → Nat × Nat × Bool × Chip
  | [], n, adj, c => (n, 0, adj, c)
  | (ch, ctrl, target, rate) :: l, n, adj, c =>
    let v := ctrl.toNat % 2 ^ 31
    if bitAt v 22 && !c.bit (F.SWAP_CTRL_ARMED (bits v 21 20)) then (n, 0x25, adj, c)
    else
      let why := if c.ndLedger then 0 else c.goReject ch ⟨ndW v, target, rate, false, false⟩
      let w := c.ndWrite 0 [(Reg.GLD_CTRL ch, ndW v), (Reg.GLD_TARGET ch, target), (Reg.GLD_RATE ch, rate),
        (Reg.GLD_CTRL ch, ndW (2 ^ 31 + v))]
      if w.rc = 0x21 ∨ w.rc = 0x12 then (n, w.rc, adj, w.chip)
      else if why ≠ 0 then (n, if why = 3 then 0x12 else 0x23, adj, w.chip)
      else ndGlides l (n + 1) (adj || w.rc == 1) w.chip

/-- GLIDE_SET (R376). -/
def ndGlide (q : NdReq) (c : Chip) : NdRes :=
  if q.len ≠ 4 ∧ q.len ≠ 8 ∧ q.len ≠ 12 then .refuse c 0x11
  else
    let groups := (List.range (q.len / 4)).map fun g =>
      (q.w (4 * g + 1), ndW (q.w (4 * g + 2)), ndW (q.w (4 * g + 3)), ndW (q.w (4 * g + 4)))
    if groups.any fun g => decide (1023 < g.1) then .refuse c 0x12
    else
      let (n, rc, adj, c1) := ndGlides groups 0 false c
      { chip := c1, rc := if rc ≠ 0 then rc else if adj then 1 else 0, reply := some [ndW n] }

/-- An entry of the route table is in use: it has a staged gain, or a gain in force. -/
def routeUsed (c : Chip) (k : Nat) : Bool :=
  let g := c.route k
  c.reg (Reg.RT_GAIN k) != 0 || g.cur != 0 || g.tgt != 0

/-- The entries of the route table (R249): their number, which no reduction of a term but the kernel's counts up to. -/
@[irreducible] def routeSlots : Nat := 4096

/-- The entry that holds a route already, if one does. -/
def routeOf (c : Chip) (ep : Nat) : Option Nat :=
  (List.range routeSlots).find? fun k => c.routeUsed k && (c.reg (Reg.RT_EP k)).toNat == ep

/-- The staged routes of a sender get their entries (R377), in order: the writes, and the entries left free. None where
too few are free. -/
def ndPlace (c : Chip) : List (Nat × Nat × Word) → List Nat → List (Nat × Word) → Option (List (Nat × Word) × List Nat)
  | [], free, ws => some (ws, free)
  | (src, sink, g) :: l, free, ws =>
    let ep := src * 2 ^ 16 + sink
    match c.routeOf ep with
    | some k => ndPlace c l free (ws ++ [(Reg.RT_GAIN k, g)])
    | none =>
      match free with
      | [] => none
      | k :: rest => ndPlace c l rest (ws ++ [(Reg.RT_EP k, ndW ep), (Reg.RT_GAIN k, g)])

/-- ROUTE_SET (R377). -/
def ndRoute (q : NdReq) (c : Chip) : NdRes :=
  let v := q.w 1
  let at_ := bitAt v 29
  let first := if at_ then 4 else 2
  let n := q.len + 1 - first
  if q.len = 0 ∨ q.len + 1 < first ∨ n % 2 ≠ 0 then .refuse c 0x11
  else
    let routes := (List.range (n / 2)).map fun i => (q.w (first + 2 * i), q.w (first + 2 * i + 1))
    if v &&& 0x1FFFFF00 ≠ 0 ∨ (at_ ∧ q.minor < 2) then .refuse c 0x12
    else if routes.any fun r => r.1 &&& 0xF800F800 != 0 || decide (2 ^ 24 ≤ r.2) then .refuse c 0x12
    else
      let stage := routes.foldl (fun l r =>
        let s := r.1 / 2 ^ 16
        let k := r.1 % 2 ^ 11
        l.filter (fun x => !(x.1 == q.sender && x.2.1 == s && x.2.2.1 == k)) ++ [(q.sender, s, k, ndW r.2)]) c.ndo.staged
      let c1 := c.modNdo fun n => { n with staged := stage }
      if !bitAt v 31 then .ok c1
      else if c.bit F.RTR_COMMIT_PENDING then .refuse c1 0x21
      else
        let mine := (stage.filter (·.1 == q.sender)).map (·.2)
        let free := (List.range 4096).filter fun k => !c.routeUsed k
        match c1.ndPlace mine free [] with
        | none => .refuse c1 0x22
        | some (ws, left) =>
          let t := q.at64 2
          let law := if bitAt v 30 then 2 ^ 28 else 0
          let direct := !c.ndLedger && at_
          let w := c1.ndWrite (if at_ then t else 0) (ws ++
            (if direct then [(Reg.RTR_AT_LO, ndW t), (Reg.RTR_AT_HI, ndW (t / 2 ^ 32))] else []) ++
            [(Reg.RTR_COMMIT, ndW (2 ^ 31 + (if direct then 2 ^ 29 else 0) + law + q.f 1 7 0))])
          if w.rc = 0x21 then .refuse c1 0x21
          else
            let late := at_ && decide (t ≤ c.now)
            let tick := if c.ndLedger then w.tick else if at_ && !late then t else c.now + 1
            { chip := w.chip.modNdo fun n => { n with staged := n.staged.filter (·.1 != q.sender) }
              rc := if late && w.rc == 0 then 1 else w.rc
              reply := some (ndW left.length :: tickWords tick) }

/-! ### Ports, clocks, sensing and actuators -/

/-- Bits of SAP_CTRL that R242 freezes while EN is 1: all but EN, RESTART, SUBST and RAMP. -/
def sapFrozen : Nat := 0x3FB80000

/-- The writes of a PORT_CONFIG that configure its port (R378), in order. -/
def ndPortWrites (q : NdReq) : List (Nat × Word) :=
  let i := q.f 1 5 0
  match q.f 1 31 28 with
  | 0 => [(Reg.SAP_FMT i, ndW (q.w 3)), (Reg.SAP_TXSLOT i, ndW (q.w 4)), (Reg.SAP_CTRL i, ndW (q.w 2))]
  | 1 => [(Reg.ASRC_GCTRL i, ndW (q.w 2))]
  | 2 => [(Reg.ASRC_CH i, ndW (q.w 2))]
  | _ => [(Reg.MCLK_CTRL i, ndW (q.w 2))]

/-- The channels a PORT_CONFIG fades around a change of frozen fields. -/
def ndPortCodes (c : Chip) (q : NdReq) (x : Nat) : Bool :=
  let i := q.f 1 5 0
  let chan := fun ch => x == 928 + ch ||
    (c.bit (F.ASRC_CH_DIR ch) && x == 32 * c.fld (F.ASRC_GCTRL_PORT (c.fld (F.ASRC_CH_GROUP ch))) + c.fld (F.ASRC_CH_SLOT ch))
  match q.f 1 31 28 with
  | 0 => x / 32 == i && decide (x < 256)
  | 1 => (List.range 64).any fun ch => c.fld (F.ASRC_CH_GROUP ch) == i && chan ch
  | _ => chan i

/-- It changes fields that its running port has frozen (R242, R245). -/
def ndPortFrozen (c : Chip) (q : NdReq) : Bool :=
  let i := q.f 1 5 0
  match q.f 1 31 28 with
  | 0 => c.bit (F.SAP_CTRL_EN i) &&
      ((c.reg (Reg.SAP_CTRL i)).toNat &&& sapFrozen != q.w 2 &&& sapFrozen || (c.reg (Reg.SAP_FMT i)).toNat != q.w 3 &&& 0xFFFF0000)
  | 1 => c.bit (F.ASRC_GCTRL_EN i) && c.fld (F.ASRC_GCTRL_PORT i) != bits (q.w 2) 26 24
  | 2 => c.bit (F.ASRC_CH_EN i) && (c.reg (Reg.ASRC_CH i)).toNat &&& 0x4300001F != q.w 2 &&& 0x4300001F
  | _ => false

/-- The return code that the port's status gives after the writes: FORMAT, CONFLICT or none (R378). -/
def ndPortCode (c : Chip) (q : NdReq) : Nat :=
  let i := q.f 1 5 0
  match q.f 1 31 28 with
  | 0 => if bitAt (q.w 2) 31 && c.bit (F.SAP_STATUS_FMT_ERR i) then 0x40 else 0
  | 1 => if bitAt (q.w 2) 31 && c.bit (F.ASRC_GSTATUS_CONFLICT i) then 0x23 else 0
  | _ => 0

/-- What a PORT_CONFIG holds or must find free. -/
def ndPortHold (q : NdReq) : NdHold :=
  let i := q.f 1 5 0
  match q.f 1 31 28 with
  | 0 => .port i
  | 1 => .group i
  | 2 => .chan i
  | _ => .mclk i

/-- PORT_CONFIG (R378). -/
def ndPort (q : NdReq) (c : Chip) : NdRes :=
  let kind := q.f 1 31 28
  let i := q.f 1 5 0
  let next := bitAt (q.w 1) 27
  let top := match kind with | 0 => 8 | 1 => 4 | 2 => 64 | _ => 4
  if 3 < kind then .refuse c 0x12
  else if q.len ≠ (if kind = 0 then 4 else 2) then .refuse c 0x11
  else if q.f 1 26 6 ≠ 0 ∨ (next ∧ kind ≠ 0) ∨ top ≤ i then .refuse c 0x12
  else if c.ndHeld [ndPortHold q] then .refuse c 0x21
  else if next then
    let (c1, ok) := ndDirect [(Reg.SAP_FMT_NEXT i, ndW (q.w 3))] c
    ndPartner q { chip := c1, rc := if ok then 0 else 0x12 }
  else if c.ndPortFrozen q then
    { chip := c, rc := 0, task := some { q := q, kind := .port, defer := false, holds := [ndPortHold q] } }
  else
    let clear := match kind with
      | 0 => c.setFld (F.SAP_STATUS_FMT_ERR i) 0
      | 1 => c.setFld (F.ASRC_GSTATUS_CONFLICT i) 0
      | _ => c
    let (c1, ok) := ndDirect (ndPortWrites q) clear
    ndPartner q { chip := c1, rc := if ok then c1.ndPortCode q else 0x12 }

/-- The engines, by logical number, whose installed length exceeds budget `b` (R379). -/
def overBudget (c : Chip) (b : Nat) : List Nat :=
  (List.range 10).filter fun l => c.locked73 (c.phys l) && decide (b < c.plen (c.phys l))

/-- The writes of the tracking part: TRK_CTRL and TRK_PHASE where they differ; SNAP acts as written (R379). -/
def ndTrack (c : Chip) (q : NdReq) : List (Nat × Word) :=
  let v := q.w 1
  (if maskOff v (2 ^ 23) != (c.reg Reg.TRK_CTRL).toNat || bitAt v 23 then [(Reg.TRK_CTRL, ndW v)] else []) ++
    (if q.w 2 &&& 0x7FFFF != (c.reg Reg.TRK_PHASE).toNat then [(Reg.TRK_PHASE, ndW (q.w 2))] else [])

/-- CLOCK_CONFIG (R379). With FORCE the change comes no earlier than a fade of 64 ticks allows. -/
def ndClock (q : NdReq) (c : Chip) : NdRes :=
  let v := q.w 3
  let at_ := bitAt v 7
  let rateChg := bitAt v 3
  let eclkChg := bitAt v 6
  if q.len ≠ (if at_ then 5 else 3) then .refuse c 0x11
  else if 2 ^ 9 ≤ v then .refuse c 0x12
  else if (rateChg && c.bit F.TICK_CADENCE_PENDING) || (eclkChg && c.bit F.CLK_ECLK_PENDING) then .refuse c 0x21
  else
    let b := budgetOf (if rateChg then bits v 2 0 else c.rate) (if eclkChg then bits v 5 4 else c.eclkDiv)
    let beyond := if rateChg || eclkChg then c.overBudget b else []
    if !beyond.isEmpty && !bitAt v 8 then { chip := c, rc := 0x25, reply := some [ndW (beyond.headD 0)], ran := false }
    else
      let (c1, ok1) := ndDirect (c.ndTrack q) c
      let want := if at_ then q.at64 4 else 0
      let fades := !beyond.isEmpty
      let late := at_ && decide (want ≤ c.now)
      let t := if fades then max want (c.now + 65) else if at_ && !late then want else c.now + 1
      let timed := at_ && !late || fades
      let atLo := fun lo hi => if timed then [(lo, ndW t), (hi, ndW (t / 2 ^ 32))] else []
      let mode := if timed then 2 ^ 30 else 0
      let routes := c1.ndRoutes (engOf (beyond.foldl withBit 0))
      let fade := if fades then c1.ndWrite (t - 64)
        (ndFadeTo (routes.map fun r => (r.1, 0)) 64 (if c.ndLedger then none else some (t - 64))) else { chip := c1, rc := 0, tick := 0 }
      let rate := if rateChg then fade.chip.ndWrite (if at_ || fades then t else 0)
        (atLo Reg.TICK_CHANGE_AT_LO Reg.TICK_CHANGE_AT_HI ++ [(Reg.TICK_CADENCE, ndW (2 ^ 29 + mode + bits v 2 0))])
        else { chip := fade.chip, rc := 0, tick := 0 }
      if fade.rc = 0x21 ∨ rate.rc = 0x21 then .refuse c 0x21
      else
        let (c3, ok3) := ndDirect (if eclkChg then
          atLo Reg.CLK_ECLK_AT_LO Reg.CLK_ECLK_AT_HI ++ [(Reg.CLK_ECLK, ndW (2 ^ 29 + mode + bits v 5 4))] else []) rate.chip
        let bad := !ok1 || !ok3 || fade.rc == 0x12 || rate.rc == 0x12
        let tick := if c.ndLedger && rateChg && !timed then rate.tick else t
        let r : NdRes := { chip := c3, reply := some (tickWords tick)
                           rc := if bad then 0x12 else if (at_ && t != want) || rate.rc == 1 || fade.rc == 1 then 1 else 0 }
        if eclkChg then ndPartner q r else r

/-- The point and table writes of a SENSE_CONFIG. -/
def ndPoints (q : NdReq) : List (Nat × Word) :=
  let p := q.f 1 7 0
  if bitAt (q.w 1) 27 then
    let o := if bitAt (q.w 1) 26 then 9 else 0
    (q.body.drop 1).zipIdx.map fun x => (Reg.SENSE_LIN p (o + x.2), x.1)
  else if bitAt (q.w 1) 28 then []
  else
    (List.range (q.f 1 15 8)).flatMap fun i =>
      [(Reg.SENSE_PT_CFG (p + i), ndW (q.w (3 * i + 2))), (Reg.SENSE_PT_CAL (p + i), ndW (q.w (3 * i + 3))),
       (Reg.SENSE_PT_THR (p + i), ndW (q.w (3 * i + 4)))]

/-- Its writes of the scan table. -/
def ndScan (q : NdReq) : List (Nat × Word) :=
  if bitAt (q.w 1) 28 then (List.range 4).map fun i => (Reg.SENSE_SCAN i, ndW (q.w (i + 2))) else []

/-- The SENSE_CTRL value it asks for, with EN as `en`. -/
def ndSenseCtrl (q : NdReq) (en : Bool) : Word :=
  ndW (en.toNat * 2 ^ 31 + (bitAt (q.w 1) 29).toNat * 2 ^ 29 + q.f 1 19 16)

/-- SENSE_CONFIG (R380). -/
def ndSense (q : NdReq) (c : Chip) : NdRes :=
  let v := q.w 1
  let scan := bitAt v 28
  let lin := bitAt v 27
  let n := q.f 1 15 8
  let len := if scan then 5 else if lin then (if bitAt v 26 then 9 else 10) else 1 + 3 * n
  if q.f 1 25 20 ≠ 0 ∨ (scan ∧ lin) ∨ 4 < n ∨ (!scan ∧ !lin ∧ 256 < q.f 1 7 0 + n) then .refuse c 0x12
  else if q.len ≠ len then .refuse c 0x11
  else if c.ndHeld [.sense] then .refuse c 0x21
  else
    let running := c.bit F.SENSE_STATUS_RUNNING
    let changes := c.fld F.SENSE_CTRL_ORDER != (bitAt v 29).toNat || c.fld F.SENSE_CTRL_AUX_EN != q.f 1 19 16 ||
      (ndScan q).any fun x => c.reg x.1 != x.2
    let (c1, ok) := ndDirect (ndPoints q) c
    if !ok then { chip := c1, rc := 0x12 }
    else if bitAt v 30 then { chip := c1, rc := 2, task := some { q := q, kind := .cal, holds := [.sense] } }
    else if running && changes then
      { chip := c1, rc := 0, task := some { q := q, kind := .sense, defer := false, holds := [.sense] } }
    else
      let (c2, ok2) := ndDirect (ndScan q ++ [(Reg.SENSE_CTRL, ndSenseCtrl q (bitAt v 31))]) c1
      ndPartner q { chip := c2, rc := if ok2 then 0 else 0x12 }

/-- The writes of an ACT_CONFIG with images: a channel that is to run is enabled after its settings, one that is to stop
before them. -/
def ndActWrites (q : NdReq) : List (Nat × Word) :=
  let k := q.f 1 4 0
  let ctrl := [(Reg.ACT_CTRL k, ndW (q.w 2))]
  let rest := [(Reg.ACT_PER k, ndW (q.w 3)), (Reg.ACT_LIM k, ndW (q.w 4)), (Reg.ACT_EMAX k, ndW (q.w 5)),
    (Reg.ACT_CS k, ndW (q.w 6)), (Reg.ACT_VAL k, ndW (q.w 7))]
  (if bitAt (q.w 1) 30 then [(Reg.ACT_STATUS, ndW (2 ^ 31))] else []) ++
    (if q.len = 1 then [] else if bitAt (q.w 2) 31 then rest ++ ctrl else ctrl ++ rest) ++
    (if bitAt (q.w 1) 31 then [(Reg.ACT_TRIP, ndW (2 ^ k))] else [])

/-- ACT_CONFIG (R381), with CLEAR_TRIP or without. What the block will hold once the writes apply is what they make of it
now. -/
def ndAct (q : NdReq) (c : Chip) : NdRes :=
  let k := q.f 1 4 0
  if q.len ≠ 1 ∧ q.len ≠ 7 then .refuse c 0x11
  else if q.f 1 29 5 ≠ 0 then .refuse c 0x12
  else
    let after := (ndActWrites q).foldl (fun c x => (c.regPut mCp x.1 x.2).1) c
    let w := c.ndWrite 0 (ndActWrites q)
    let lim := after.reg (Reg.ACT_LIM k)
    let emax := after.reg (Reg.ACT_EMAX k)
    let cs := after.reg (Reg.ACT_CS k)
    let capped := q.len == 7 && (lim != ndW (q.w 4) || emax.toNat != q.w 5 % 2 ^ 24 || cs.toNat % 2 ^ 16 != q.w 6 % 2 ^ 16)
    let held := bitAt (q.w 1) 31 && after.fbit F.ACT_TRIP_TRIP k
    let rc := if w.rc = 0x12 ∨ w.rc = 0x21 then w.rc else if held then 0x25 else if capped ∨ w.rc = 1 then 1 else 0
    if w.rc = 0x21 then .refuse w.chip 0x21
    else { chip := w.chip, rc := rc, reply := some [lim, emax, cs, after.reg Reg.ACT_TRIP] }

/-- One meter point as METER_READ returns it; the read clears PEAK and OVER (R382). -/
def ndMeter (ms : Bool) (p : Nat) (c : Chip) : List Word × Chip :=
  let w := (c.fbit (F.SIL_STATE_STATE (p / 32)) (p % 32)).toNat * 2 ^ 31 +
    (c.fbit (F.MTR_OVER_OVER (p / 32)) (p % 32)).toNat * 2 ^ 30 + c.fld (F.MTR_PEAK_PEAK p)
  (ndW w :: (if ms then [c.reg (Reg.MTR_MS p)] else []), (c.regTake mCp (Reg.MTR_PEAK p)).2.clrFbit (F.MTR_OVER_OVER (p / 32)) (p % 32))

/-- Points in order. -/
def ndMeters (ms : Bool) : List Nat → List Word → Chip → List Word × Chip
  | [], ws, c => (ws, c)
  | p :: l, ws, c => let (w, c1) := ndMeter ms p c; ndMeters ms l (ws ++ w) c1

/-- METER_READ (R382). -/
def ndMeterRead (q : NdReq) (c : Chip) : NdRes :=
  let v := q.w 1
  let ms := bitAt v 31
  let cfg := bitAt v 30
  let n := q.f 1 15 8
  let p := q.f 1 7 0
  if q.len = 0 ∨ (!cfg ∧ q.len ≠ 1) then .refuse c 0x11
  else if q.f 1 29 16 ≠ 0 ∨ (ms ∧ q.minor < 3) ∨ n = 0 ∨ (if ms || cfg then 7 else 15) < n ∨ 256 < p + n then .refuse c 0x12
  else if cfg then
    if q.len ≠ 1 + 2 * n then .refuse c 0x11
    else
      let (c1, ok) := ndDirect ((List.range n).flatMap fun i =>
        [(Reg.MTR_CFG (p + i), ndW (q.w (2 * i + 2))), (Reg.MTR_THR (p + i), ndW (q.w (2 * i + 3)))]) c
      { chip := c1, rc := if ok then 0 else 0x12 }
  else if !c.domOn 12 then { chip := c, rc := 0x12 }
  else
    let (ws, c1) := ndMeters ms ((List.range n).map (p + ·)) [] c
    { chip := c1, rc := 0, reply := some ws }

/-! ### Events and notifications -/

/-- Events that cannot be subscribed (R383). -/
def subMask : Nat := (2 ^ 128 - 2 ^ 32) - (2 ^ 116 + 2 ^ 117 + 2 ^ 118)

/-- EVENT_SUBSCRIBE (R383). -/
def ndSubscribe (q : NdReq) (c : Chip) : NdRes :=
  if q.len ≠ 5 then .refuse c 0x11
  else if 1 < q.w 5 then .refuse c 0x12
  else
    let m := (q.w 1 + q.w 2 * 2 ^ 32 + q.w 3 * 2 ^ 64 + q.w 4 * 2 ^ 96) &&& subMask
    let c1 := if q.w 5 = 0 then c
      else ((List.range 128).filter (bitAt m)).foldl (fun c e => c.setFld (F.EVT_CFG_HOST e) 1) c
    let sub : NdSub := { sender := q.sender, mb := q.mb, minor := (c.ndMinor q.sender).getD 0, mask := BitVec.ofNat 128 m }
    { chip := c1.modNdo fun n => { n with subs := n.subs.filter (·.sender != q.sender) ++ [sub] }, rc := 0
      reply := some ((List.range 4).map fun i => ndW (m / 2 ^ (32 * i))) }

/-- Status registers that R327 names for event `e`, in its order. -/
def evtRegs (e : Nat) : List Nat :=
  if e < 32 then []
  else if e < 42 then [Reg.ENG_FLAGS (e - 32), Reg.ENG_MEM_STATUS (e - 32)]
  else if e < 52 then [Reg.REPLAY_STATUS]
  else if e = 52 then [Reg.MIG_STATUS, Reg.BIST_STATUS]
  else if e = 53 then [Reg.TICK_STATUS]
  else if e = 55 ∨ e = 56 then (List.range 4).map Reg.SWAP_CTRL
  else if e = 57 then [Reg.GLD_STATUS]
  else if 60 ≤ e ∧ e < 68 then [Reg.SAP_STATUS (e - 60)]
  else if 68 ≤ e ∧ e < 72 then [Reg.ASRC_GSTATUS (e - 68)]
  else if e = 73 then (List.range 8).map Reg.SIL_CHG
  else if e = 74 then (List.range 8).map Reg.MTR_OVER
  else if e = 75 then (List.range 8).map Reg.PROT_TRIP ++ (List.range 4).map Reg.PROT_LIMACT
  else if e = 78 ∨ e = 79 then [Reg.TRK_STATUS]
  else if e = 88 then [Reg.ACT_TRIP]
  else if e = 91 then [Reg.ACT_STATUS]
  else if e = 119 then [Reg.SEM_STATUS]
  else if e = 120 then [Reg.READY]
  else if e = 127 then [Reg.SERAI_ECC_STATUS, Reg.CPMEM_ECC_STATUS]
  else []

/-- Entries of sense FIFO `k` for a notification, at most `n`, removed from it. -/
def ndFifo : Nat → Nat → List Word → Chip → List Word × Chip
  | 0, _, ws, c => (ws, c)
  | n + 1, k, ws, c =>
    if (c.fifoOf k).isEmpty then (ws, c)
    else
      let a := c.fifoHead k
      let (b, c1) := c.fifoPop k
      ndFifo n k (ws ++ [a, b]) c1

/-- The registers of a notification; one that cannot be read ends the list. -/
def evtWords (c : Chip) (e : Nat) : List Word × Chip :=
  if e = 80 ∨ e = 81 then ndFifo 6 (e - 80) [] c
  else let (ws, c1, _) := ndReads (evtRegs e) c; (ws, c1)

/-- The notification of event `e` for subscription `s` is formed, where its reply mailbox is free and nothing waits for it
(R384). -/
def ndNotify (c : Chip) (e : Nat) (s : NdSub) : Chip :=
  match s.counts.find? (·.1 == e), replyBox s.mb with
  | some (_, n, first), some r =>
    if c.mbState r ≠ 0 ∨ c.ndo.out.any (·.mb == s.mb) then c
    else
      let seq := (((c.ndo.seqs.find? (·.1 == s.mb)).map (·.2)).getD 0 + 1) % 256
      let (ws, c1) := c.evtWords e
      let c2 := c1.modNdo fun d =>
        { d with seqs := (s.mb, seq) :: d.seqs.filter (·.1 != s.mb)
                 subs := d.subs.map fun x => if x.sender = s.sender then { x with counts := x.counts.filter (·.1 != e) } else x }
      c2.postReply r mCp (ndW (s.minor * 2 ^ 24 + seq * 2 ^ 16)) 0xFFF ([ndW (e + n * 2 ^ 16)] ++ tickWords first ++ ws)
  | _, _ => c

/-- NOTIFICATION: the firmware handles event `e` (R384). -/
def ndEvent (c : Chip) (e : Nat) : Chip :=
  let c1 := c.ndSweep
  if c1.recovery || !c1.domOn 10 then c
  else
    let hit := c1.pends e && c1.ndo.subs.any (·.mask.getLsbD e)
    let c2 := c1.when hit fun c =>
      (c.clrFbit (F.EVT_PEND_PEND (e / 32)) (e % 32)).modNdo fun n => { n with subs := n.subs.map (·.count e c.now) }
    c2.ndo.subs.foldl (fun c s => c.ndNotify e s) c2

/-! ### Power, tandem, updates, tests -/

/-- POWER_STATE (R385). -/
def ndPower (q : NdReq) (c : Chip) : NdRes :=
  let known := fun d => decide (d ≤ 2) || (decide (0x10 ≤ d) && decide (d < 0x1A)) || (decide (0x20 ≤ d) && decide (d < 0x46))
  let engs := (q.body.map fun w => bits w.toNat 15 8).filter fun d => decide (0x10 ≤ d) && decide (d < 0x1A)
  if q.len = 0 ∨ 14 < q.len then .refuse c 0x11
  else if q.body.any fun w => w.toNat &&& 0xFFFF00FC != 0 || bits w.toNat 1 0 == 3 || !known (bits w.toNat 15 8) then .refuse c 0x12
  else
    let holds := (q.body.map fun w => NdHold.dom (bits w.toNat 15 8)) ++ engs.map fun d => .eng (c.logi (d - 0x10))
    if c.ndHeld holds then .refuse c 0x21
    else { chip := c, rc := 2, task := some { q := q, kind := .power, holds := holds } }

/-- TANDEM_PAIR (R386): the two configuration registers, then what word 3 asks for, in the order of its bits. -/
def ndPair (q : NdReq) (c : Chip) : NdRes :=
  let v := q.w 3
  if q.len ≠ 3 then .refuse c 0x11
  else if 64 ≤ v ∨ (bitAt v 3 ∧ q.minor < 1) then .refuse c 0x12
  else if bitAt v 3 && c.fld F.TLK_STATUS_MINOR == 0 then .refuse c 0x25
  else
    let starts := !c.tandem && bitAt (q.w 1) 31
    let (c1, ok) := ndDirect ([(Reg.TLK_CFG, ndW (q.w 1)), (Reg.TLK_FWD, ndW (q.w 2))] ++
      (if bitAt v 1 then [(Reg.TLK_REJOIN_CTRL, ndW (2 ^ 30 + c.fld F.TLK_REJOIN_CTRL_CLEAN))] else []) ++
      (if bitAt v 2 then [(Reg.TLK_LATCH, ndW (2 ^ 29))] else []) ++
      (if bitAt v 4 then [(Reg.TLK_LATCH, ndW (2 ^ 30))] else []) ++
      (if bitAt v 5 then [(Reg.TLK_LATCH, ndW (2 ^ 31))] else []) ++
      (if bitAt v 0 then [(Reg.TLK_REJOIN_CTRL, ndW (2 ^ 31 + c.fld F.TLK_REJOIN_CTRL_CLEAN))] else [])) c
    let mv : NdWrote := if !bitAt v 3 then { chip := c1, rc := 0, tick := 0 }
      else if c1.ndLedger then c1.ndWrite 0 [(Reg.TLK_TOKEN_MOVE, 1)] else { chip := c1, rc := 0x50, tick := 0 }
    if !ok then { chip := mv.chip, rc := 0x12 }
    else if bitAt v 0 then { chip := mv.chip, rc := 2, task := some { q := q, kind := .rejoin } }
    else if starts then { chip := mv.chip, rc := 2, task := some { q := q, kind := .pair } }
    else { chip := mv.chip, rc := mv.rc }

/-- TANDEM_STATUS (R386). -/
def ndTandemStatus (q : NdReq) (c : Chip) : NdRes :=
  if q.len ≠ 0 then .refuse c 0x11
  else
    let (ws, c1, ok) := ndReads [Reg.TLK_STATUS, Reg.TLK_EVT, Reg.TLK_LATCH, Reg.TLK_REJOIN_STATUS, Reg.TLK_DIV_CNT,
      Reg.TLK_DIV_TICK_LO, Reg.TLK_PART_INFO, Reg.TLK_PART_BUILD] c
    if ok then { chip := c1, rc := 0, reply := some ws } else { chip := c1, rc := 0x12 }

/-- Flash offset of slot `k` as the fuses give it. -/
def ndSlotAt (c : Chip) (k : Nat) : Nat :=
  if c.bit F.FUSE_STATE_SLOT_SET then bits (c.reg Reg.FUSE_SLOT).toNat (16 * k + 15) (16 * k) * 65536
  else if k = 0 then 0x10000 else 0x910000

/-- The inactive slot. -/
def ndOther (c : Chip) : Nat := 1 - c.fld F.SEC_BOOT_STATUS_SLOT

/-- Words are programmed into the image of the inactive slot. -/
def ndProgram (c : Chip) (wofs : Nat) (ws : List Word) : Chip :=
  c.program (c.ndSlotAt c.ndOther + 0x1000 + 4 * wofs) (ws.flatMap wordBytes)

/-- UPDATE_STAGE (R387); `bad`: a program operation of this message fails. -/
def ndUpdate (bad : Bool) (q : NdReq) (c : Chip) : NdRes :=
  let v := q.w 1
  let wofs := q.f 1 20 0
  let next := if bitAt v 31 then some 0 else c.ndo.upd
  if q.len = 0 then .refuse c 0x11
  else if q.f 1 29 21 ≠ 0 then .refuse c 0x12
  else if c.ndHeld [.slot] then .refuse c 0x21
  else if next ≠ some wofs then .refuse (c.modNdo fun n => { n with upd := none }) 0x12
  else
    let c1 := c.modNdo fun n => { n with upd := some (wofs + (q.len - 1)) }
    if bitAt v 31 then
      { chip := c1, rc := 2, task := some { q := q, kind := .updFirst, holds := [.slot] } }
    else if bitAt v 30 then { chip := c1, rc := 2, task := some { q := q, kind := .updLast, holds := [.slot] } }
    else { chip := c1.ndProgram wofs (q.body.drop 1), rc := if bad then 0x60 else 0 }

/-- COUNTER_ADVANCE (R388). -/
def ndCounter (q : NdReq) (c : Chip) : NdRes :=
  if q.len ≠ 2 then .refuse c 0x11
  else if q.w 1 ≠ 0x41445643 ∨ 255 < q.w 2 then .refuse c 0x12
  else if !c.bit F.SEC_BOOT_STATUS_COMMITTED then .refuse c 0x25
  else if q.w 2 ≠ c.fld F.SEC_IMG_INFO_ARB then .refuse c 0x61
  else { chip := c, rc := 2, task := some { q := q, kind := .counter, args := [q.w 2], holds := [.slot] } }

/-- DIAG REG_READ. -/
def ndRegRead (q : NdReq) (c : Chip) : NdRes :=
  let n := q.f 1 15 8
  if q.f 1 7 0 ≠ 1 then .refuse c 0x12
  else if q.len ≠ 2 then .refuse c 0x11
  else if 65536 ≤ q.w 1 ∨ n = 0 ∨ 15 < n then .refuse c 0x12
  else
    let (ws, c1, ok) := ndReads ((List.range n).map fun i => q.w 2 + 4 * i) c
    if ok then { chip := c1, rc := 0, reply := some ws } else { chip := c1, rc := 0x12 }

/-- DIAG REG_WRITE. -/
def ndRegWrite (q : NdReq) (c : Chip) : NdRes :=
  let ws := (q.body.drop 2).zipIdx.map fun x => (q.w 2 + 4 * x.2, x.1)
  if q.len < 3 then .refuse c 0x11
  else if 65536 ≤ q.w 1 then .refuse c 0x12
  else if 2 ≤ c.fld F.ID_LIFECYCLE_STATE then .refuse c 0x62
  else if c.lockstep && ws.any fun x => ledgerRange x.1 then .refuse c 0x51
  else
    let (c1, ok) := ndDirect ws c
    { chip := c1, rc := if ok then 0 else 0x12 }

/-- DIAG MIGRATE. -/
def ndMigrate (q : NdReq) (c : Chip) : NdRes :=
  if q.len ≠ 2 then .refuse c 0x11
  else if 65536 ≤ q.w 1 ∨ q.w 2 &&& 0xF0F00000 ≠ 0 ∨ 9 < q.f 2 27 24 ∨ 9 < q.f 2 19 16 then .refuse c 0x12
  else
    let hold : List NdHold := [.eng (q.f 2 19 16), .eng (c.logi (q.f 2 27 24))]
    if c.ndHeld hold then .refuse c 0x21
    else
      let (c1, ok) := ndDirect [(Reg.SPARE_CFG, ndW (2 ^ 31 + q.f 2 27 24)), (Reg.MIG_STATUS, ndW 0x30000000),
        (Reg.MIG_CTRL, ndW (2 ^ 31 + q.w 2 % 2 ^ 20))] c
      if ok then { chip := c1, rc := 2, task := some { q := q, kind := .migrate, holds := hold } } else { chip := c1, rc := 0x12 }

/-- DIAG BIST. -/
def ndBist (q : NdReq) (c : Chip) : NdRes :=
  if q.len ≠ 2 then .refuse c 0x11
  else if 65536 ≤ q.w 1 ∨ bitAt (q.w 2) 31 ∨ q.f 2 28 4 ≠ 0 ∨ 9 < q.f 2 3 0 then .refuse c 0x12
  else
    let hold : List NdHold := [.eng (c.logi (q.f 2 3 0))]
    if c.ndHeld hold ∨ c.bit F.BIST_STATUS_BUSY then .refuse c 0x21
    else
      let (c1, ok) := ndDirect [(Reg.BIST_STATUS, ndW (2 ^ 30)), (Reg.BIST_CTRL, ndW (2 ^ 31 + q.w 2))] c
      if !ok then { chip := c1, rc := 0x12 }
      else if !c1.bit F.BIST_STATUS_BUSY then { chip := c1, rc := 0x25 }
      else { chip := c1, rc := 2, task := some { q := q, kind := .bist, holds := hold } }

/-- DIAG LOOP. -/
def ndLoop (q : NdReq) (c : Chip) : NdRes :=
  if q.minor < 3 then .refuse c 0x13
  else if q.len ≠ 2 then .refuse c 0x11
  else if 65536 ≤ q.w 1 ∨ q.f 2 31 19 ≠ 0 ∨ q.f 2 15 0 = 0 then .refuse c 0x12
  else
    let hold : List NdHold := [.port (q.f 2 18 16)]
    if c.ndHeld hold ∨ c.bit F.LOOP_STATUS_BUSY then .refuse c 0x21
    else
      let (c1, ok) := ndDirect [(Reg.LOOP_STATUS, ndW (2 ^ 30)), (Reg.LOOP_CTRL, ndW (2 ^ 31 + q.w 2))] c
      if !ok then { chip := c1, rc := 0x12 }
      else if !c1.bit F.LOOP_STATUS_BUSY then { chip := c1, rc := 0x25 }
      else { chip := c1, rc := 2, task := some { q := q, kind := .loop, holds := hold } }

/-- DIAG COUNTERS. -/
def ndCounters (q : NdReq) (c : Chip) : NdRes :=
  if q.len ≠ 1 then .refuse c 0x11
  else if 65536 ≤ q.w 1 then .refuse c 0x12
  else
    let (ws, c1, ok) := ndReads [Reg.REPLAY_CNT, Reg.STRM_MISS_TOTAL, Reg.STRM_SQUASH_CNT, Reg.TLK_DIV_CNT, Reg.TLK_LINK_CNT] c
    if ok then { chip := c1, rc := 0, reply := some ws } else { chip := c1, rc := 0x12 }

end Chip

end Sys2Proof.Machine
end

