-- ==== Sys2Proof/Machine/NdoTask.lean ====
section
/-! DEFINITION. How the CP firmware finishes the commands that take more than one step (R364): each stage of a task waits
for a condition of the block, then acts; the last one posts the completion message, or the reply and acknowledge. -/

namespace Sys2Proof.Machine

/-- What a stage of a task comes to: it waits, it goes on, or the task ends with a return code and data. -/
inductive NdNext where
  | wait
  | go (c : Chip) (t : NdTask)
  | done (c : Chip) (rc : Nat) (data : List Word)
  deriving DecidableEq, Repr

namespace Chip

/-- The next stage of a task. -/
def ndNext (c : Chip) (t : NdTask) : NdNext := .go c { t with stage := t.stage + 1 }

/-- Routes of the channels `p` are faded to 0 over `n` ticks: the next stage, which waits for the end of the fade. The
partner's part of a command leaves the routes to the leader. -/
def ndFadeOut (c : Chip) (t : NdTask) (p : Nat → Bool) (n : Nat) : NdNext :=
  if !c.ndSettled then .wait
  else if t.q.mb = 14 then c.ndNext t
  else
    let gains := c.ndRoutes p
    let w := c.ndWrite 0 (ndFadeTo (gains.map fun g => (g.1, 0)) n none)
    if w.rc = 0x21 then .wait
    else .go w.chip { t with stage := t.stage + 1, gains := gains, due := if c.ndLedger then w.tick + 1 else 0 }

/-- The fade is over. -/
def ndFaded (c : Chip) (t : NdTask) : Bool := c.ndSettled && decide (t.due ≤ c.now)

/-- The routes a task has faded return over `n` ticks. -/
def ndRestore (c : Chip) (t : NdTask) (n : Nat) : Chip :=
  if t.q.mb = 14 then c else (c.ndWrite 0 (ndFadeTo t.gains n none)).chip

/-- Tick mode of a logical engine ends, or its setup or scan stops (R71). -/
def ndStop (c : Chip) (l : Nat) : Chip :=
  let p := c.phys l
  if c.engState p = 4 ∨ c.engState p = 5 then (ndDirect [(Reg.ENG_CTRL p, 0)] c).1
  else if c.engState p = 0 ∨ c.engState p = 6 then c
  else (ndDirect [(Reg.ENG_CTRL p, 8)] c).1

/-- It has stopped. -/
def ndStopped (c : Chip) (l : Nat) : Bool := c.engState (c.phys l) == 6 || c.engState (c.phys l) == 0

/-- Logical engines of a mask. -/
def ndEngs (mask : Nat) : List Nat := (List.range 10).filter (bitAt mask)

/-- The bus writes that put an engine's part of an image into its memories and registers (R373, step 3). -/
def imgWrites (c : Chip) (e : ArsicEng) : List (Nat × Word) :=
  let p := c.phys e.eng
  e.prog.zipIdx.map (fun x => (engBase p + 4 * x.2, x.1)) ++
    [(Reg.ENG_ENC p, e.enc), (Reg.ENG_SETUP_PC p, e.setup), (Reg.ENG_TICK_ENTRY p, e.entry), (Reg.ENG_MODE p, e.mode)] ++
    e.front.zipIdx.map (fun x => (c.roleAddr e.eng true x.2, x.1)) ++
    e.pannier.zipIdx.map (fun x => (c.roleAddr e.eng false x.2, x.1)) ++
    (e.segs.zipIdx.flatMap fun s => s.1.zipIdx.map fun x => (engBase p + 0x181000 + 16 * s.2 + 4 * x.2, x.1)) ++
    [(Reg.REPLAY_CONE e.eng, e.cone)]

/-- PROGRAM_INSTALL (R373). `args` are the buffer, the mask, FADE. -/
def taskInstall (c : Chip) (t : NdTask) : NdNext :=
  let mask := t.args.getD 1 0
  let l := ndEngs mask
  let passed := fun x => c.engState (c.phys x) == 4 || (c.engState (c.phys x) == 3 && (c.auxOf (c.phys x)).passed)
  let good := (l.filter passed).foldl withBit 0
  let plens := (List.range 5).map fun i => ndW (c.plen (c.phys (2 * i)) + c.plen (c.phys (2 * i + 1)) * 65536)
  let data := ndW (good * 65536) :: plens
  match t.stage with
  | 0 => c.ndFadeOut t (engOf mask) (t.args.getD 2 0)
  | 1 => if c.ndFaded t then (l.foldl (fun c x => c.ndStop x) c).ndNext t else .wait
  | 2 =>
    if l.all c.ndStopped then
      let img := ((c.ndBuf (t.args.getD 0 0)).2.getD []).filter fun e => l.contains e.eng
      let c1 := img.foldl (fun c e => (ndDirect (c.imgWrites e) c).1) c
      (l.foldl (fun c x => (ndDirect [(Reg.ENG_CTRL (c.phys x), 5)] c).1) c1).ndNext t
    else .wait
  | _ =>
    match l.find? fun x => (c.engState (c.phys x) == 2 && !c.bit (F.ENG_CTRL_TICK_EN (c.phys x))) || c.engState (c.phys x) == 6 with
    | some x =>
      let why := c.fld (F.ENG_STATUS_REASON (c.phys x))
      .done (l.foldl (fun c x => c.ndStop x) c) (if 1 ≤ why ∧ why ≤ 6 then 0x2F + why else 0xFF) data
    | none =>
      if l.all passed && c.ndSettled then .done (c.ndRestore t (t.args.getD 2 0)) 0 data else .wait

/-- PORT_CONFIG of a running port (R378). -/
def taskPort (c : Chip) (t : NdTask) : NdNext :=
  let i := t.q.f 1 5 0
  let kind := t.q.f 1 31 28
  match t.stage with
  | 0 => c.ndFadeOut t (c.ndPortCodes t.q) 16
  | 1 =>
    if !c.ndFaded t then .wait
    else
      let off := match kind with
        | 0 => (Reg.SAP_CTRL i, ndW ((c.reg (Reg.SAP_CTRL i)).toNat % 2 ^ 31))
        | 1 => (Reg.ASRC_GCTRL i, ndW ((c.reg (Reg.ASRC_GCTRL i)).toNat % 2 ^ 31))
        | _ => (Reg.ASRC_CH i, ndW ((c.reg (Reg.ASRC_CH i)).toNat % 2 ^ 31))
      ((ndDirect [off] c).1).ndNext t
  | 2 =>
    if kind = 0 && c.bit (F.SAP_STATUS_RUNNING i) then .wait
    else
      let clear := match kind with
        | 0 => c.setFld (F.SAP_STATUS_FMT_ERR i) 0
        | 1 => c.setFld (F.ASRC_GSTATUS_CONFLICT i) 0
        | _ => c
      let (c1, ok) := ndDirect (ndPortWrites t.q) clear
      let rc := if ok then c1.ndPortCode t.q else 0x12
      if rc ≠ 0 then .done c1 rc [] else c1.ndNext t
  | _ => if c.ndSettled then .done (c.ndRestore t 16) 0 [] else .wait

/-- SWAP_ARM with WAIT (R375): the slot's DONE. -/
def taskSwap (c : Chip) (t : NdTask) : NdNext :=
  let k := t.args.getD 0 0
  if c.bit (F.SWAP_CTRL_DONE k) && decide (t.args.getD 1 0 ≤ c.now) then .done c 0 t.words else .wait

/-- SENSE_CONFIG that stops the scan for one tick, or calibrates (R380). -/
def taskSense (c : Chip) (t : NdTask) : NdNext :=
  let en := bitAt (t.q.w 1) 31
  let cal := t.kind == .cal
  match t.stage with
  | 0 => ((ndDirect [(Reg.SENSE_CTRL, ndW ((c.reg Reg.SENSE_CTRL).toNat % 2 ^ 31))] c).1).ndNext t
  | 1 =>
    if c.bit F.SENSE_STATUS_RUNNING then .wait
    else
      let c1 := (ndDirect (ndScan t.q) c).1
      if cal then
        let c2 := c1.setFld F.SENSE_STATUS_CAL_FAIL 0
        ((ndDirect [(Reg.SENSE_CTRL, ndW ((ndSenseCtrl t.q false).toNat + 2 ^ 30))] c2).1).ndNext t
      else .done (ndDirect [(Reg.SENSE_CTRL, ndSenseCtrl t.q en)] c1).1 0 []
  | _ =>
    if c.bit F.SENSE_STATUS_CAL_BUSY then .wait
    else .done (ndDirect [(Reg.SENSE_CTRL, ndSenseCtrl t.q en)] c).1 (if c.bit F.SENSE_STATUS_CAL_FAIL then 0x41 else 0) []

/-- Why a power request fails before it reaches the PMU (R385), 0 if it does not. -/
def powerCode (c : Chip) (t : NdTask) (d st : Nat) : Nat :=
  let noRet := decide (0x28 ≤ d) && decide (d < 0x40) || d == 0x43 || d == 0x45
  if d ≤ 2 then 0x70
  else if st = 1 && noRet then 0x12
  else if st = 0 then 0
  else if (d == 0x44 && c.bit F.STRM_CFG_EN) || (d == 0x42 && (List.range 32).any fun k => c.bit (F.ACT_CTRL_EN k)) ||
      (d == 0x45 && c.bit F.TICK_STATUS_RUNNING) || (d == 0x43 && t.q.sender == mUsb) then 0x25
  else 0

/-- POWER_STATE (R385): one item of the payload after the other. -/
def taskPower (c : Chip) (t : NdTask) : NdNext :=
  let w := t.q.w (t.item + 1)
  let d := bits w 15 8
  let st := bits w 1 0
  let isEng := decide (0x10 ≤ d) && decide (d < 0x1A)
  let l := c.logi (d - 0x10)
  if t.q.len ≤ t.item then .done c 0 [0]
  else match t.stage with
  | 0 =>
    let rc := c.powerCode t d st
    if rc ≠ 0 then .done c rc [ndW d]
    else if isEng && st != 0 && c.domOn (d - 0x10) then c.ndFadeOut t (engOf (2 ^ l)) 64
    else .go c { t with stage := 3 }
  | 1 => if c.ndFaded t then (c.ndStop l).ndNext t else .wait
  | 2 => if c.ndStopped l then c.ndNext t else .wait
  | 3 =>
    if c.bit F.PMU_STATUS_BUSY then .wait
    else
      let c1 := (ndDirect [(Reg.PMU_CMD, ndW (2 ^ 31 + 2 ^ 28 + d * 256 + st))] (c.setFld F.PMU_STATUS_ERR 0)).1
      if c1.fld F.PMU_STATUS_ERR ≠ 0 then .done c1 0x25 [ndW d] else c1.ndNext t
  | _ => if c.bit F.PMU_STATUS_BUSY then .wait else .go c { t with stage := 0, item := t.item + 1, gains := [] }

/-- UPDATE_STAGE with FIRST or LAST (R387): the slot is erased first; then the message's words; at the end the slot is
marked pending. `bad`: an operation fails. -/
def taskUpdate (c : Chip) (t : NdTask) (bad : Bool) : NdNext :=
  let s := c.ndSlotAt c.ndOther
  let first := t.kind == .updFirst
  let last := bitAt (t.q.w 1) 30
  let c1 := if first then c.erase s 0x802000 else c
  let c2 := c1.ndProgram (t.q.f 1 20 0) (t.q.body.drop 1)
  if bad then .done (if first then c1 else c) 0x60 []
  else if last then .done (c2.program s (wordBytes 0xFFFFFF00)) 0 [ndW c.ndOther]
  else .done c2 0 []

/-- One stage of a task; `bad` is what the flash says. COUNTER_ADVANCE is in `ndCounterEnd`. -/
def taskStep (c : Chip) (t : NdTask) (bad : Bool) : NdNext :=
  match t.kind with
  | .install => c.taskInstall t
  | .port => c.taskPort t
  | .swapWait => c.taskSwap t
  | .sense | .cal => c.taskSense t
  | .power => c.taskPower t
  | .pair =>
    if c.fld F.TLK_STATUS_FAIL_REASON ≠ 0 then .done c 0x41 [c.reg Reg.TLK_STATUS]
    else if 4 ≤ c.tlkState then .done c 0 [c.reg Reg.TLK_STATUS]
    else .wait
  | .rejoin =>
    if c.fld F.TLK_REJOIN_STATUS_PHASE ≠ 0 then .wait
    else if c.bit F.TLK_REJOIN_STATUS_ABORTED then .done c 0x51 [c.reg Reg.TLK_REJOIN_STATUS]
    else if c.bit F.TLK_REJOIN_STATUS_DONE then .done c 0 [c.reg Reg.TLK_REJOIN_STATUS]
    else .wait
  | .updFirst | .updLast => c.taskUpdate t bad
  | .counter => .wait
  | .migrate =>
    if c.bit F.MIG_STATUS_ABORTED then
      .done c (if c.fld F.MIG_STATUS_REASON ≤ 3 then 0x25 else 0x41) [c.reg Reg.MIG_STATUS]
    else if c.bit F.MIG_STATUS_DONE then .done c 0 [c.reg Reg.MIG_STATUS]
    else .wait
  | .bist =>
    if c.bit F.BIST_STATUS_BUSY then .wait
    else .done c (if c.bit F.BIST_STATUS_FAIL then 0x41 else 0) [c.reg Reg.BIST_STATUS]
  | .loop =>
    if c.bit F.LOOP_STATUS_BUSY then .wait
    else .done c (if c.fld F.LOOP_STATUS_ERR_CNT ≠ 0 ∨ !c.bit F.LOOP_STATUS_SYNC then 0x41 else 0) []
  | .partner =>
    match t.stage with
    | 0 =>
      if c.mbState 12 ≠ 0 then .wait
      else (((t.q.head :: t.q.body).zipIdx.foldl (fun c x => c.setReg (Reg.MB_DATA 12 x.2) x.1) c).mbPost 12 mCp).ndNext t
    | _ =>
      let own := t.args.getD 0 0
      let data := if t.words.isEmpty then [] else t.words
      if c.mbState 12 = 1 then .wait
      else if c.mbState 12 = 2 then
        let rc := c.fld (F.MB_ACK_RC 12)
        .done (c.setFld (F.MB_STATUS_STATE 12) 0) (if rc ≤ 1 then max own rc else rc) data
      else .done c 0xFF data

/-- A task ends: completion message, or record, reply and acknowledge; a partner command finished here goes on to the
partner (R371). -/
def ndEnd (c : Chip) (t : NdTask) (rc : Nat) (data : List Word) : Chip :=
  let q := t.q
  if t.defer then c.ndAnswer ⟨q.mb, q.head, some (q.op + 0x800, ndW rc :: data), none⟩
  else
    let r : NdRes := { chip := c, rc := rc, reply := if data.isEmpty then none else some data }
    ndFinish q q.head (if t.kind == .partner then r else ndPartner q r)

/-- Task `j` goes one stage on. -/
def ndAdvance (c : Chip) (j : Nat) (bad : Bool) : Chip :=
  match c.ndo.tasks[j]? with
  | none => c
  | some t =>
    let without := fun (c : Chip) => c.modNdo fun n => { n with tasks := n.tasks.eraseIdx j }
    match c.taskStep t bad with
    | .wait => c
    | .go c1 t1 => c1.modNdo fun n => { n with tasks := n.tasks.set j t1 }
    | .done c1 rc data => (without c1).ndEnd t rc data

end Chip

/-- COUNTER_ADVANCE ends (R388): the fuses move to VALUE where the counter is not there yet; `bad` means that the fuse
operation fails. -/
def ndCounterEnd (s : State) (j : Nat) (t : NdTask) (bad : Bool) : State :=
  let v := t.args.getD 0 0
  let c := s.chip.modNdo fun n => { n with tasks := n.tasks.eraseIdx j }
  if v = s.otp.counter then { s with chip := c.ndEnd t 0 [Chip.ndW v] }
  else
    let (s1, ok) := if bad then ({ s with chip := c }, false) else fuseNow { s with chip := c } 1 v []
    { s1 with chip := s1.chip.ndEnd t (if ok then 0 else 0xFF) [Chip.ndW s1.otp.counter] }

/-- DEFERRED_COMPLETION (R364): the firmware takes task `j` one stage on, where what the stage waits for has come. -/
def ndDeferred (s : State) (j : Nat) (bad : Bool) : State :=
  let c := s.chip.ndSweep
  if c.recovery || !c.domOn 10 then s
  else
    match c.ndo.tasks[j]? with
    | some t => if t.kind = .counter then ndCounterEnd { s with chip := c } j t bad else { s with chip := c.ndAdvance j bad }
    | none => { s with chip := c }

end Sys2Proof.Machine
end

