-- ==== Sys2Proof/Machine/Phases.lean ====
section
/-! DEFINITION. The three phases of a tick (R37, R39, R40, R51): the operations of the units in the order in which one tick
makes them, the ledger's application and record (R211, R213), and what every command ends with. -/

namespace Sys2Proof.Machine

/-- What a tick keeps beside a core starts again (R37, R127, R176). -/
def Aux.fresh (a : Aux) : Aux :=
  { a with cyc := 0, start := 0, issued := 0, journal := [], relayLog := [], wcyc := [], old := [], det := none
           blank := false, standIn := none, replay := none, corrupt := false, stop := false, restored := false
           lastStore := none }

namespace Chip

/-! ### Phase-0 cycle 0 -/

/-- A tick may begin: the generator runs, its clock is locked and it is not paused, or its pause ends now (R49, R50). -/
def mayBegin (c : Chip) : Bool :=
  c.domOn 17 && c.bit F.TICK_CTRL_RUN && c.bit F.CLK_STATUS_AUD_LOCK && c.tick.phase == .idle &&
    (!c.bit F.TICK_STATUS_PAUSED || c.tick.famReady) &&
    (c.fld F.TLK_REJOIN_STATUS_PHASE != 3 || c.tlk.records.any (·.1 == c.now + 1))

/-- The device runs catch-up ticks from the partner's ledger (R226). -/
def catching (c : Chip) : Bool := c.fld F.TLK_REJOIN_STATUS_PHASE == 3

/-- The STC increments, or takes a pending load (R37, R43). -/
def stcStep (c : Chip) : Chip :=
  let v := match c.tick.load with | some v => v | none => c.tick.stc + 1
  c.modTick fun x => { x with stc := v, load := none, stcl := BitVec.ofNat 32 v.toNat }

/-- An engine whose scan has passed joins the tick (R71); it is held where its program is too long (R46). -/
def joinTick (c : Chip) (p : Nat) : Chip :=
  if c.engState p = 3 && (c.auxOf p).passed then
    (((c.setEngState p 4).modAux p fun a => { a with passed := false }).modCore p fun k =>
      { k.flush with pc := c.tickEntry p, repOn := false, xfer := none }).checkHold p
  else c

/-- Forwarded inputs travel over the link: the pair computes in step (R196). -/
def forwards (c : Chip) : Bool := c.tandem && (c.lockstep || c.tlk.source)

/-- SAP, USB and ASRC sources of this tick; forwarded ones enter one tick later on both devices (R196, R252). -/
def latchSources (c : Chip) : Chip :=
  let (c1, asrc) := (c.portsPhase0).asrcTick
  let c2 := c1.usbTake
  let own := fun (code : Nat) =>
    if code < 256 then c2.sapSource (code / 32) (code % 32) else if code < 928 then c2.usbWord (code - 896)
    else asrc.getD (code - 928) 0
  let codes := if c2.forwards then c2.fwdCodes else []
  let word := fun (code : Nat) => match codes.idxOf? code with | some i => c2.tlk.fwd.getD i 0 | none => own code
  let all := List.range 256 ++ (List.range 32).map (896 + ·) ++ (List.range 64).map (928 + ·)
  let src := all.foldl (fun t code => Tab.set (fun _ => 0) t code (word code)) []
  let c3 := c2.modRtr fun r => { r with src := src }
  if c2.forwards && c2.leader then
    let ws := codes.map own
    c3.modTlk fun t => { t with fwd := ws, tx := t.tx.map fun f => { f with fwd := ws } }
  else c3

/-- A cadence has changed: ports, USB and the sense points follow (R243, R294, R354). -/
def cadenceFollow (c0 c : Chip) : Chip :=
  c.when (c.rate != c0.rate) fun c => c.portsCadence.senseHush.usbCadence.refreshBudget

/-- Entries of the ledger due in the next tick's preparation act as CP writes (R211); TLK_TOKEN_MOVE moves the token
(R219). -/
def ledgerApply (c : Chip) (es : List LdgEntry) : Chip :=
  es.foldl (fun c e =>
    if e.addr = Reg.TLK_TOKEN_MOVE then c.when (bitAt e.data.toNat 0) tokenMove
    else (c.busPut mCp e.addr 4 15 e.data false).1) c

/-- Phase-0 cycle 0 (R37, R41, R44, R46, R151, R209, R218): its operations in order. `deferred`: the edge was deferred
(R33); `driveIn`: the level of TLK_DRIVE_IN. -/
def cycle0 (c : Chip) (deferred driveIn : Bool) : Chip :=
  let c0 := c.when c.catching fun c =>
    c.ledgerApply ((c.tlk.records.filter (·.1 == c.now + 1)).flatMap (·.2.2.2))
  let skip := c0.bit F.TICK_STATUS_SAFE_ECLK
  let c1 := ((c0.when deferred (·.bump F.TICK_STATUS_DEFER_CNT)).stcStep.modTick fun x =>
    { x with phase := .p0, stage := 1, ended := false, executed := [], skipped := skip }).setFld F.TICK_STATUS_RUNNING 1
  let c1 := c1.modTick fun x => { x with due := c1.slotsDue }
  let c2 := c1.when skip fun c => (c.setFld F.TICK_STATUS_SKIPPED 1).modTlk fun t => { t with standIn := true }
  let c3 := (cadenceFollow c2 c2.alarmCheck.changesDue).rehold
  let c4 := (c3.digestCompare.tokenCycle0 driveIn).migSwap
  let c5 := ((List.range 10).foldl joinTick c4).rtrCycle0.senseTick.trkTick
  let c6 := c5.when c5.snapDue fun c => c.trkSnap.asrcUnsettleAll
  let mask := (List.range 10).foldl (fun m p => if c6.engState p = 5 then withBit m p else m) 0
  let c7 := (List.range 10).foldl (fun c p => c.modAux p Aux.fresh) (c6.modTick fun x => { x with held := mask })
  ({ c7 with spare := { c7.spare with cones := [] } }).latchSources.strmPhase0

/-! ### Phase-0 cycles 1 and 2, and the rest -/

/-- Cycle 1: pending lengths and the heads of the delay lines (R122, R121); a skipped tick moves no head (R51). -/
def cycle1 (c : Chip) : Chip :=
  let c1 := (List.range 10).foldl (fun c p => c.when (c.runs p) fun c => (c.applyLengths p).decrementHeads p) c
  c1.modTick fun x => { x with stage := 2, role1 := c1.fld F.PAN_ROLE_FRONT }

/-- Cycle 2: the swaps due (R163). -/
def cycle2 (c : Chip) : Chip := ((List.range 4).foldl swapDue c).modTick fun x => { x with stage := 3 }

/-- The registers of a running engine at the start of its tick, and their copy in the shadow file (R37, R178). -/
def shadowCopy (c : Chip) (p : Nat) : Chip :=
  if !c.runs p then c
  else
    let k : Core := { (c.core p).flush with pc := c.tickEntry p, stack := [], xfer := none, repOn := false, flights := [] }
    { c.setCore p k with shadow := Tab.set (fun _ => {}) c.shadow p k }

/-- The words every engine's sense relay takes in this tick (R196, R303). -/
def senseRelay (c : Chip) : Nat → Word :=
  if c.forwards then
    if !c.bit F.TLK_FWD_SENSE then fun _ => 0
    else if c.leader then fun w => c.sense.relay.getD w 0
    else fun w => ((c.tlk.sense.find? (·.1 == w)).map (·.2)).getD 0
  else fun w => c.sense.relay.getD w 0

/-- The input and sense relays are written (R37): by pass A and the scan, or in catch-up from the record. -/
def relaysIn (c : Chip) : Chip :=
  let put := fun (c : Chip) (sense : Nat → Word) => (List.range 10).foldl (fun c p => c.when (c.domOn p) fun c =>
    (List.range 1024).foldl (fun c w => c.pokeW (senseAddr p w) (sense w)) c) c
  if c.catching then
    match c.tlk.records.find? (·.1 == c.now) with
    | some (_, ins, sns, _) =>
      let c1 := (List.range 640).foldl (fun c i =>
        let p := c.phys (i / 64)
        c.when (c.domOn p) (·.pokeW (inputAddr p (i % 64)) (ins.getD i 0))) c
      put (c1.modTlk fun t => { t with records := t.records.filter fun r => decide (c.now < r.1) }) fun w => sns.getD w 0
    | none => c
  else put c.passA c.senseRelay

/-- The frozen images of a skipped tick: every running engine's stand-in by its policy, 0 elsewhere (R51, R183). -/
def skippedImages (c : Chip) : Chip :=
  let keep := fun (p : Nat) => c.inTick p && !bitAt c.tick.held p && !c.fbit F.REPLAY_CFG_POLICY (c.logi p)
  { c with image := Tab.keep (fun k => keep (k / 256)) c.image }

/-- Cycles 3 to 31 (R37): shadow files, glides, input and sense relays; clock outputs and actuator counters that wait for
this edge start. -/
def cycle3 (c : Chip) : Chip :=
  let c1 := ((List.range 10).foldl shadowCopy c).migShadow
  let c2 := if c1.panOn then c1.glidePhase0 c1.tick.moving0 else c1
  let c3 := (c2.modTick fun x => { x with moving0 := c2.movingGroups }).relaysIn
  let c4 := (c3.outputsStart.actEdge.mirror).modTick fun x => { x with stage := 0 }
  { c4 with tlk := { c4.tlk with sense := [] } }

/-- Phase 0 goes on to the end of stage `n` (1 cycle 0, 2 cycle 1, 3 cycle 2, 4 all of it). -/
def p0To (c : Chip) (n : Nat) (deferred driveIn : Bool) : Chip :=
  let c1 := if c.tick.phase == .idle then (if c.mayBegin then c.cycle0 deferred driveIn else c) else c
  let go := fun (c : Chip) => c.tick.phase == .p0
  let c2 := c1.when (go c1 && c1.tick.stage == 1 && decide (2 ≤ n)) cycle1
  let c3 := c2.when (go c2 && c2.tick.stage == 2 && decide (3 ≤ n)) cycle2
  c3.when (go c3 && c3.tick.stage == 3 && decide (4 ≤ n)) cycle3

/-- An operation of phase 0 as a command of its own: phase 0 goes on to stage `n` where the operation then takes place, as
`hit` says of the block before and after; else nothing happens (log entry 8). -/
def early (c : Chip) (n : Nat) (hit : Chip → Chip → Bool) : Chip :=
  let d := c.p0To n false (c.bit F.TLK_STATUS_DRIVE_IN)
  if hit c d then d else c

/-- PHASE_1: phase 0 is complete and every running engine starts its program. -/
def phase1 (c : Chip) : Chip :=
  if c.tick.phase ≠ .p0 then c
  else (c.p0To 4 false (c.bit F.TLK_STATUS_DRIVE_IN)).modTick fun x => { x with phase := .p1 }

/-! ### Phase 2 -/

/-- The relay-out of every running engine is frozen; the others' images are 0 (R40, R251). A skipped tick leaves its
stand-ins. -/
def freeze (c : Chip) : Chip :=
  if c.tick.skipped then c.skippedImages
  else
    { c with image := (List.range 10).foldl (fun t p => (List.range 256).foldl (fun t w =>
        Tab.set (fun _ => 0) t (p * 256 + w) (if c.runs p then c.peek (relayAddr p w) else 0)) t) [] }

/-- The journal of an engine is committed into delay memory, the oldest store first (R127). -/
def commitJournal (c : Chip) (p : Nat) : Chip :=
  ((c.auxOf p).journal.reverse.foldl (fun c j => c.poke (delayAddr p j.word) j.mask j.data) c).modAux p fun a =>
    { a with journal := [] }

/-- Every entry of an engine's serai write buffer drains. -/
def drainAll : Nat → Nat → Chip → Chip
  | 0, _, c => c
  | n + 1, p, c => if (c.auxOf p).wbuf.isEmpty then c else drainAll n p (c.drainOne p)

/-- ENG_ISSUE: an engine that took no part in this tick has issued nothing. -/
def issueReport (c : Chip) (p : Nat) : Chip :=
  c.when (c.domOn p) fun c =>
    (c.setFld (F.ENG_ISSUE_ISSUED p) (if c.runs p then min (c.auxOf p).issued 65535 else 0)).setFld (F.ENG_ISSUE_WB_END p)
      (c.core p).wb

/-- An engine's image of this tick may post (R336). -/
def publishes (c : Chip) (p : Nat) : Bool :=
  c.inTick p && !bitAt c.tick.held p && !(((c.auxOf p).standIn.isSome || c.tick.skipped) && c.fbit F.REPLAY_CFG_POLICY (c.logi p))

/-- The bytes of the ledger record of this tick: input relay words, sense relay words, entries (R213). -/
def recordWords (c : Chip) : List Word :=
  (List.range 640).map (fun i => c.peek (inputAddr (c.phys (i / 64)) (i % 64))) ++
    (List.range 1024).map (fun w => c.peek (senseAddr (c.phys 0) w)) ++
    (List.range 96).flatMap fun i =>
      match (c.tlk.entries.filter (·.stamp == c.now))[i]? with
      | some e => [BitVec.ofNat 32 e.addr, e.data, BitVec.ofNat 32 e.stamp, BitVec.ofNat 32 (e.stamp / 2 ^ 32)]
      | none => [0, 0, 0, 0]

/-- LEDGER_RECORD (R213): the record of this tick, or a gap where external memory is not ready. -/
def ledgerRecord (c : Chip) : Chip :=
  if !c.tandem || !c.bit F.TLK_LDG_BASE_LO_REC_EN then c
  else
    let t := c.now
    if c.domOn 16 && c.bit F.DDR_STATUS_READY then
      let base := c.fld F.TLK_LDG_BASE_LO_BASE * 2 ^ 25 + c.fld F.TLK_LDG_BASE_HI_BASE_HI * 2 ^ 32 + t % 4096 * 8192
      (c.recordWords.zipIdx.foldl (fun c x => c.pokeDdr (base + 4 * x.2) 15 x.1) c).modTlk fun x =>
        { x with gaps := x.gaps.filter fun g => g % 4096 != t % 4096 }
    else (c.tlkEvt 6).modTlk fun x => { x with gaps := t :: x.gaps.filter fun g => g % 4096 != t % 4096 }

/-- LEDGER_APPLY (R211): the entries stamped for the next tick; entries of this tick and before are dropped. -/
def ledgerStep (c : Chip) : Chip :=
  if c.catching then c
  else
    let c1 := c.ledgerApply (c.tlk.entries.filter (·.stamp == c.now + 1))
    c1.modTlk fun x => { x with entries := x.entries.filter fun e => decide (c1.now < e.stamp) }

/-- Pass B's digest of this tick waits for the partner's (R208). -/
def digestKeep (c : Chip) : Chip :=
  if c.tandem then c.modTlk fun t => { t with own := t.own ++ [(c.now, c.digest, t.standIn || c.latched)] } else c

/-- What ends with the tick: engines leave, a pause or a stop begins, waiting changes of the clocks and of power follow
(R49, R50, R71, R286 to R288, R418). -/
def tickEnd (c : Chip) : Chip :=
  let c1 := (List.range 10).foldl (fun c p =>
    c.when ((c.auxOf p).leave && (c.engState p == 4 || c.engState p == 5)) (·.leaveTick p)) c
  let c2 := c1.modTick fun x => { x with phase := .idle, held := 0 }
  let c3 := if !c2.bit F.TICK_CTRL_RUN then c2.setFld F.TICK_STATUS_RUNNING 0
    else if c2.familyDue then c2.familyPause
    else if c2.clk.pauseDue then c2.setFld F.TICK_STATUS_PAUSED 1
    else c2
  ((c3.modClk fun x => { x with pauseDue := false }).when c3.clk.backDue goBack).powerWaited

/-- PHASE_2 (R40): phase 1 ends and the tick is closed. -/
def phase2 (c : Chip) : Chip :=
  if c.tick.phase ≠ .p1 then c
  else
    let c1 := c.endPhase1.ledgerCheck.lateDets
    let c2 := ((List.range 10).foldl (fun c p => drainAll 4096 p c) (c1.modTick fun x => { x with phase := .p2 })).freeze.migCompare
    let c3 := ((List.range 10).foldl (fun c p => c.when (c.runs p) (·.commitJournal p)) c2).replayDone
    let c4 := (List.range 10).foldl issueReport c3.passB
    let stand := c4.spare.cones.any (!·.replay)
    let c5 := (c4.usbAppend fun code => Tab.get (fun _ => 0) c4.rtr.sink code).when stand fun c =>
      c.modTlk fun t => { t with standIn := true }
    let c6 := c5.digestKeep.actAdopt.ledgerRecord.ledgerStep
    let off := fun (p : Nat) => (c6.auxOf p).standIn.isSome || c6.tick.skipped
    let c7 := (c6.driveOut.frameAssemble.strmPhase2 off)
    let c8 := (List.range 4).foldl (fun c i => enginePost c7.publishes c i) c7
    c8.portsPhase2.tickEnd

end Chip

/-! ### What every command ends with -/

/-- Units that follow a change of the clocks or a pause (R244, R294, R311): `c0` is the block before the command. -/
def Chip.follow (c0 c : Chip) : Chip :=
  let paused := c.bit F.TICK_STATUS_PAUSED && !c0.bit F.TICK_STATUS_PAUSED
  let stopped := c0.bit F.TICK_STATUS_RUNNING && !c.bit F.TICK_STATUS_RUNNING
  let safe := c.bit F.CLK_STATUS_SAFE && !c0.bit F.CLK_STATUS_SAFE
  ((c.when (paused && c.domOn 12) Chip.portsPause).when ((paused || stopped) && c.domOn 13) (·.senseStop paused)).when safe
    Chip.actHalt

/-- The end of every command: units follow the clocks, a migration that has lost its ground aborts (R191), wake requests are
taken (R333), and fuse-backed registers load where their domain was reset (R8). -/
def Chip.conclude (c0 c : Chip) (o : Otp) : Chip := ((c0.follow c).migCheck.mbWakeTake).fuseSettle o

/-- The state after a command, `s` before it and `t` after what it does itself: an operation of the fuses or the flash that
a reset has interrupted leaves its traces, then what every command ends with. -/
def concluded (s t : State) : State :=
  let r := t.otp.cut s.chip (s.chip.ospiCut t.chip)
  { t with otp := r.1, chip := s.chip.conclude r.2 r.1 }

/-- The outcome of a command. -/
def finish (s t : State) : Host.Outcome State Fault Refusal := .next (concluded s t)

/-- The block as a command finds it: it has answered nothing yet. -/
def State.begin_ (s : State) : State := { s with chip := { s.chip with resp := .none } }

/-- A command that acts on everything but the fuses and the queue. -/
def run (f : Chip → Chip) (s : State) : Host.Outcome State Fault Refusal :=
  finish s { s with chip := f s.begin_.chip }

/-- A command that acts on the fuses too. -/
def runS (f : State → State) (s : State) : Host.Outcome State Fault Refusal := finish s (f s.begin_)

/-- A command that ends an operation of the fuses or the flash. -/
def runDone (f : State → State) (s : State) : Host.Outcome State Fault Refusal :=
  let t := f s.begin_
  .next { t with chip := s.chip.conclude t.chip t.otp }

end Sys2Proof.Machine
end

