-- ==== Sys2Proof/Machine/Issue.lean ====
section
/-! DEFINITION. What a core issues on command: the bundle or instruction at its program counter (BUNDLE_ISSUE), or the one
syllable or compact instruction that an operation row names, in that place. -/

namespace Sys2Proof.Machine

namespace Chip

/-- Cycles that may pass before an engine has its turn in phase 1: no more than all engines have in it. -/
def turns (c : Chip) : Nat := 12 * c.budget

/-- Engine `p` can have a cycle of phase 1 now. -/
def inPhase1 (c : Chip) (p : Nat) : Bool :=
  c.tick.phase == .p1 && !c.tick.ended && c.runs p && decide ((c.auxOf p).cyc < c.budget)

/-- A cycle of engine `p` in phase 1, in which `go` issues its bundle: engines that stand further back come first. -/
def phase1Issue (go : Chip → Nat → Chip) (c : Chip) (p : Nat) : Chip := runTo (tickStepBy go) c.turns p c

/-- BUNDLE_ISSUE: core `k` issues what stands at its program counter (R54, R70, R102). -/
def coreIssue (c : Chip) (k wait : Nat) : Chip :=
  if 10 ≤ k then c.cpIssue busPort wait k
  else if c.engState k = 1 then c.setupIssue k
  else if c.inPhase1 k then phase1Issue fetchIssue c k
  else c

/-- A bundle of the one syllable `s` at the program counter of engine `p`. -/
def oneSyl (c : Chip) (p : Nat) (s : Syl) : Chip × Ctl :=
  let core := c.core p
  (c.modAux p fun a => { a with lastPc := core.pc, lastStore := none }).issueSyls p
    (resolve p core.xfer.isSome core.repOn [] [(core.pc, s)]) 0 ((core.pc + 4) % 262144)

/-- An operation row: core `k` issues the one syllable `s` in the place of what stands at its program counter: on an engine
in tick mode or in bundle code a bundle, elsewhere a compact instruction of 32 bits (R55, R106; log entry 9). -/
def coreOp (c : Chip) (k : Nat) (s : Syl) : Chip :=
  if 10 ≤ k then
    cpTurn (fun c0 => cpFinish k (c0.core k).pc (c0.issueCompact busPort 0 k (.syl s) (c0.core k).pc 4)) c k
  else if c.engState k = 1 then
    if c.bundleRegion k (c.core k).pc then afterSetup k (c.oneSyl k s)
    else (c.modAux k fun a => { a with lastPc := (c.core k).pc }).setupCompact k (.syl s) 4
  else if c.inPhase1 k then phase1Issue (fun c p => if p = k then (c.oneSyl p s).1 else fetchIssue c p) c k
  else c

/-- A row of an instruction that exists in compact code only, of length `len`: an engine issues it in setup code (R70,
R105). -/
def coreCompact (c : Chip) (k : Nat) (ins : Compact) (len : Nat) : Chip :=
  if 10 ≤ k then cpTurn (fun c0 => cpFinish k (c0.core k).pc (c0.issueCompact busPort 0 k ins (c0.core k).pc len)) c k
  else if c.engState k = 1 ∧ !c.bundleRegion k (c.core k).pc then
    (c.modAux k fun a => { a with lastPc := (c.core k).pc }).setupCompact k ins len
  else c

/-- INTERRUPT: the CP or SECP takes the interrupt that is due (R320, R321). -/
def coreInterrupt (c : Chip) (k : Nat) : Chip := if 10 ≤ k ∧ c.interruptDue k then cpTurn (fun c0 => c0) c k else c

end Chip

end Sys2Proof.Machine
end

