-- ==== Sys2Proof/Machine/Segment.lean ====
section
/-! DEFINITION. What a mirror, transfer or ledger-replay segment brings (R200, R225, R226, R335), and the scrub reads and
write-backs of the memories (R128, R129, R133). -/

namespace Sys2Proof.Machine

namespace Chip

/-! ### Segments -/

/-- The device takes the transfer set: it is the recovering one of a rejoin (R225, R226). -/
def recovering (c : Chip) : Bool := c.tlkState == 4 && !c.tlk.source

/-- A word of the memory map, with its zero tag where it is a delay word. -/
def segWord (c : Chip) (a : Nat) (w : Word) (tag : Bool) : Chip :=
  let c1 := c.pokeW a w
  if isDelay a && tag then { c1 with tags := Tab.set (fun _ => false) c1.tags (tagKey a) true } else c1

/-- A stream as the source holds it; a reader's landing buffer is not transferred. -/
def segStream (c : Chip) (k : Nat) (d : List Word) (head pos : Int) (started : Bool) : Chip :=
  let ds := (List.range 8).zip d
  let ctl := controlOf ds (c.modWord ds)
  c.setStream k { d0 := ds, d1 := ds, d2 := ds, c0 := ctl, c1 := ctl, c2 := ctl, head := head, p := pos, started := started }

/-- A glide channel as the source holds it. -/
def segGlide (c : Chip) (k : Nat) (ctrl target rate v : Word) (rem : Nat) : Chip :=
  let n : GldSet := ⟨ctrl, target, rate, true, false⟩
  c.setGlide k { own := if n.en then some n else none, group := bits ctrl.toNat 25 23, v := v, rem := rem
                 moving := n.en && v != target }

/-- The epoch of the partner's CP, as the link carries it: an increment releases its semaphores (R328, R339). -/
def partnerEpoch (c : Chip) (n : Nat) : Chip :=
  if c.fld (F.EPOCH_EPOCH mPart) = n then c else (c.setFld (F.EPOCH_EPOCH mPart) n).releaseAll mPart

/-- A message for mailbox 14 or 15 (R335). What it answers the partner is in this device's segments to it. -/
def partnerPost (c : Chip) (m n : Nat) (data : List Word) : Chip :=
  let c1 := c.partnerEpoch n
  if (m = 14 ∨ m = 15) ∧ c1.listed m mPart ∧ c1.mbState m = 0 then
    (data.zipIdx.foldl (fun c x => if x.2 < 16 then c.setReg (Reg.MB_DATA m x.2) x.1 else c) c1).mbPost m mPart
  else c1

/-- The partner's acknowledge of mailbox 12 or 13. -/
def partnerAck (c : Chip) (m rc : Nat) : Chip := if m = 12 ∨ m = 13 then c.mbAck m mPart rc else c

/-- The partner refused the message of mailbox 12 or 13: its sender reads 2 NACK or 3 BUSY, and the mailbox is IDLE. -/
def partnerRefused (c : Chip) (m code : Nat) : Chip :=
  if (m = 12 ∨ m = 13) ∧ c.mbState m = 1 ∧ (code = 2 ∨ code = 3) then
    (c.setFld (F.MB_STATUS_STATE m) 0).setGores m (c.fld (F.MB_STAMP_SENDER m)) code
  else c

/-- One item of a segment. Items of the transfer set are taken by a recovering device only. -/
def segItem (c : Chip) (i : SegItem) : Chip :=
  match i with
  | .epoch n => c.partnerEpoch n.toNat
  | .post m n data => c.partnerPost m n.toNat data
  | .ack m rc => c.partnerAck m rc
  | .refused m code => c.partnerRefused m code
  | .word a w tag => c.when c.recovering (·.segWord a w tag)
  | .ext a w => c.when c.recovering (·.pokeDdr a 15 w)
  | .reg a w => c.when c.recovering (·.setReg a w)
  | .file e off w => c.when c.recovering (·.fileWrite e off w)
  | .stc v => c.when c.recovering (·.modTick fun x => { x with stc := v, stcl := BitVec.ofNat 32 v.toNat })
  | .stream k d head pos started => c.when c.recovering (·.segStream k d head pos started)
  | .glide k ctrl target rate v rem => c.when c.recovering (·.segGlide k ctrl target rate v rem)
  | .record t ins sns es => c.when (c.recovering && decide (1 ≤ c.fld F.TLK_REJOIN_STATUS_PHASE)) (·.modTlk fun x =>
      { x with records := (x.records.filter (·.1 != t)) ++ [(t, ins, sns, es)] })
  | .gap _ => c.when c.recovering (·.rejoinStop 4)
  | .mirrorOverflow => c.when c.recovering (·.rejoinStop 3)
  | .image p off w => c.when c.recovering fun c =>
      { c with image := Tab.set (fun _ => 0) c.image (p * 256 + off) w }
  | .swap k t late => c.when c.recovering fun c => c.setSlot k { c.slot k with target := t, late := late }
  | .route k cur old tgt => c.when c.recovering (·.modRtr fun r =>
      { r with routes := Tab.set (fun _ => {}) r.routes k ⟨cur, old, tgt⟩ })
  | .fade j n law => c.when c.recovering (·.modRtr fun r => { r with j := j, n := n, law := law })
  | .prot code dc cnt m => c.when c.recovering (·.setProt code ⟨dc, cnt, m⟩)

/-- SEGMENT_RECEIVE: segment number `n`; `ok` says that its CRC is right. A bad one is counted and asked for again (R200). -/
def segReceive (c : Chip) (n : Nat) (items : List SegItem) (ok : Bool) : Chip :=
  if !c.tandem || !c.linkUp then c
  else if !ok then (c.bump F.TLK_LINK_CNT_CRC_ERR).modTlk fun t => { t with again := (t.again.filter (· != n)) ++ [n] }
  else items.foldl segItem (c.modTlk fun t => { t with seg := n, again := t.again.filter (· != n) })

/-! ### Scrub reads and write-backs -/

/-- ECC_WRITE_BACK: a corrected word whose write-back is due is written back; a write that came before it has made its
check bits good, and it is cancelled (R128, R129). -/
def writeBack (c : Chip) (a : Nat) : Chip :=
  match (List.range 12).find? fun k => (c.auxOf k).fix.contains a with
  | none => c
  | some k =>
    let c1 := c.modAux k fun x => { x with fix := x.fix.filter (· != a) }
    c1.when (c1.eccOf a == 1) (·.setEcc a 0)

/-- Words of interleave bank `bank` of an engine: 0 the program memory, 1 to 8 the delay memory, 9 to 16 and 17 to 24 the
coefficient banks. -/
def scrubRows (bank : Nat) : Nat := if bank = 0 then 65536 else if bank ≤ 8 then 24576 else 4096

/-- Address of word `row` of an interleave bank. -/
def scrubAddr (p bank row : Nat) : Nat :=
  if bank = 0 then engBase p + 4 * row
  else if bank ≤ 8 then delayAddr p (8 * row + (bank - 1))
  else coefAddr p ((bank - 9) / 8) (8 * row + (bank - 9) % 8)

/-- Words that the scrubber has read of bank number `k`. -/
def scrubbed (c : Chip) (k : Nat) : Nat := Tab.get (fun _ => 0) c.scrub k

/-- One more. -/
def scrubStep (c : Chip) (k : Nat) : Chip := { c with scrub := Tab.set (fun _ => 0) c.scrub k (c.scrubbed k + 1) }

/-- Passes completed over the banks numbered `l`, of `rows` words each: those of the bank least read. -/
def scrubPasses (c : Chip) (l : List Nat) (rows : Nat) : Nat :=
  match l.map c.scrubbed with
  | [] => 0
  | n :: t => t.foldl min n / rows

/-- A pass counter goes on where a pass has been completed; it wraps at 65536. -/
def passCount (c : Chip) (f : Field) (before after : Nat) : Chip :=
  c.when (decide (before < after)) (·.setFld f ((c.fld f + 1) % 65536))

/-- SCRUB_READ: the scrubber of engine `p` reads the next word of an interleave bank (R129). RATE 0 is off. -/
def scrubRead (c : Chip) (p bank : Nat) : Chip :=
  if !c.domOn p ∨ c.fld (F.ENG_SCRUB_RATE p) = 0 then c
  else
    let k := p * 32 + bank
    let a := scrubAddr p bank (c.scrubbed k % scrubRows bank)
    let c1 := match c.eccOf a with
      | 2 => c.recordUe p a
      | 1 => c.recordCe p a
      | _ => c
    let delay := (List.range 8).map fun i => p * 32 + 1 + i
    let c2 := c1.scrubStep k
    c2.passCount (F.ENG_SCRUB_PASS_CNT p) (c1.scrubPasses delay 24576) (c2.scrubPasses delay 24576)

/-- SERAI_SCRUB_READ: the serai scrubber reads the next word of a bank; one that is not accessible is skipped (R133). -/
def seraiScrub (c : Chip) (b : Nat) : Chip :=
  if c.seraiState b ≠ 0 ∨ c.fld F.SERAI_SCRUB_RATE = 0 then c
  else
    let k := 512 + b
    let a := seraiAddr (b / 8 * 2 ^ 20 + c.scrubbed k % 131072 * 8 + b % 8)
    let c1 := match c.eccOf a with
      | 2 => c.seraiUe a
      | 1 => c.seraiCe a
      | _ => c
    let open_ := ((List.range 32).filter fun b => c.seraiState b == 0).map (512 + ·)
    let c2 := c1.scrubStep k
    c2.passCount F.SERAI_SCRUB_PASS_CNT (c1.scrubPasses open_ 131072) (c2.scrubPasses open_ 131072)

end Chip

end Sys2Proof.Machine
end

