-- ==== Sys2Proof/Machine/Access.lean ====
section
/-! DEFINITION. Accesses of the masters to memory of byte, half-word and word size (R450), the forms in which rows name a
register write, and the events of phase 0 that are rows of their own. -/

namespace Sys2Proof.Machine

namespace Chip

/-- A read of `2 ^ size` bytes at address `a` by master ID `id`: the aligned word rotated right by its byte lane (R450). -/
def memRead (c : Chip) (id a size : Nat) : Chip :=
  let n := 2 ^ size
  let (w, c1, err) := c.busRead id a n
  c1.answer (if err then .busError else .data (BitVec.ofNat 32 (rotr8 w.toNat (a % 4) % 2 ^ (8 * n))))

/-- A write of `2 ^ size` bytes; `same` as in `busWrite`. -/
def memWrite (c : Chip) (id a size : Nat) (v : Word) (same : Bool) : Chip :=
  let n := 2 ^ size
  let (mask, data) := storeLanes n (a % 4) v.toNat
  let (c1, err) := c.busWrite id a n mask data same
  c1.when err (·.answer .busError)

/-- An access of a bus master to the memory map (R450): the two cores and the debug port (R408) reach it; the host ports
reach only the window's registers (R341). -/
def memAccess (c : Chip) (m : Master) (a size : Nat) (data : Option Word) (same : Bool) : Chip :=
  let go := fun (id : Nat) => match data with
    | none => c.memRead id a size
    | some v => c.memWrite id a size v same
  match m with
  | .secp | .cp => go m.id
  | .debug => if c.debugReaches a then go mDbg else c.debugRefuse
  | _ => c.answer .busError

/-- A read that external memory has answered meets a link error (R138): `link` 1 corrected, 2 uncorrectable, which is a bus
error. -/
def linkRead (c : Chip) (link : Nat) : Chip :=
  match c.resp with
  | .data _ =>
    if c.linkEcc && link == 2 then c.linkUe.answer .busError else c.when (c.linkEcc && link == 1) linkCe
  | _ => c

/-- The word `v` as a row that names field `f` writes it: with `x` in that field. -/
def writeWith (c : Chip) (m : Master) (f : Field) (x : Nat) (v : Word) : Chip := c.masterWrite m f.reg (Field.put v f x)

/-- The same for a GO field beside its operation code. -/
def writeOp (c : Chip) (m : Master) (go op : Field) (x : Nat) (v : Word) : Chip :=
  c.masterWrite m go.reg (Field.put (Field.put v op x) go 1)

end Chip

/-! ### Events of phase 0: what shows that the event has taken place, in the block before and after -/

/-- A bit goes from one value to the other. -/
def falls (f : Field) (a b : Chip) : Bool := a.bit f && !b.bit f

/-- A bit sets. -/
def rises (f : Field) (a b : Chip) : Bool := !a.bit f && b.bit f

/-- A committed cadence change, or the family change of a pause, has been taken (R48, R49). -/
def cadenceHit (a b : Chip) : Bool :=
  a.tick.cadence.isSome && b.tick.cadence.isNone || a.tick.family.isSome && b.tick.family.isNone

/-- A committed ECLK change has been taken (R275). -/
def eclkHit (a b : Chip) : Bool := a.tick.eclk.isSome && b.tick.eclk.isNone

/-- A migration has ended with the exchange of the roles (R190). -/
def migHit (a b : Chip) : Bool := a.spare.mig.isSome && b.spare.mig.isNone && b.bit F.MIG_STATUS_DONE

/-- A pending commit has been captured (R256). -/
def commitHit (a b : Chip) : Bool := a.rtr.pend.isSome && b.rtr.pend.isNone

/-- The fade counter has reached N (R258). -/
def fadeHit (a b : Chip) : Bool :=
  decide (b.rtr.n ≤ b.rtr.j) && (decide (a.rtr.j < a.rtr.n) || b.rtr.effect)

/-- The snap has been made (R282). -/
def snapHit (a b : Chip) : Bool := a.trkState == 5 && !a.clk.slewed && b.clk.slewed

/-- c has moved toward 0 (R285). -/
def decayHit (a b : Chip) : Bool := a.trkState == 0 && decide (b.clk.offTicks < a.clk.offTicks)

/-- Channel `ch` has adopted its pending setting (R168). -/
def adoptHit (ch : Nat) (a b : Chip) : Bool := (a.glide ch).next.isSome && (b.glide ch).next.isNone

end Sys2Proof.Machine
end

