-- ==== Sys2Proof/Machine/RowsDrunus.lean ====
section
/-! DEFINITION. The operation rows of the instruction set (spec/04): each issues its syllable or instruction on a core. -/

namespace Sys2Proof.Machine

/-- MPY (R82). -/
def execMpy (core : CoreId) (x : MArgs) (s : State) : Host.Outcome State Fault Refusal :=
  run (fun c => c.coreOp core.val (.m .mpy x)) s

/-- MAC (R82). -/
def execMac (core : CoreId) (x : MArgs) (s : State) : Host.Outcome State Fault Refusal :=
  run (fun c => c.coreOp core.val (.m .mac x)) s

/-- MSU (R82). -/
def execMsu (core : CoreId) (x : MArgs) (s : State) : Host.Outcome State Fault Refusal :=
  run (fun c => c.coreOp core.val (.m .msu x)) s

/-- MPYN (R82). -/
def execMpyn (core : CoreId) (x : MArgs) (s : State) : Host.Outcome State Fault Refusal :=
  run (fun c => c.coreOp core.val (.m .mpyn x)) s

/-- ADDP (R82). -/
def execAddp (core : CoreId) (x : MArgs) (s : State) : Host.Outcome State Fault Refusal :=
  run (fun c => c.coreOp core.val (.m .addp x)) s

/-- ADD (R84). -/
def execAdd (core : CoreId) (x : AArgs) (s : State) : Host.Outcome State Fault Refusal :=
  run (fun c => c.coreOp core.val (.a .add x)) s

/-- SUB (R84). -/
def execSub (core : CoreId) (x : AArgs) (s : State) : Host.Outcome State Fault Refusal :=
  run (fun c => c.coreOp core.val (.a .sub x)) s

/-- ADDI (R84). -/
def execAddi (core : CoreId) (x : AArgs) (s : State) : Host.Outcome State Fault Refusal :=
  run (fun c => c.coreOp core.val (.a .addi x)) s

/-- NEG (R84). -/
def execNeg (core : CoreId) (x : AArgs) (s : State) : Host.Outcome State Fault Refusal :=
  run (fun c => c.coreOp core.val (.a .neg x)) s

/-- ABS (R84). -/
def execAbs (core : CoreId) (x : AArgs) (s : State) : Host.Outcome State Fault Refusal :=
  run (fun c => c.coreOp core.val (.a .abs x)) s

/-- AND (R84). -/
def execAnd (core : CoreId) (x : AArgs) (s : State) : Host.Outcome State Fault Refusal :=
  run (fun c => c.coreOp core.val (.a .and x)) s

/-- OR (R84). -/
def execOr (core : CoreId) (x : AArgs) (s : State) : Host.Outcome State Fault Refusal :=
  run (fun c => c.coreOp core.val (.a .or x)) s

/-- XOR (R84). -/
def execXor (core : CoreId) (x : AArgs) (s : State) : Host.Outcome State Fault Refusal :=
  run (fun c => c.coreOp core.val (.a .xor x)) s

/-- ANDI (R84). -/
def execAndi (core : CoreId) (x : AArgs) (s : State) : Host.Outcome State Fault Refusal :=
  run (fun c => c.coreOp core.val (.a .andi x)) s

/-- ORI (R84). -/
def execOri (core : CoreId) (x : AArgs) (s : State) : Host.Outcome State Fault Refusal :=
  run (fun c => c.coreOp core.val (.a .ori x)) s

/-- XORI (R84). -/
def execXori (core : CoreId) (x : AArgs) (s : State) : Host.Outcome State Fault Refusal :=
  run (fun c => c.coreOp core.val (.a .xori x)) s

/-- NOT (R84). -/
def execNot (core : CoreId) (x : AArgs) (s : State) : Host.Outcome State Fault Refusal :=
  run (fun c => c.coreOp core.val (.a .not x)) s

/-- SHL (R87). -/
def execShl (core : CoreId) (x : AArgs) (s : State) : Host.Outcome State Fault Refusal :=
  run (fun c => c.coreOp core.val (.a .shl x)) s

/-- SHR (R87). -/
def execShr (core : CoreId) (x : AArgs) (s : State) : Host.Outcome State Fault Refusal :=
  run (fun c => c.coreOp core.val (.a .shr x)) s

/-- SRA (R87). -/
def execSra (core : CoreId) (x : AArgs) (s : State) : Host.Outcome State Fault Refusal :=
  run (fun c => c.coreOp core.val (.a .sra x)) s

/-- ROR (R87). -/
def execRor (core : CoreId) (x : AArgs) (s : State) : Host.Outcome State Fault Refusal :=
  run (fun c => c.coreOp core.val (.a .ror x)) s

/-- SHI (R84). -/
def execShi (core : CoreId) (x : AArgs) (s : State) : Host.Outcome State Fault Refusal :=
  run (fun c => c.coreOp core.val (.a .shi x)) s

/-- MIN (R84). -/
def execMin (core : CoreId) (x : AArgs) (s : State) : Host.Outcome State Fault Refusal :=
  run (fun c => c.coreOp core.val (.a .min x)) s

/-- MAX (R84). -/
def execMax (core : CoreId) (x : AArgs) (s : State) : Host.Outcome State Fault Refusal :=
  run (fun c => c.coreOp core.val (.a .max x)) s

/-- CLZ (R84). -/
def execClz (core : CoreId) (x : AArgs) (s : State) : Host.Outcome State Fault Refusal :=
  run (fun c => c.coreOp core.val (.a .clz x)) s

/-- CMP (R86). -/
def execCmp (core : CoreId) (x : AArgs) (s : State) : Host.Outcome State Fault Refusal :=
  run (fun c => c.coreOp core.val (.a .cmp x)) s

/-- CMPI (R86). -/
def execCmpi (core : CoreId) (x : AArgs) (s : State) : Host.Outcome State Fault Refusal :=
  run (fun c => c.coreOp core.val (.a .cmpi x)) s

/-- SEL (R86). -/
def execSel (core : CoreId) (x : AArgs) (s : State) : Host.Outcome State Fault Refusal :=
  run (fun c => c.coreOp core.val (.a .sel x)) s

/-- MOV (R88). -/
def execMov (core : CoreId) (x : AArgs) (s : State) : Host.Outcome State Fault Refusal :=
  run (fun c => c.coreOp core.val (.a .mov x)) s

/-- MOVI (R88). -/
def execMovi (core : CoreId) (x : AArgs) (s : State) : Host.Outcome State Fault Refusal :=
  run (fun c => c.coreOp core.val (.a .movi x)) s

/-- MOVHI (R84). -/
def execMovhi (core : CoreId) (x : AArgs) (s : State) : Host.Outcome State Fault Refusal :=
  run (fun c => c.coreOp core.val (.a .movhi x)) s

/-- RND (R77). -/
def execRnd (core : CoreId) (x : AArgs) (s : State) : Host.Outcome State Fault Refusal :=
  run (fun c => c.coreOp core.val (.a .rnd x)) s

/-- ASH (R89). -/
def execAsh (core : CoreId) (x : AArgs) (s : State) : Host.Outcome State Fault Refusal :=
  run (fun c => c.coreOp core.val (.a .ash x)) s

/-- ADDA (R84). -/
def execAdda (core : CoreId) (x : AArgs) (s : State) : Host.Outcome State Fault Refusal :=
  run (fun c => c.coreOp core.val (.a .adda x)) s

/-- SUBA (R84). -/
def execSuba (core : CoreId) (x : AArgs) (s : State) : Host.Outcome State Fault Refusal :=
  run (fun c => c.coreOp core.val (.a .suba x)) s

/-- EXT (R84). -/
def execExt (core : CoreId) (x : AArgs) (s : State) : Host.Outcome State Fault Refusal :=
  run (fun c => c.coreOp core.val (.a .ext x)) s

/-- LDW (R93). -/
def execLdw (core : CoreId) (x : LArgs) (s : State) : Host.Outcome State Fault Refusal :=
  run (fun c => c.coreOp core.val (.l .ldw x)) s

/-- LDH (R92). -/
def execLdh (core : CoreId) (x : LArgs) (s : State) : Host.Outcome State Fault Refusal :=
  run (fun c => c.coreOp core.val (.l .ldh x)) s

/-- LDHU (R92). -/
def execLdhu (core : CoreId) (x : LArgs) (s : State) : Host.Outcome State Fault Refusal :=
  run (fun c => c.coreOp core.val (.l .ldhu x)) s

/-- LDB (R92). -/
def execLdb (core : CoreId) (x : LArgs) (s : State) : Host.Outcome State Fault Refusal :=
  run (fun c => c.coreOp core.val (.l .ldb x)) s

/-- LDBU (R92). -/
def execLdbu (core : CoreId) (x : LArgs) (s : State) : Host.Outcome State Fault Refusal :=
  run (fun c => c.coreOp core.val (.l .ldbu x)) s

/-- STW (R93). -/
def execStw (core : CoreId) (x : LArgs) (s : State) : Host.Outcome State Fault Refusal :=
  run (fun c => c.coreOp core.val (.l .stw x)) s

/-- STH (R92). -/
def execSth (core : CoreId) (x : LArgs) (s : State) : Host.Outcome State Fault Refusal :=
  run (fun c => c.coreOp core.val (.l .sth x)) s

/-- STB (R92). -/
def execStb (core : CoreId) (x : LArgs) (s : State) : Host.Outcome State Fault Refusal :=
  run (fun c => c.coreOp core.val (.l .stb x)) s

/-- STA (R93). -/
def execSta (core : CoreId) (x : LArgs) (s : State) : Host.Outcome State Fault Refusal :=
  run (fun c => c.coreOp core.val (.l .sta x)) s

/-- ADDR (R93). -/
def execAddr (core : CoreId) (x : LArgs) (s : State) : Host.Outcome State Fault Refusal :=
  run (fun c => c.coreOp core.val (.l .addr x)) s

/-- ADDRI (R93). -/
def execAddri (core : CoreId) (x : LArgs) (s : State) : Host.Outcome State Fault Refusal :=
  run (fun c => c.coreOp core.val (.l .addri x)) s

/-- LMOV (R93). -/
def execLmov (core : CoreId) (x : LArgs) (s : State) : Host.Outcome State Fault Refusal :=
  run (fun c => c.coreOp core.val (.l .lmov x)) s

/-- SEGRD (R93). -/
def execSegrd (core : CoreId) (x : LArgs) (s : State) : Host.Outcome State Fault Refusal :=
  run (fun c => c.coreOp core.val (.l .segrd x)) s

/-- SEGWR (R93). -/
def execSegwr (core : CoreId) (x : LArgs) (s : State) : Host.Outcome State Fault Refusal :=
  run (fun c => c.coreOp core.val (.l .segwr x)) s

/-- PTRADD (R93). -/
def execPtradd (core : CoreId) (x : LArgs) (s : State) : Host.Outcome State Fault Refusal :=
  run (fun c => c.coreOp core.val (.l .ptradd x)) s

/-- LOG2 (R95). -/
def execLog2 (core : CoreId) (x : XArgs) (s : State) : Host.Outcome State Fault Refusal :=
  run (fun c => c.coreOp core.val (.x .log2 x)) s

/-- EXP2 (R95). -/
def execExp2 (core : CoreId) (x : XArgs) (s : State) : Host.Outcome State Fault Refusal :=
  run (fun c => c.coreOp core.val (.x .exp2 x)) s

/-- SINCOS (R95). -/
def execSincos (core : CoreId) (x : XArgs) (s : State) : Host.Outcome State Fault Refusal :=
  run (fun c => c.coreOp core.val (.x .sincos x)) s

/-- TANH (R95). -/
def execTanh (core : CoreId) (x : XArgs) (s : State) : Host.Outcome State Fault Refusal :=
  run (fun c => c.coreOp core.val (.x .tanh x)) s

/-- IDIV (R96). -/
def execIdiv (core : CoreId) (x : XArgs) (s : State) : Host.Outcome State Fault Refusal :=
  run (fun c => c.coreOp core.val (.x .idiv x)) s

/-- IREM (R96). -/
def execIrem (core : CoreId) (x : XArgs) (s : State) : Host.Outcome State Fault Refusal :=
  run (fun c => c.coreOp core.val (.x .irem x)) s

/-- UDIV (R96). -/
def execUdiv (core : CoreId) (x : XArgs) (s : State) : Host.Outcome State Fault Refusal :=
  run (fun c => c.coreOp core.val (.x .udiv x)) s

/-- UREM (R96). -/
def execUrem (core : CoreId) (x : XArgs) (s : State) : Host.Outcome State Fault Refusal :=
  run (fun c => c.coreOp core.val (.x .urem x)) s

/-- FDIV (R96). -/
def execFdiv (core : CoreId) (x : XArgs) (s : State) : Host.Outcome State Fault Refusal :=
  run (fun c => c.coreOp core.val (.x .fdiv x)) s

/-- NOISE (R97). -/
def execNoise (core : CoreId) (x : XArgs) (s : State) : Host.Outcome State Fault Refusal :=
  run (fun c => c.coreOp core.val (.x .noise x)) s

/-- RAND (R97). -/
def execRand (core : CoreId) (x : XArgs) (s : State) : Host.Outcome State Fault Refusal :=
  run (fun c => c.coreOp core.val (.x .rand x)) s

/-- SEED (R97). -/
def execSeed (core : CoreId) (x : XArgs) (s : State) : Host.Outcome State Fault Refusal :=
  run (fun c => c.coreOp core.val (.x .seed x)) s

/-- GETSTATE (R97). -/
def execGetstate (core : CoreId) (x : XArgs) (s : State) : Host.Outcome State Fault Refusal :=
  run (fun c => c.coreOp core.val (.x .getstate x)) s

/-- INTERP4 (R98). -/
def execInterp4 (core : CoreId) (x : XArgs) (s : State) : Host.Outcome State Fault Refusal :=
  run (fun c => c.coreOp core.val (.x .interp4 x)) s

/-- INTERP6 (R98). -/
def execInterp6 (core : CoreId) (x : XArgs) (s : State) : Host.Outcome State Fault Refusal :=
  run (fun c => c.coreOp core.val (.x .interp6 x)) s

/-- NOP (R100). -/
def execNop (core : CoreId) (arg : BitVec 24) (s : State) : Host.Outcome State Fault Refusal :=
  run (fun c => c.coreOp core.val (.c .nop arg)) s

/-- WIN (R61). -/
def execWin (core : CoreId) (arg : BitVec 24) (s : State) : Host.Outcome State Fault Refusal :=
  run (fun c => c.coreOp core.val (.c .win arg)) s

/-- CALL (R61). -/
def execCall (core : CoreId) (arg : BitVec 24) (s : State) : Host.Outcome State Fault Refusal :=
  run (fun c => c.coreOp core.val (.c .call arg)) s

/-- RET (R61). -/
def execRet (core : CoreId) (arg : BitVec 24) (s : State) : Host.Outcome State Fault Refusal :=
  run (fun c => c.coreOp core.val (.c .ret arg)) s

/-- REP (R69). -/
def execRep (core : CoreId) (g : Bool) (arg : BitVec 24) (s : State) : Host.Outcome State Fault Refusal :=
  run (fun c => c.coreOp core.val (.c (if g then .repg else .rep) arg)) s

/-- TICKWAIT (R101). -/
def execTickwait (core : CoreId) (arg : BitVec 24) (s : State) : Host.Outcome State Fault Refusal :=
  run (fun c => c.coreOp core.val (.c .tickwait arg)) s

/-- B (R105). -/
def execB (core : CoreId) (x : BArgs) (s : State) : Host.Outcome State Fault Refusal :=
  run (fun c => c.coreCompact core.val (.branch .b x.rs x.off.toInt) 4) s

/-- BEQZ (R105). -/
def execBeqz (core : CoreId) (x : BArgs) (s : State) : Host.Outcome State Fault Refusal :=
  run (fun c => c.coreCompact core.val (.branch .beqz x.rs x.off.toInt) 4) s

/-- BNEZ (R105). -/
def execBnez (core : CoreId) (x : BArgs) (s : State) : Host.Outcome State Fault Refusal :=
  run (fun c => c.coreCompact core.val (.branch .bnez x.rs x.off.toInt) 4) s

/-- BLTZ (R105). -/
def execBltz (core : CoreId) (x : BArgs) (s : State) : Host.Outcome State Fault Refusal :=
  run (fun c => c.coreCompact core.val (.branch .bltz x.rs x.off.toInt) 4) s

/-- BGEZ (R105). -/
def execBgez (core : CoreId) (x : BArgs) (s : State) : Host.Outcome State Fault Refusal :=
  run (fun c => c.coreCompact core.val (.branch .bgez x.rs x.off.toInt) 4) s

/-- BGTZ (R105). -/
def execBgtz (core : CoreId) (x : BArgs) (s : State) : Host.Outcome State Fault Refusal :=
  run (fun c => c.coreCompact core.val (.branch .bgtz x.rs x.off.toInt) 4) s

/-- BLEZ (R105). -/
def execBlez (core : CoreId) (x : BArgs) (s : State) : Host.Outcome State Fault Refusal :=
  run (fun c => c.coreCompact core.val (.branch .blez x.rs x.off.toInt) 4) s

/-- JR (R105). -/
def execJr (core : CoreId) (x : BArgs) (s : State) : Host.Outcome State Fault Refusal :=
  run (fun c => c.coreCompact core.val (.branch .jr x.rs x.off.toInt) 4) s

/-- JAL (R105). -/
def execJal (core : CoreId) (x : BArgs) (s : State) : Host.Outcome State Fault Refusal :=
  run (fun c => c.coreCompact core.val (.branch .jal x.rs x.off.toInt) 4) s

/-- RESUME (R322). -/
def execResume (core : CoreId) (s : State) : Host.Outcome State Fault Refusal :=
  run (fun c => c.coreCompact core.val .resume 2) s

/-- EVWAIT (R324). -/
def execEvwait (core : CoreId) (s : State) : Host.Outcome State Fault Refusal :=
  run (fun c => c.coreCompact core.val .evwait 2) s

/-- INTERRUPT (R320). -/
def execInterrupt (core : CoreId) (s : State) : Host.Outcome State Fault Refusal :=
  run (fun c => c.coreInterrupt core.val) s

end Sys2Proof.Machine
end

