-- ==== Sys2Proof/Machine/RowsHost.lean ====
section
/-! DEFINITION. The rows of the control registers, mailboxes, bells and semaphores, and of the host ports (spec/14, spec/15). -/

namespace Sys2Proof.Machine

/-- HOST_IRQ_UPDATE (R326). -/
def execHostIrqUpdate (s : State) : Host.Outcome State Fault Refusal := run (fun c => c.irqUpdate) s

/-- CP_RESET (R328). -/
def execCpReset (m : Master) (v : Word) (s : State) : Host.Outcome State Fault Refusal :=
  run (fun c => c.writeWith m F.CP_CTRL_RESET 1 v) s

/-- MB_DATA_WRITE (R330). -/
def execMbDataWrite (m : Master) (mb : Fin 24) (k : Fin 16) (v : Word) (s : State) : Host.Outcome State Fault Refusal :=
  run (fun c => c.masterWrite m (Reg.MB_DATA mb.val k.val) v) s

/-- GO (R330). -/
def execGo (m : Master) (mb : Fin 24) (s : State) : Host.Outcome State Fault Refusal :=
  run (fun c => c.masterWrite m (Reg.MB_CTRL mb.val) 0x80000000) s

/-- ACK (R330). -/
def execAck (m : Master) (mb : Fin 24) (rc : BitVec 16) (s : State) : Host.Outcome State Fault Refusal :=
  run (fun c => c.masterWrite m (Reg.MB_ACK mb.val) (BitVec.ofNat 32 (2 ^ 31 + rc.toNat))) s

/-- WITHDRAW (R330). -/
def execWithdraw (m : Master) (mb : Fin 24) (s : State) : Host.Outcome State Fault Refusal :=
  run (fun c => c.masterWrite m (Reg.MB_CTRL mb.val) 0x40000000) s

/-- CLEAR (R330). -/
def execClear (m : Master) (mb : Fin 24) (s : State) : Host.Outcome State Fault Refusal :=
  run (fun c => c.masterWrite m (Reg.MB_CTRL mb.val) 0x20000000) s

/-- EPOCH_INC (R328). -/
def execEpochInc (m : Master) (mb : Fin 24) (s : State) : Host.Outcome State Fault Refusal :=
  run (fun c => c.masterWrite m (Reg.MB_CTRL mb.val) 0x10000000) s

/-- MB_TIMEOUT (R332). -/
def execMbTimeout (mb : Fin 24) (s : State) : Host.Outcome State Fault Refusal := run (fun c => c.mbTimeout mb.val) s

/-- BELL_RING (R337). -/
def execBellRing (m : Master) (g : Fin 8) (mask : Byte) (s : State) : Host.Outcome State Fault Refusal :=
  run (fun c => c.masterWrite m (Reg.BELL_RING g.val) (mask.setWidth 32)) s

/-- BELL_CLEAR (R337). -/
def execBellClear (m : Master) (g : Fin 8) (v : Word) (s : State) : Host.Outcome State Fault Refusal :=
  run (fun c => c.masterWrite m (Reg.BELL g.val) v) s

/-- SEM_ACQUIRE (R338). -/
def execSemAcquire (m : Master) (k : BitVec 6) (s : State) : Host.Outcome State Fault Refusal :=
  run (fun c => c.masterRead m (Reg.SEM k.toNat)) s

/-- SEM_RELEASE (R339). -/
def execSemRelease (m : Master) (k : BitVec 6) (s : State) : Host.Outcome State Fault Refusal :=
  run (fun c => c.masterWrite m Reg.SEM_REL (BitVec.ofNat 32 (2 ^ 31 + k.toNat))) s

/-- SEM_FORCE_RELEASE (R339). -/
def execSemForceRelease (m : Master) (k : BitVec 6) (s : State) : Host.Outcome State Fault Refusal :=
  run (fun c => c.masterWrite m Reg.SEM_REL (BitVec.ofNat 32 (2 ^ 30 + k.toNat))) s

/-- SPI_FRAME (R346). -/
def execSpiFrame (b : List Byte) (s : State) : Host.Outcome State Fault Refusal := run (fun c => c.spiFrame b) s

/-- I2C_WRITE (R350). -/
def execI2cWrite (addr : BitVec 7) (b : List Byte) (s : State) : Host.Outcome State Fault Refusal :=
  run (fun c => c.i2cWrite addr.toNat b) s

/-- I2C_READ (R350). -/
def execI2cRead (addr : BitVec 7) (i0 i1 : Byte) (n : Nat) (s : State) : Host.Outcome State Fault Refusal :=
  run (fun c => c.i2cRead addr.toNat i0 i1 n) s

/-- I2C_STUCK_BUS (R350). -/
def execI2cStuckBus (s : State) : Host.Outcome State Fault Refusal := run (fun c => c.i2cStuck) s

/-- I2C_ADDRESS_MATCH (R351). -/
def execI2cAddressMatch (addr : BitVec 7) (at_ : WakeAt) (s : State) : Host.Outcome State Fault Refusal :=
  run (fun c => c.i2cMatch addr.toNat at_) s

/-- USB_BUS_RESET (R353). -/
def execUsbBusReset (hs : Bool) (s : State) : Host.Outcome State Fault Refusal := run (fun c => c.usbBusReset hs) s

/-- USB_SUSPEND (R353). -/
def execUsbSuspend (s : State) : Host.Outcome State Fault Refusal := run (fun c => c.usbSuspend) s

/-- USB_RESUME (R423). -/
def execUsbResume (at_ : WakeAt) (s : State) : Host.Outcome State Fault Refusal := run (fun c => c.usbWake at_) s

/-- USB_STANDARD_REQUEST (R353). -/
def execUsbStandardRequest (q : UsbReq) (s : State) : Host.Outcome State Fault Refusal :=
  run (fun c => c.usbRequest q) s

/-- USB_OUT_PACKET (R355). -/
def execUsbOutPacket (b : List Byte) (s : State) : Host.Outcome State Fault Refusal := run (fun c => c.usbOutPacket b) s

/-- USB_IN_PACKET (R355). -/
def execUsbInPacket (collected : Bool) (s : State) : Host.Outcome State Fault Refusal :=
  run (fun c => c.usbInPacket collected) s

/-- USB_FEEDBACK (R355). -/
def execUsbFeedback (ticks : Nat) (s : State) : Host.Outcome State Fault Refusal := run (fun c => c.usbFeedback ticks) s

/-- USB_MIDI_OUT_PACKET (R356). -/
def execUsbMidiOutPacket (b : List Byte) (s : State) : Host.Outcome State Fault Refusal :=
  run (fun c => c.usbMidiOut b) s

/-- USB_MIDI_IN_PACKET (R356). -/
def execUsbMidiInPacket (s : State) : Host.Outcome State Fault Refusal := run (fun c => c.usbMidiIn) s

/-- USB_VENDOR_REQUEST (R357). -/
def execUsbVendorRequest (b : List Byte) (s : State) : Host.Outcome State Fault Refusal :=
  run (fun c => c.vendorRequest b) s

/-- USB_INTERRUPT_POLL (R357). -/
def execUsbInterruptPoll (clock : Bool) (s : State) : Host.Outcome State Fault Refusal :=
  run (fun c => c.interruptPoll clock) s

/-- RWAKE (R353). -/
def execRwake (m : Master) (v : Word) (s : State) : Host.Outcome State Fault Refusal :=
  run (fun c => c.writeWith m F.USB_CTRL_RWAKE 1 v) s

/-- MIDI_RX_BYTE (R359). -/
def execMidiRxByte (k : Fin 4) (b : Byte) (ferr : Bool) (time : BitVec 5)
    (s : State) : Host.Outcome State Fault Refusal :=
  run (fun c => c.midiRx k.val b ferr time.toNat) s

/-- MIDI_RX_POP (R359). -/
def execMidiRxPop (m : Master) (k : Fin 4) (s : State) : Host.Outcome State Fault Refusal :=
  run (fun c => c.masterRead m (Reg.MIDI_RX_B k.val)) s

/-- MIDI_TX_WRITE (R360). -/
def execMidiTxWrite (m : Master) (k : Fin 4) (v : Word) (s : State) : Host.Outcome State Fault Refusal :=
  run (fun c => c.masterWrite m (Reg.MIDI_TX k.val) v) s

/-- MIDI_TX_BYTE_SENT (R360). -/
def execMidiTxByteSent (k : Fin 4) (s : State) : Host.Outcome State Fault Refusal := run (fun c => c.midiSent k.val) s

end Sys2Proof.Machine
end

