-- ==== Sys2Proof/Machine/RowsLink.lean ====
section
/-! DEFINITION. The rows of the tandem unit, the serial ports, the router and the clocks (spec/09 to spec/12). -/

namespace Sys2Proof.Machine

/-- TANDEM_ENABLE (R203). -/
def execTandemEnable (m : Master) (v : Word) (s : State) : Host.Outcome State Fault Refusal :=
  run (fun c => c.writeWith m F.TLK_CFG_EN 1 v) s

/-- LINK_TRAINED (R197). -/
def execLinkTrained (s : State) : Host.Outcome State Fault Refusal := run (fun c => c.linkTrained) s

/-- NEGOTIATION_FRAME (R205). -/
def execNegotiationFrame (f : NegFrame) (acked : Bool) (s : State) : Host.Outcome State Fault Refusal :=
  run (fun c => c.negotiate f acked) s

/-- MARKER_STC_LOAD (R202). -/
def execMarkerStcLoad (s : State) : Host.Outcome State Fault Refusal := run (fun c => c.markerLoad) s

/-- TICK_FRAME_RECEIVE (R200). -/
def execTickFrameReceive (f : TFrame) (ok1 ok2 : Bool) (s : State) : Host.Outcome State Fault Refusal :=
  run (fun c => c.frameReceive f ok1 ok2) s

/-- SEGMENT_RECEIVE (R200). -/
def execSegmentReceive (n : BitVec 32) (items : List SegItem) (ok : Bool)
    (s : State) : Host.Outcome State Fault Refusal :=
  run (fun c => c.segReceive n.toNat items ok) s

/-- EXPRESS_GROUP_RECEIVE (R201). -/
def execExpressGroupReceive (tick : BitVec 32) (first : Byte) (words : List Word) (ok1 ok2 : Bool)
    (s : State) : Host.Outcome State Fault Refusal :=
  run (fun c => c.expressReceive tick.toNat first.toNat words ok1 ok2) s

/-- LINK_LOSS (R223). -/
def execLinkLoss (s : State) : Host.Outcome State Fault Refusal := run (fun c => c.linkLoss) s

/-- LEDGER_SUBMIT (R210). -/
def execLedgerSubmit (m : Master) (v : Word) (s : State) : Host.Outcome State Fault Refusal :=
  run (fun c => c.writeWith m F.TLK_LDG_CMD_SUBMIT 1 v) s

/-- TLK_KILL_IN (R215). -/
def execTlkKillIn (level : Bool) (s : State) : Host.Outcome State Fault Refusal := run (fun c => c.killIn level) s

/-- FORCE (R215). -/
def execForce (m : Master) (v : Word) (s : State) : Host.Outcome State Fault Refusal :=
  run (fun c => c.writeWith m F.TLK_LATCH_FORCE 1 v) s

/-- KILL_PARTNER (R215). -/
def execKillPartner (m : Master) (v : Word) (s : State) : Host.Outcome State Fault Refusal :=
  run (fun c => c.writeWith m F.TLK_LATCH_KILL_PARTNER 1 v) s

/-- LATCH_CLEAR (R221). -/
def execLatchClear (m : Master) (v : Word) (s : State) : Host.Outcome State Fault Refusal :=
  run (fun c => c.writeWith m F.TLK_LATCH_CLEAR 1 v) s

/-- CLOCK_FAILURE_RELEASE (R217). -/
def execClockFailureRelease (s : State) : Host.Outcome State Fault Refusal := run (fun c => c.clockFailure) s

/-- TLK_TICK_LOSS (R222). -/
def execTlkTickLoss (s : State) : Host.Outcome State Fault Refusal := run (fun c => c.tickLoss) s

/-- REJOIN_START (R226). -/
def execRejoinStart (m : Master) (v : Word) (s : State) : Host.Outcome State Fault Refusal :=
  run (fun c => c.writeWith m F.TLK_REJOIN_CTRL_START 1 v) s

/-- REJOIN_ABORT (R227). -/
def execRejoinAbort (m : Master) (v : Word) (s : State) : Host.Outcome State Fault Refusal :=
  run (fun c => c.writeWith m F.TLK_REJOIN_CTRL_ABORT 1 v) s

/-- REJOIN_SNAP (R226). -/
def execRejoinSnap (s : State) : Host.Outcome State Fault Refusal := run (fun c => c.rejoinSnap) s

/-- REJOIN_CATCHUP (R226). -/
def execRejoinCatchup (s : State) : Host.Outcome State Fault Refusal := run (fun c => c.rejoinCatchup) s

/-- REJOIN_SHADOW (R226). -/
def execRejoinShadow (s : State) : Host.Outcome State Fault Refusal := run (fun c => c.rejoinShadow) s

/-- REJOIN_DONE (R226). -/
def execRejoinDone (s : State) : Host.Outcome State Fault Refusal := run (fun c => c.rejoinDone) s

/-- SAP_START (R242). -/
def execSapStart (m : Master) (k : Fin 8) (v : Word) (s : State) : Host.Outcome State Fault Refusal :=
  run (fun c => c.writeWith m (F.SAP_CTRL_EN k.val) 1 v) s

/-- SAP_STOP (R242). -/
def execSapStop (m : Master) (k : Fin 8) (v : Word) (s : State) : Host.Outcome State Fault Refusal :=
  run (fun c => c.writeWith m (F.SAP_CTRL_EN k.val) 0 v) s

/-- RESTART (R238). -/
def execRestart (m : Master) (k : Fin 8) (v : Word) (s : State) : Host.Outcome State Fault Refusal :=
  run (fun c => c.writeWith m (F.SAP_CTRL_RESTART k.val) 1 v) s

/-- SAP_FRAME_RECEIVE (R236). -/
def execSapFrameReceive (k : Fin 8) (words : List Word) (count phase : Nat)
    (s : State) : Host.Outcome State Fault Refusal :=
  run (fun c => c.sapReceive k.val words count phase) s

/-- SAP_FRAME_TRANSMIT (R233). -/
def execSapFrameTransmit (k : Fin 8) (lane : List Word) (s : State) : Host.Outcome State Fault Refusal :=
  run (fun c => c.sapTransmit k.val lane) s

/-- SAP_CLOCK_LOST (R241). -/
def execSapClockLost (k : Fin 8) (s : State) : Host.Outcome State Fault Refusal := run (fun c => c.sapLost k.val) s

/-- SAP_RATE_MEASURED (R241). -/
def execSapRateMeasured (k : Fin 8) (dev : Int) (s : State) : Host.Outcome State Fault Refusal :=
  run (fun c => c.sapMeasured k.val dev) s

/-- ASRC_SETTLE (R246). -/
def execAsrcSettle (g : Fin 4) (rho : Word) (s : State) : Host.Outcome State Fault Refusal :=
  run (fun c => c.asrcSettle g.val rho.toNat) s

/-- ASRC_UNSETTLE (R247). -/
def execAsrcUnsettle (g : Fin 4) (why : Fin 4) (s : State) : Host.Outcome State Fault Refusal :=
  run (fun c => c.asrcUnsettle g.val (2 + why.val)) s

/-- MCLK_CHANGE (R248). -/
def execMclkChange (m : Master) (k : Fin 4) (v : Word) (s : State) : Host.Outcome State Fault Refusal :=
  run (fun c => c.masterWrite m (Reg.MCLK_CTRL k.val) v) s

/-- ROUTE_ENDPOINT_WRITE (R254). -/
def execRouteEndpointWrite (m : Master) (k : Fin 4096) (v : Word) (s : State) : Host.Outcome State Fault Refusal :=
  run (fun c => c.masterWrite m (Reg.RT_EP k.val) v) s

/-- ROUTE_COMMIT (R255). -/
def execRouteCommit (m : Master) (v : Word) (s : State) : Host.Outcome State Fault Refusal :=
  run (fun c => c.writeWith m F.RTR_COMMIT_COMMIT 1 v) s

/-- ROUTE_CANCEL (R255). -/
def execRouteCancel (m : Master) (v : Word) (s : State) : Host.Outcome State Fault Refusal :=
  run (fun c => c.writeWith m F.RTR_COMMIT_CANCEL 1 v) s

/-- ROUTE_COMMIT_EFFECT (R256). -/
def execRouteCommitEffect (s : State) : Host.Outcome State Fault Refusal := run (fun c => c.early 1 commitHit) s

/-- FADE_DONE (R258). -/
def execFadeDone (s : State) : Host.Outcome State Fault Refusal := run (fun c => c.early 1 fadeHit) s

/-- DC_TRIP (R261). -/
def execDcTrip (code : Byte) (s : State) : Host.Outcome State Fault Refusal := run (fun c => c.dcTrip code.toNat) s

/-- FAST_LANE_ACTIVATE (R262). -/
def execFastLaneActivate (j : Fin 16) (s : State) : Host.Outcome State Fault Refusal :=
  run (fun c => c.flActivate j.val) s

/-- METER_CONFIG_WRITE (R267). -/
def execMeterConfigWrite (m : Master) (k : Byte) (v : Word) (s : State) : Host.Outcome State Fault Refusal :=
  run (fun c => c.masterWrite m (Reg.MTR_CFG k.toNat) v) s

/-- SILENCE_ENTER (R269). -/
def execSilenceEnter (k : Byte) (s : State) : Host.Outcome State Fault Refusal :=
  run (fun c => c.silenceEnter k.toNat) s

/-- CLK_ECLK_COMMIT (R275). -/
def execClkEclkCommit (m : Master) (v : Word) (s : State) : Host.Outcome State Fault Refusal :=
  run (fun c => c.writeWith m F.CLK_ECLK_COMMIT 1 v) s

/-- CLK_ECLK_CANCEL (R275). -/
def execClkEclkCancel (m : Master) (v : Word) (s : State) : Host.Outcome State Fault Refusal :=
  run (fun c => c.writeWith m F.CLK_ECLK_CANCEL 1 v) s

/-- ECLK_CHANGE (R275). -/
def execEclkChange (s : State) : Host.Outcome State Fault Refusal := run (fun c => c.early 1 eclkHit) s

/-- SEED_LOAD (R274). -/
def execSeedLoad (m : Master) (v : Word) (s : State) : Host.Outcome State Fault Refusal :=
  run (fun c => c.writeWith m F.AUD_CFG_SEED_LOAD 1 v) s

/-- TRK_SOURCE_WRITE (R285). -/
def execTrkSourceWrite (m : Master) (v : Word) (s : State) : Host.Outcome State Fault Refusal :=
  run (fun c => c.masterWrite m Reg.TRK_CTRL v) s

/-- TRK_ACQUIRE (R278). -/
def execTrkAcquire (cRef perr : Int) (s : State) : Host.Outcome State Fault Refusal :=
  run (fun c => c.trkAcquire cRef perr) s

/-- TRK_LOCK (R278). -/
def execTrkLock (perr : Int) (s : State) : Host.Outcome State Fault Refusal := run (fun c => c.trkLock perr) s

/-- TRK_REFERENCE_LOSS (R279). -/
def execTrkReferenceLoss (why : BitVec 2) (s : State) : Host.Outcome State Fault Refusal :=
  run (fun c => c.refLoss why.toNat) s

/-- TRK_REF_BACK (R281). -/
def execTrkRefBack (cRef perr : Int) (s : State) : Host.Outcome State Fault Refusal :=
  run (fun c => c.trkRefBack cRef perr) s

/-- SLEW_COMPLETE (R281). -/
def execSlewComplete (s : State) : Host.Outcome State Fault Refusal := run (fun c => c.slewComplete) s

/-- SNAP (R282). -/
def execSnap (s : State) : Host.Outcome State Fault Refusal := run (fun c => c.early 1 snapHit) s

/-- SNAP_CMD (R282). -/
def execSnapCmd (m : Master) (v : Word) (s : State) : Host.Outcome State Fault Refusal :=
  run (fun c => c.writeWith m F.TRK_CTRL_SNAP 1 v) s

/-- TRK_C_DECAY (R285). -/
def execTrkCDecay (s : State) : Host.Outcome State Fault Refusal := run (fun c => c.early 1 decayHit) s

/-- SYS_RESTART (R286). -/
def execSysRestart (m : Master) (v : Word) (s : State) : Host.Outcome State Fault Refusal :=
  run (fun c => c.writeWith m F.CLK_CFG_SYS_RESTART 1 v) s

/-- SYSPLL_UNLOCK (R286). -/
def execSyspllUnlock (s : State) : Host.Outcome State Fault Refusal := run (fun c => c.sysRelock) s

/-- SYSPLL_LOCK (R286). -/
def execSyspllLock (s : State) : Host.Outcome State Fault Refusal := run (fun c => c.sysLocked) s

/-- SYSPLL_TIMEOUT (R286). -/
def execSyspllTimeout (s : State) : Host.Outcome State Fault Refusal := run (fun c => c.sysTimeout) s

/-- AUDPLL_UNLOCK (R287). -/
def execAudpllUnlock (s : State) : Host.Outcome State Fault Refusal := run (fun c => c.audUnlock) s

/-- AUDPLL_LOCK (R273). -/
def execAudpllLock (s : State) : Host.Outcome State Fault Refusal := run (fun c => c.audLocked) s

/-- AUDPLL_TIMEOUT (R287). -/
def execAudpllTimeout (s : State) : Host.Outcome State Fault Refusal := run (fun c => c.audTimeout) s

/-- XTAL_FAIL (R288). -/
def execXtalFail (s : State) : Host.Outcome State Fault Refusal := run (fun c => c.xtalFail) s

/-- XTAL_OK (R288). -/
def execXtalOk (s : State) : Host.Outcome State Fault Refusal := run (fun c => c.xtalOk) s

end Sys2Proof.Machine
end

