-- ==== Sys2Proof/Machine/RowsMem.lean ====
section
/-! DEFINITION. The rows of the memories, the streamer, pannier and glide, replay and the spare (spec/01, spec/05 to spec/08). -/

namespace Sys2Proof.Machine

/-- BUS_MEMORY_ACCESS (R450). -/
def execBusMemoryAccess (m : Master) (a : BitVec 32) (size : Fin 3) (data : Option Word) (same : Bool)
    (s : State) : Host.Outcome State Fault Refusal :=
  run (fun c => c.memAccess m a.toNat size.val data same) s

/-- EXT_WINDOW_ACCESS (R28); `link` says how the link carried a read's burst (R138). -/
def execExtWindowAccess (m : Master) (off : BitVec 31) (size : Fin 3) (data : Option Word) (link : Fin 3)
    (s : State) : Host.Outcome State Fault Refusal :=
  run (fun c => (c.memAccess m (2 ^ 31 + off.toNat) size.val data false).linkRead link.val) s

/-- FRONT_ROLE_WRITE (R157). -/
def execFrontRoleWrite (m : Master) (p : Fin 10) (w : BitVec 15) (v : Word)
    (s : State) : Host.Outcome State Fault Refusal :=
  run (fun c => c.masterWrite m (engBase p.val + 0x100000 + 4 * w.toNat) v) s

/-- PANNIER_ROLE_WRITE (R158). -/
def execPannierRoleWrite (m : Master) (p : Fin 10) (w : BitVec 15) (v : Word)
    (s : State) : Host.Outcome State Fault Refusal :=
  run (fun c => c.masterWrite m (engBase p.val + 0x120000 + 4 * w.toNat) v) s

/-- REGISTER_WRITE (R11). -/
def execRegisterWrite (m : Master) (a : BitVec 32) (v : Word) (s : State) : Host.Outcome State Fault Refusal :=
  run (fun c => c.masterWrite m a.toNat v) s

/-- CLEAR_ON_READ (R11). -/
def execClearOnRead (m : Master) (a : BitVec 32) (s : State) : Host.Outcome State Fault Refusal :=
  run (fun c => c.masterRead m a.toNat) s

/-- SEG_LEN_NEXT_WRITE (R122). -/
def execSegLenNextWrite (m : Master) (p : Fin 10) (i : Fin 16) (v : Word)
    (s : State) : Host.Outcome State Fault Refusal :=
  run (fun c => c.masterWrite m (Reg.ENG_SEG_LEN_NEXT p.val i.val) v) s

/-- ECC_WRITE_BACK (R128). -/
def execEccWriteBack (a : BitVec 32) (s : State) : Host.Outcome State Fault Refusal :=
  run (fun c => c.writeBack a.toNat) s

/-- SCRUB_READ (R129). -/
def execScrubRead (p : Fin 10) (bank : Fin 25) (s : State) : Host.Outcome State Fault Refusal :=
  run (fun c => c.scrubRead p.val bank.val) s

/-- SERAI_SCRUB_READ (R133). -/
def execSeraiScrubRead (bank : Fin 32) (s : State) : Host.Outcome State Fault Refusal :=
  run (fun c => c.seraiScrub bank.val) s

/-- SERAI_WRITE_BUFFER_DRAIN (R132). -/
def execSeraiWriteBufferDrain (p : Fin 10) (s : State) : Host.Outcome State Fault Refusal :=
  run (fun c => c.when (c.mayDrain p.val) (·.drainOne p.val)) s

/-- DDR_INIT (R136). -/
def execDdrInit (m : Master) (v : Word) (s : State) : Host.Outcome State Fault Refusal :=
  run (fun c => c.writeWith m F.DDR_CTRL_INIT 1 v) s

/-- DDR_TRAINING_COMPLETE (R136). -/
def execDdrTrainingComplete (fail : Fin 7) (s : State) : Host.Outcome State Fault Refusal :=
  run (fun c => c.ddrTrained fail.val) s

/-- DDR_REFRESH (R137): it takes the external bus for a time, and changes no state. -/
def execDdrRefresh (s : State) : Host.Outcome State Fault Refusal := run (fun c => c) s

/-- DDR_RETRAIN (R137): it takes the external bus for a time, and changes no state. -/
def execDdrRetrain (s : State) : Host.Outcome State Fault Refusal := run (fun c => c) s

/-- MR4_POLL (R137). -/
def execMr4Poll (code : BitVec 4) (above hot : Bool) (s : State) : Host.Outcome State Fault Refusal :=
  run (fun c => c.mr4Poll code.toNat above hot) s

/-- BURST_COMPLETE (R149). -/
def execBurstComplete (link : Fin 3) (s : State) : Host.Outcome State Fault Refusal :=
  run (fun c => c.burstComplete link.val) s

/-- STRM_LOAD (R142). -/
def execStrmLoad (m : Master) (v : Word) (s : State) : Host.Outcome State Fault Refusal :=
  run (fun c => c.writeWith m F.STRM_CMD_OP 1 v) s

/-- STRM_READ (R141). -/
def execStrmRead (m : Master) (v : Word) (s : State) : Host.Outcome State Fault Refusal :=
  run (fun c => c.writeWith m F.STRM_CMD_OP 2 v) s

/-- STRM_START (R152). -/
def execStrmStart (m : Master) (v : Word) (s : State) : Host.Outcome State Fault Refusal :=
  run (fun c => c.writeWith m F.STRM_CMD_OP 3 v) s

/-- STRM_STOP (R152). -/
def execStrmStop (m : Master) (v : Word) (s : State) : Host.Outcome State Fault Refusal :=
  run (fun c => c.writeWith m F.STRM_CMD_OP 4 v) s

/-- CLEAR_MISS (R141). -/
def execClearMiss (m : Master) (v : Word) (s : State) : Host.Outcome State Fault Refusal :=
  run (fun c => c.writeWith m F.STRM_CMD_OP 5 v) s

/-- SWAP_SLOT_ARM (R159). -/
def execSwapSlotArm (m : Master) (k : Fin 4) (v : Word) (s : State) : Host.Outcome State Fault Refusal :=
  run (fun c => c.writeWith m (F.SWAP_CTRL_ARM k.val) 1 v) s

/-- SWAP_SLOT_DISARM (R162). -/
def execSwapSlotDisarm (m : Master) (k : Fin 4) (v : Word) (s : State) : Host.Outcome State Fault Refusal :=
  run (fun c => c.writeWith m (F.SWAP_CTRL_DISARM k.val) 1 v) s

/-- SWAP_EXECUTE (R163). -/
def execSwapExecute (k : Fin 4) (s : State) : Host.Outcome State Fault Refusal :=
  run (fun c => if c.bit F.TICK_STATUS_RUNNING then c.early 3 (falls (F.SWAP_CTRL_ARMED k.val)) else c.swapStopped
    k.val) s

/-- COPY_FORWARD_DONE (R164). -/
def execCopyForwardDone (l : Fin 10) (s : State) : Host.Outcome State Fault Refusal :=
  run (fun c => c.copyForward l.val) s

/-- GLIDE_GO (R167). -/
def execGlideGo (m : Master) (ch : Fin 1024) (v : Word) (s : State) : Host.Outcome State Fault Refusal :=
  run (fun c => c.writeWith m (F.GLD_CTRL_GO ch.val) 1 v) s

/-- GLIDE_ADOPT (R168). -/
def execGlideAdopt (ch : Fin 1024) (s : State) : Host.Outcome State Fault Refusal :=
  run (fun c => c.early 4 (adoptHit ch.val)) s

/-- DETECTION (R181). -/
def execDetection (p : Fin 10) (code : BitVec 4) (late : Option (Fin 6))
    (s : State) : Host.Outcome State Fault Refusal :=
  run (fun c => c.detection p.val code.toNat (late.map Fin.val)) s

/-- MIGRATION_START (R189). -/
def execMigrationStart (m : Master) (v : Word) (s : State) : Host.Outcome State Fault Refusal :=
  run (fun c => c.writeWith m F.MIG_CTRL_START 1 v) s

/-- MIGRATION_ABORT (R191). -/
def execMigrationAbort (m : Master) (v : Word) (s : State) : Host.Outcome State Fault Refusal :=
  run (fun c => c.writeWith m F.MIG_CTRL_ABORT 1 v) s

/-- MIGRATION_SHADOW (R190). -/
def execMigrationShadow (s : State) : Host.Outcome State Fault Refusal := run (fun c => c.migCopied) s

/-- MIGRATION_SWAP (R190). -/
def execMigrationSwap (s : State) : Host.Outcome State Fault Refusal := run (fun c => c.early 1 migHit) s

/-- BIST_START (R192). -/
def execBistStart (m : Master) (v : Word) (s : State) : Host.Outcome State Fault Refusal :=
  run (fun c => c.writeWith m F.BIST_CTRL_START 1 v) s

/-- BIST_DONE (R192). -/
def execBistDone (at_ : BitVec 3) (addr : BitVec 18) (s : State) : Host.Outcome State Fault Refusal :=
  run (fun c => c.bistDone at_.toNat addr.toNat) s

/-- LOOP_START (R193). -/
def execLoopStart (m : Master) (v : Word) (s : State) : Host.Outcome State Fault Refusal :=
  run (fun c => c.writeWith m F.LOOP_CTRL_START 1 v) s

/-- LOOP_STOP (R193). -/
def execLoopStop (m : Master) (v : Word) (s : State) : Host.Outcome State Fault Refusal :=
  run (fun c => c.writeWith m F.LOOP_CTRL_STOP 1 v) s

/-- LOOP_DONE (R193). -/
def execLoopDone (s : State) : Host.Outcome State Fault Refusal := run (fun c => c.loopDone) s

end Sys2Proof.Machine
end

