-- ==== Sys2Proof/Machine/RowsNdo.lean ====
section
/-! DEFINITION. The rows of the commands that the CP firmware serves (spec/16): each serves the request in its mailbox where that is the row's command. -/

namespace Sys2Proof.Machine

open Chip

/-- The request has opcode `op`. -/
def ndOp (op : Nat) (q : NdReq) : Bool := q.op == op

/-- The request is a HELLO, or one whose opcode R371 does not list: HELLO's row refuses it. -/
def ndIsHello (q : NdReq) : Bool := q.op == 1 || (ndInfo q.op).isNone

/-- The request has opcode `op`, and bit `i` of its word 1 is `on`. -/
def ndForm (op i : Nat) (on : Bool) (q : NdReq) : Bool := q.op == op && bitAt (q.w 1) i == on

/-- The request is a TANDEM_PAIR whose lowest operation bit of word 3 is `i`; none for one that has none (R386). -/
def ndPairForm (i : Option Nat) (q : NdReq) : Bool :=
  q.op == 0x090 && ((List.range 6).find? fun k => bitAt (q.w 3) k) == i

/-- The request is a DIAG with SUBOP `k`; REG_READ, 1, also refuses the SUBOPs that do not exist. -/
def ndDiag (k : Nat) (q : NdReq) : Bool :=
  let sub := q.f 1 7 0
  q.op == 0x0F0 && (if 2 ≤ sub ∧ sub ≤ 6 then sub else 1) == k

/-- HELLO (R368). -/
def execHello (mb : Fin 24) (s : State) : Host.Outcome State Fault Refusal :=
  run (fun c => c.ndServeAs ndHelloHead ndIsHello ndHello mb.val) s

/-- READY_QUERY (R371). -/
def execReadyQuery (mb : Fin 24) (s : State) : Host.Outcome State Fault Refusal :=
  run (fun c => c.ndServe (ndOp 0x002) ndReady mb.val) s

/-- PROGRAM_LOAD (R372). -/
def execProgramLoad (mb : Fin 24) (img : Option (List ArsicEng)) (s : State) : Host.Outcome State Fault Refusal :=
  run (fun c => c.ndServe (ndOp 0x010) (ndLoad img) mb.val) s

/-- PROGRAM_INSTALL (R373). -/
def execProgramInstall (mb : Fin 24) (s : State) : Host.Outcome State Fault Refusal :=
  run (fun c => c.ndServe (ndOp 0x011) ndInstall mb.val) s

/-- PARAM_WRITE (R374). -/
def execParamWrite (mb : Fin 24) (s : State) : Host.Outcome State Fault Refusal :=
  run (fun c => c.ndServe (ndOp 0x020) ndParam mb.val) s

/-- SWAP_ARM (R375). -/
def execSwapArm (mb : Fin 24) (s : State) : Host.Outcome State Fault Refusal :=
  run (fun c => c.ndServe (ndForm 0x021 28 false) ndSwapArm mb.val) s

/-- SWAP_DISARM (R375). -/
def execSwapDisarm (mb : Fin 24) (s : State) : Host.Outcome State Fault Refusal :=
  run (fun c => c.ndServe (ndForm 0x021 28 true) ndSwapDisarm mb.val) s

/-- GLIDE_SET (R376). -/
def execGlideSet (mb : Fin 24) (s : State) : Host.Outcome State Fault Refusal :=
  run (fun c => c.ndServe (ndOp 0x022) ndGlide mb.val) s

/-- ROUTE_SET (R377). -/
def execRouteSet (mb : Fin 24) (s : State) : Host.Outcome State Fault Refusal :=
  run (fun c => c.ndServe (ndOp 0x030) ndRoute mb.val) s

/-- PORT_CONFIG (R378). -/
def execPortConfig (mb : Fin 24) (s : State) : Host.Outcome State Fault Refusal :=
  run (fun c => c.ndServe (ndOp 0x040) ndPort mb.val) s

/-- CLOCK_CONFIG (R379). -/
def execClockConfig (mb : Fin 24) (s : State) : Host.Outcome State Fault Refusal :=
  run (fun c => c.ndServe (ndOp 0x041) ndClock mb.val) s

/-- SENSE_CONFIG (R380). -/
def execSenseConfig (mb : Fin 24) (s : State) : Host.Outcome State Fault Refusal :=
  run (fun c => c.ndServe (ndOp 0x050) ndSense mb.val) s

/-- ACT_CONFIG (R381). -/
def execActConfig (mb : Fin 24) (s : State) : Host.Outcome State Fault Refusal :=
  run (fun c => c.ndServe (ndForm 0x051 31 false) ndAct mb.val) s

/-- CLEAR_TRIP (R381). -/
def execClearTrip (mb : Fin 24) (s : State) : Host.Outcome State Fault Refusal :=
  run (fun c => c.ndServe (ndForm 0x051 31 true) ndAct mb.val) s

/-- METER_READ (R382). -/
def execMeterRead (mb : Fin 24) (s : State) : Host.Outcome State Fault Refusal :=
  run (fun c => c.ndServe (ndOp 0x060) ndMeterRead mb.val) s

/-- EVENT_SUBSCRIBE (R383). -/
def execEventSubscribe (mb : Fin 24) (s : State) : Host.Outcome State Fault Refusal :=
  run (fun c => c.ndServe (ndOp 0x070) ndSubscribe mb.val) s

/-- NOTIFICATION (R384). -/
def execNotification (e : BitVec 7) (s : State) : Host.Outcome State Fault Refusal := run (fun c => c.ndEvent e.toNat) s

/-- DEFERRED_COMPLETION (R364). -/
def execDeferredCompletion (j : Nat) (bad : Bool) (s : State) : Host.Outcome State Fault Refusal :=
  runS (fun s => ndDeferred s j bad) s

/-- POWER_STATE (R385). -/
def execPowerState (mb : Fin 24) (s : State) : Host.Outcome State Fault Refusal :=
  run (fun c => c.ndServe (ndOp 0x080) ndPower mb.val) s

/-- TANDEM_PAIR (R386). -/
def execTandemPair (mb : Fin 24) (s : State) : Host.Outcome State Fault Refusal :=
  run (fun c => c.ndServe (ndPairForm none) ndPair mb.val) s

/-- REJOIN (R386). -/
def execRejoin (mb : Fin 24) (s : State) : Host.Outcome State Fault Refusal :=
  run (fun c => c.ndServe (ndPairForm (some 0)) ndPair mb.val) s

/-- ABORT_REJOIN (R386). -/
def execAbortRejoin (mb : Fin 24) (s : State) : Host.Outcome State Fault Refusal :=
  run (fun c => c.ndServe (ndPairForm (some 1)) ndPair mb.val) s

/-- CLEAR_LATCH (R386). -/
def execClearLatch (mb : Fin 24) (s : State) : Host.Outcome State Fault Refusal :=
  run (fun c => c.ndServe (ndPairForm (some 2)) ndPair mb.val) s

/-- MOVE (R386). -/
def execMove (mb : Fin 24) (s : State) : Host.Outcome State Fault Refusal :=
  run (fun c => c.ndServe (ndPairForm (some 3)) ndPair mb.val) s

/-- TANDEM_KILL_PARTNER (R386). -/
def execTandemKillPartner (mb : Fin 24) (s : State) : Host.Outcome State Fault Refusal :=
  run (fun c => c.ndServe (ndPairForm (some 4)) ndPair mb.val) s

/-- FORCE_LATCH (R386). -/
def execForceLatch (mb : Fin 24) (s : State) : Host.Outcome State Fault Refusal :=
  run (fun c => c.ndServe (ndPairForm (some 5)) ndPair mb.val) s

/-- TANDEM_STATUS (R386). -/
def execTandemStatus (mb : Fin 24) (s : State) : Host.Outcome State Fault Refusal :=
  run (fun c => c.ndServe (ndOp 0x091) ndTandemStatus mb.val) s

/-- UPDATE_STAGE (R387). -/
def execUpdateStage (mb : Fin 24) (bad : Bool) (s : State) : Host.Outcome State Fault Refusal :=
  run (fun c => c.ndServe (ndOp 0x0A0) (ndUpdate bad) mb.val) s

/-- COUNTER_ADVANCE (R388). -/
def execCounterAdvance (mb : Fin 24) (s : State) : Host.Outcome State Fault Refusal :=
  run (fun c => c.ndServe (ndOp 0x0A1) ndCounter mb.val) s

/-- REG_READ (R371). -/
def execRegRead (mb : Fin 24) (s : State) : Host.Outcome State Fault Refusal :=
  run (fun c => c.ndServe (ndDiag 1) ndRegRead mb.val) s

/-- REG_WRITE (R371). -/
def execRegWrite (mb : Fin 24) (s : State) : Host.Outcome State Fault Refusal :=
  run (fun c => c.ndServe (ndDiag 2) ndRegWrite mb.val) s

/-- MIGRATE (R371). -/
def execMigrate (mb : Fin 24) (s : State) : Host.Outcome State Fault Refusal :=
  run (fun c => c.ndServe (ndDiag 3) ndMigrate mb.val) s

/-- BIST (R371). -/
def execBist (mb : Fin 24) (s : State) : Host.Outcome State Fault Refusal :=
  run (fun c => c.ndServe (ndDiag 4) ndBist mb.val) s

/-- LOOP (R371). -/
def execLoop (mb : Fin 24) (s : State) : Host.Outcome State Fault Refusal :=
  run (fun c => c.ndServe (ndDiag 5) ndLoop mb.val) s

/-- COUNTERS (R371). -/
def execCounters (mb : Fin 24) (s : State) : Host.Outcome State Fault Refusal :=
  run (fun c => c.ndServe (ndDiag 6) ndCounters mb.val) s

end Sys2Proof.Machine
end

