-- ==== Sys2Proof/Machine/RowsPmu.lean ====
section
/-! DEFINITION. The rows of power management (spec/18). -/

namespace Sys2Proof.Machine

/-- SET (R415). -/
def execSet (m : Master) (v : Word) (s : State) : Host.Outcome State Fault Refusal :=
  run (fun c => c.writeOp m F.PMU_CMD_GO F.PMU_CMD_OP 1 v) s

/-- STANDBY (R415). -/
def execStandby (m : Master) (v : Word) (s : State) : Host.Outcome State Fault Refusal :=
  run (fun c => c.writeOp m F.PMU_CMD_GO F.PMU_CMD_OP 2 v) s

/-- WAKE (R415). -/
def execWake (m : Master) (v : Word) (s : State) : Host.Outcome State Fault Refusal :=
  run (fun c => c.writeOp m F.PMU_CMD_GO F.PMU_CMD_OP 3 v) s

/-- PREP_COMPLETE (R417). -/
def execPrepComplete (s : State) : Host.Outcome State Fault Refusal := run (fun c => c.prepComplete) s

/-- PREP_TIMEOUT (R417). -/
def execPrepTimeout (s : State) : Host.Outcome State Fault Refusal := run (fun c => c.prepTimeout) s

/-- WAKE_PIN (R423). -/
def execWakePin (level : Bool) (at_ : WakeAt) (s : State) : Host.Outcome State Fault Refusal :=
  run (fun c => c.wakePin level at_) s

/-- RTC_ALARM (R426). -/
def execRtcAlarm (at_ : WakeAt) (s : State) : Host.Outcome State Fault Refusal := run (fun c => c.rtcAlarm at_) s

/-- RTC_XTAL_FAIL (R426). -/
def execRtcXtalFail (s : State) : Host.Outcome State Fault Refusal := run (fun c => c.rtcXtalFail) s

/-- WAKE_SEQUENCE (R424). -/
def execWakeSequence (s : State) : Host.Outcome State Fault Refusal := run (fun c => c.wakeStart) s

/-- WAKE_STEP_READY (R424). -/
def execWakeStepReady (dt : Nat) (s : State) : Host.Outcome State Fault Refusal := run (fun c => c.wakeReady dt) s

/-- WAKE_STEP_TIMEOUT (R424). -/
def execWakeStepTimeout (s : State) : Host.Outcome State Fault Refusal := run (fun c => c.wakeTimeout) s

/-- PAD_HOLD_RELEASE (R419). -/
def execPadHoldRelease (m : Master) (v : Word) (s : State) : Host.Outcome State Fault Refusal :=
  run (fun c => c.masterWrite m Reg.PMU_PAD_HOLD v) s

/-- BROWN_OUT (R422). -/
def execBrownOut (sel : Bool) (s : State) : Host.Outcome State Fault Refusal := run (fun c => c.brownOut sel) s

/-- POWER_ON (R422). -/
def execPowerOn (sel : Bool) (s : State) : Host.Outcome State Fault Refusal := run (fun c => c.powerOn sel) s

/-- PIN_RESET (R432). -/
def execPinReset (s : State) : Host.Outcome State Fault Refusal := run (fun c => c.pinReset) s

end Sys2Proof.Machine
end

