-- ==== Sys2Proof/Machine/RowsSec.lean ====
section
/-! DEFINITION. The rows of boot, recovery and security (spec/17). -/

namespace Sys2Proof.Machine

/-- RECOVERY_HELLO (R404). -/
def execRecoveryHello (s : State) : Host.Outcome State Fault Refusal := run (fun c => c.recHello s.otp) s

/-- RECOVERY_LOAD (R404). -/
def execRecoveryLoad (s : State) : Host.Outcome State Fault Refusal :=
  run (fun c => if c.recAsked 0x10 then c.recLoad else c) s

/-- RECOVERY_CHECK (R404). -/
def execRecoveryCheck (s : State) : Host.Outcome State Fault Refusal :=
  run (fun c => if c.recAsked 0x11 then c.recCheck s.otp else c) s

/-- RECOVERY_WRITE (R404). -/
def execRecoveryWrite (bad : Bool) (s : State) : Host.Outcome State Fault Refusal :=
  run (fun c => if c.recAsked 0x12 then c.recWrite s.otp bad else c) s

/-- RECOVERY_BOOT (R404). -/
def execRecoveryBoot (s : State) : Host.Outcome State Fault Refusal :=
  run (fun c => if c.recAsked 0x13 then c.recBoot else c) s

/-- ENROL (R404). -/
def execEnrol (s : State) : Host.Outcome State Fault Refusal :=
  runS (fun s => if s.chip.recAsked 0x20 then recEnrol s else s) s

/-- LIFECYCLE (R404). -/
def execLifecycle (s : State) : Host.Outcome State Fault Refusal :=
  runS (fun s => if s.chip.recAsked 0x21 then recLifecycle s else s) s

/-- RECOVERY_REBOOT (R404). -/
def execRecoveryReboot (s : State) : Host.Outcome State Fault Refusal :=
  run (fun c => if c.recAsked 0x30 then c.recReboot else c) s

/-- BOOT_ROM_START (R396). -/
def execBootRomStart (bootsel : BitVec 2) (late : BitVec 2) (s : State) : Host.Outcome State Fault Refusal :=
  run (fun c => c.romBoot s.otp bootsel.toNat late.toNat) s

/-- KEY_LOCK (R395). -/
def execKeyLock (m : Master) (v : Word) (s : State) : Host.Outcome State Fault Refusal :=
  run (fun c => c.writeWith m F.SEC_CTRL_KEY_LOCK 1 v) s

/-- REBOOT (R389). -/
def execReboot (m : Master) (v : Word) (s : State) : Host.Outcome State Fault Refusal :=
  run (fun c => c.writeWith m F.SEC_CTRL_REBOOT 1 v) s

/-- ARB_SET (R402). -/
def execArbSet (m : Master) (v : Word) (s : State) : Host.Outcome State Fault Refusal :=
  run (fun c => c.writeOp m F.FUSE_CMD_GO F.FUSE_CMD_OP 1 v) s

/-- LC_ADVANCE (R409). -/
def execLcAdvance (m : Master) (v : Word) (s : State) : Host.Outcome State Fault Refusal :=
  run (fun c => c.writeOp m F.FUSE_CMD_GO F.FUSE_CMD_OP 2 v) s

/-- SLOT_PROG (R409). -/
def execSlotProg (m : Master) (v : Word) (s : State) : Host.Outcome State Fault Refusal :=
  run (fun c => c.writeOp m F.FUSE_CMD_GO F.FUSE_CMD_OP 3 v) s

/-- CIK_PROG (R409). -/
def execCikProg (m : Master) (v : Word) (s : State) : Host.Outcome State Fault Refusal :=
  run (fun c => c.writeOp m F.FUSE_CMD_GO F.FUSE_CMD_OP 4 v) s

/-- DUK_GEN (R409). -/
def execDukGen (m : Master) (v : Word) (s : State) : Host.Outcome State Fault Refusal :=
  run (fun c => c.writeOp m F.FUSE_CMD_GO F.FUSE_CMD_OP 5 v) s

/-- CEIL_PROG (R410). -/
def execCeilProg (m : Master) (v : Word) (s : State) : Host.Outcome State Fault Refusal :=
  run (fun c => c.writeOp m F.FUSE_CMD_GO F.FUSE_CMD_OP 6 v) s

/-- FUSE_OP_DONE (R409). -/
def execFuseOpDone (bad : BitVec 256) (s : State) : Host.Outcome State Fault Refusal :=
  runDone (fun s => fuseDone s bad) s

/-- SEAL (R406). -/
def execSeal (m : Master) (v : Word) (s : State) : Host.Outcome State Fault Refusal :=
  run (fun c => c.writeWith m F.SEC_REC_CTRL_SEAL 1 v) s

/-- SEAL_DONE (R406). -/
def execSealDone (s : State) : Host.Outcome State Fault Refusal := run (fun c => c.sealDone s.otp) s

/-- OSPI_READ (R390). -/
def execOspiRead (m : Master) (v : Word) (s : State) : Host.Outcome State Fault Refusal :=
  run (fun c => c.writeOp m F.OSPI_CMD_GO F.OSPI_CMD_OP 1 v) s

/-- OSPI_PROGRAM (R390). -/
def execOspiProgram (m : Master) (v : Word) (s : State) : Host.Outcome State Fault Refusal :=
  run (fun c => c.writeOp m F.OSPI_CMD_GO F.OSPI_CMD_OP 2 v) s

/-- OSPI_ERASE_4K (R390). -/
def execOspiErase4k (m : Master) (v : Word) (s : State) : Host.Outcome State Fault Refusal :=
  run (fun c => c.writeOp m F.OSPI_CMD_GO F.OSPI_CMD_OP 3 v) s

/-- OSPI_ERASE_64K (R390). -/
def execOspiErase64k (m : Master) (v : Word) (s : State) : Host.Outcome State Fault Refusal :=
  run (fun c => c.writeOp m F.OSPI_CMD_GO F.OSPI_CMD_OP 4 v) s

/-- OSPI_DONE (R390). -/
def execOspiDone (timeout : Bool) (s : State) : Host.Outcome State Fault Refusal :=
  runDone (fun s => { s with chip := s.chip.ospiDone timeout }) s

/-- DEBUG_ACCESS (R408). -/
def execDebugAccess (a : BitVec 32) (data : Option Word) (s : State) : Host.Outcome State Fault Refusal :=
  run (fun c => c.debugAccess a.toNat data) s

/-- JTAG_INSTRUCTION (R408). -/
def execJtagInstruction (i : Jtag) (s : State) : Host.Outcome State Fault Refusal := run (fun c => c.jtagSet i) s

end Sys2Proof.Machine
end

