-- ==== Sys2Proof/Machine/RowsSense.lean ====
section
/-! DEFINITION. The rows of the sense front end and the actuators (spec/13). -/

namespace Sys2Proof.Machine

/-- SENSE_SCAN_START (R294). -/
def execSenseScanStart (s : State) : Host.Outcome State Fault Refusal :=
  run (fun c => c.early 1 (rises F.SENSE_STATUS_RUNNING)) s

/-- SENSE_SCAN_STOP (R294). -/
def execSenseScanStop (m : Master) (v : Word) (s : State) : Host.Outcome State Fault Refusal :=
  run (fun c => c.writeWith m F.SENSE_CTRL_EN 0 v) s

/-- SENSE_CONVERSION (R296). -/
def execSenseConversion (codes : BitVec 256) (s : State) : Host.Outcome State Fault Refusal :=
  run (fun c => c.slotConvert codes) s

/-- ADC_MONITOR_FAULT (R299). -/
def execAdcMonitorFault (k : Fin 16) (bad : Bool) (s : State) : Host.Outcome State Fault Refusal :=
  run (fun c => c.adcMonitor k.val bad) s

/-- SENSE_READY (R305). -/
def execSenseReady (s : State) : Host.Outcome State Fault Refusal :=
  run (fun c => c.early 1 (rises F.SENSE_STATUS_READY)) s

/-- SENSE_CAL (R301). -/
def execSenseCal (m : Master) (v : Word) (s : State) : Host.Outcome State Fault Refusal :=
  run (fun c => c.writeWith m F.SENSE_CTRL_CAL 1 v) s

/-- SENSE_CAL_DONE (R301). -/
def execSenseCalDone (fail : BitVec 16) (s : State) : Host.Outcome State Fault Refusal :=
  run (fun c => c.senseCalDone fail.toNat) s

/-- SENSE_FIFO_POP (R304). -/
def execSenseFifoPop (m : Master) (k : Fin 2) (s : State) : Host.Outcome State Fault Refusal :=
  run (fun c => c.masterRead m (Reg.SENSE_FIFO_B k.val)) s

/-- AUX_CMP_CHANGE (R306). -/
def execAuxCmpChange (level : Bool) (s : State) : Host.Outcome State Fault Refusal := run (fun c => c.auxChange level) s

/-- ACT_ENABLE (R308). -/
def execActEnable (m : Master) (k : Fin 32) (v : Word) (s : State) : Host.Outcome State Fault Refusal :=
  run (fun c => c.writeWith m (F.ACT_CTRL_EN k.val) 1 v) s

/-- ACT_DISABLE (R308). -/
def execActDisable (m : Master) (k : Fin 32) (v : Word) (s : State) : Host.Outcome State Fault Refusal :=
  run (fun c => c.writeWith m (F.ACT_CTRL_EN k.val) 0 v) s

/-- ACT_PERIOD (R312). -/
def execActPeriod (k : Fin 32) (s : State) : Host.Outcome State Fault Refusal := run (fun c => c.actPeriod k.val) s

/-- ACT_DRIVER_FAULT (R314). -/
def execActDriverFault (g : Fin 4) (low : Bool) (s : State) : Host.Outcome State Fault Refusal :=
  run (fun c => c.actFault g.val low) s

/-- KILL (R314). -/
def execKill (m : Master) (v : Word) (s : State) : Host.Outcome State Fault Refusal :=
  run (fun c => c.writeWith m F.ACT_STATUS_KILL 1 v) s

/-- ACT_TRIP_CLEAR (R315). -/
def execActTripClear (m : Master) (v : Word) (s : State) : Host.Outcome State Fault Refusal :=
  run (fun c => c.masterWrite m Reg.ACT_TRIP v) s

/-- ACT_LIMIT_WRITE (R316). -/
def execActLimitWrite (m : Master) (k : Fin 32) (which : Fin 3) (v : Word)
    (s : State) : Host.Outcome State Fault Refusal :=
  run (fun c => c.masterWrite m (Reg.ACT_LIM k.val + 4 * which.val) v) s

end Sys2Proof.Machine
end

