-- ==== Sys2Proof/Machine/RowsTick.lean ====
section
/-! DEFINITION. The rows of the tick and of engine control (spec/02, spec/03). -/

namespace Sys2Proof.Machine

/-- PHASE_0 (R37). -/
def execPhase0 (deferred driveIn : Bool) (s : State) : Host.Outcome State Fault Refusal :=
  run (fun c => c.p0To 4 deferred driveIn) s

/-- PHASE_1 (R39). -/
def execPhase1 (s : State) : Host.Outcome State Fault Refusal := run (fun c => c.phase1) s

/-- PHASE_2 (R40). -/
def execPhase2 (s : State) : Host.Outcome State Fault Refusal := run (fun c => c.phase2) s

/-- TICK_RUN (R50). -/
def execTickRun (m : Master) (v : Word) (s : State) : Host.Outcome State Fault Refusal :=
  run (fun c => c.writeWith m F.TICK_CTRL_RUN 1 v) s

/-- TICK_STOP (R50). -/
def execTickStop (m : Master) (v : Word) (s : State) : Host.Outcome State Fault Refusal :=
  run (fun c => c.writeWith m F.TICK_CTRL_RUN 0 v) s

/-- STC_LOAD (R43). -/
def execStcLoad (m : Master) (v : Word) (s : State) : Host.Outcome State Fault Refusal :=
  run (fun c => c.writeWith m F.TICK_CTRL_STC_LOAD 1 v) s

/-- STC_LO_READ (R42). -/
def execStcLoRead (m : Master) (s : State) : Host.Outcome State Fault Refusal :=
  run (fun c => c.masterRead m Reg.STC_LO) s

/-- ALARM_EN (R44). -/
def execAlarmEn (m : Master) (v : Word) (s : State) : Host.Outcome State Fault Refusal :=
  run (fun c => c.writeWith m F.TICK_CTRL_ALARM_EN 1 v) s

/-- STC_ALARM (R44). -/
def execStcAlarm (s : State) : Host.Outcome State Fault Refusal :=
  run (fun c => c.early 1 (falls F.TICK_CTRL_ALARM_EN)) s

/-- CADENCE_COMMIT (R48). -/
def execCadenceCommit (m : Master) (v : Word) (s : State) : Host.Outcome State Fault Refusal :=
  run (fun c => c.writeWith m F.TICK_CADENCE_COMMIT 1 v) s

/-- CADENCE_CANCEL (R48). -/
def execCadenceCancel (m : Master) (v : Word) (s : State) : Host.Outcome State Fault Refusal :=
  run (fun c => c.writeWith m F.TICK_CADENCE_CANCEL 1 v) s

/-- CADENCE_CHANGE (R48). -/
def execCadenceChange (s : State) : Host.Outcome State Fault Refusal := run (fun c => c.early 1 cadenceHit) s

/-- HOLD_RELEASE (R47). -/
def execHoldRelease (m : Master) (v : Word) (s : State) : Host.Outcome State Fault Refusal :=
  run (fun c => c.masterWrite m Reg.TICK_HOLD v) s

/-- SOFT_RESET (R453). -/
def execSoftReset (m : Master) (p : Fin 10) (v : Word) (s : State) : Host.Outcome State Fault Refusal :=
  run (fun c => c.writeWith m (F.ENG_CTRL_SOFT_RESET p.val) 1 v) s

/-- HALT (R71). -/
def execHalt (m : Master) (p : Fin 10) (v : Word) (s : State) : Host.Outcome State Fault Refusal :=
  run (fun c => c.writeWith m (F.ENG_CTRL_HALT p.val) 1 v) s

/-- SETUP_GO (R71). -/
def execSetupGo (m : Master) (p : Fin 10) (v : Word) (s : State) : Host.Outcome State Fault Refusal :=
  run (fun c => c.writeWith m (F.ENG_CTRL_SETUP_GO p.val) 1 v) s

/-- TICK_EN (R71). -/
def execTickEn (m : Master) (p : Fin 10) (v : Word) (s : State) : Host.Outcome State Fault Refusal :=
  run (fun c => c.masterWrite m (Reg.ENG_CTRL p.val) v) s

/-- SCAN_COMPLETE (R72). -/
def execScanComplete (p : Fin 10) (s : State) : Host.Outcome State Fault Refusal :=
  run (fun c => c.scanComplete p.val) s

/-- REGFILE_WINDOW_WRITE (R73). -/
def execRegfileWindowWrite (m : Master) (p : Fin 10) (w : Fin 1024) (v : Word)
    (s : State) : Host.Outcome State Fault Refusal :=
  run (fun c => c.masterWrite m (engBase p.val + 0x181000 + 4 * w.val) v) s

/-- BUNDLE_ISSUE (R54). -/
def execBundleIssue (core : CoreId) (wait : Nat) (s : State) : Host.Outcome State Fault Refusal :=
  run (fun c => c.coreIssue core.val wait) s

end Sys2Proof.Machine
end

