-- ==== Sys2Proof/Machine/Meanings.lean ====
section
/-! DEFINITION. The meanings of all rows, in their files. -/
end

