-- ==== Sys2Proof/Machine/Dispatch.lean ====
section
/-! DEFINITION. One arm per command, each one call of its meaning. -/

namespace Sys2Proof.Machine

def exec (i : Instr) (s : State) : Host.Outcome State Fault Refusal :=
  match i with
  | .phase0 deferred driveIn => Sys2Proof.Machine.execPhase0 deferred driveIn s
  | .phase1 => Sys2Proof.Machine.execPhase1 s
  | .phase2 => Sys2Proof.Machine.execPhase2 s
  | .tickRun m v => Sys2Proof.Machine.execTickRun m v s
  | .tickStop m v => Sys2Proof.Machine.execTickStop m v s
  | .stcLoad m v => Sys2Proof.Machine.execStcLoad m v s
  | .stcLoRead m => Sys2Proof.Machine.execStcLoRead m s
  | .alarmEn m v => Sys2Proof.Machine.execAlarmEn m v s
  | .stcAlarm => Sys2Proof.Machine.execStcAlarm s
  | .cadenceCommit m v => Sys2Proof.Machine.execCadenceCommit m v s
  | .cadenceCancel m v => Sys2Proof.Machine.execCadenceCancel m v s
  | .cadenceChange => Sys2Proof.Machine.execCadenceChange s
  | .holdRelease m v => Sys2Proof.Machine.execHoldRelease m v s
  | .softReset m p v => Sys2Proof.Machine.execSoftReset m p v s
  | .halt m p v => Sys2Proof.Machine.execHalt m p v s
  | .setupGo m p v => Sys2Proof.Machine.execSetupGo m p v s
  | .tickEn m p v => Sys2Proof.Machine.execTickEn m p v s
  | .scanComplete p => Sys2Proof.Machine.execScanComplete p s
  | .regfileWindowWrite m p w v => Sys2Proof.Machine.execRegfileWindowWrite m p w v s
  | .bundleIssue core wait => Sys2Proof.Machine.execBundleIssue core wait s
  | .mpy core x => Sys2Proof.Machine.execMpy core x s
  | .mac core x => Sys2Proof.Machine.execMac core x s
  | .msu core x => Sys2Proof.Machine.execMsu core x s
  | .mpyn core x => Sys2Proof.Machine.execMpyn core x s
  | .addp core x => Sys2Proof.Machine.execAddp core x s
  | .add core x => Sys2Proof.Machine.execAdd core x s
  | .sub core x => Sys2Proof.Machine.execSub core x s
  | .addi core x => Sys2Proof.Machine.execAddi core x s
  | .neg core x => Sys2Proof.Machine.execNeg core x s
  | .abs core x => Sys2Proof.Machine.execAbs core x s
  | .and core x => Sys2Proof.Machine.execAnd core x s
  | .or core x => Sys2Proof.Machine.execOr core x s
  | .xor core x => Sys2Proof.Machine.execXor core x s
  | .andi core x => Sys2Proof.Machine.execAndi core x s
  | .ori core x => Sys2Proof.Machine.execOri core x s
  | .xori core x => Sys2Proof.Machine.execXori core x s
  | .not core x => Sys2Proof.Machine.execNot core x s
  | .shl core x => Sys2Proof.Machine.execShl core x s
  | .shr core x => Sys2Proof.Machine.execShr core x s
  | .sra core x => Sys2Proof.Machine.execSra core x s
  | .ror core x => Sys2Proof.Machine.execRor core x s
  | .shi core x => Sys2Proof.Machine.execShi core x s
  | .min core x => Sys2Proof.Machine.execMin core x s
  | .max core x => Sys2Proof.Machine.execMax core x s
  | .clz core x => Sys2Proof.Machine.execClz core x s
  | .cmp core x => Sys2Proof.Machine.execCmp core x s
  | .cmpi core x => Sys2Proof.Machine.execCmpi core x s
  | .sel core x => Sys2Proof.Machine.execSel core x s
  | .mov core x => Sys2Proof.Machine.execMov core x s
  | .movi core x => Sys2Proof.Machine.execMovi core x s
  | .movhi core x => Sys2Proof.Machine.execMovhi core x s
  | .rnd core x => Sys2Proof.Machine.execRnd core x s
  | .ash core x => Sys2Proof.Machine.execAsh core x s
  | .adda core x => Sys2Proof.Machine.execAdda core x s
  | .suba core x => Sys2Proof.Machine.execSuba core x s
  | .ext core x => Sys2Proof.Machine.execExt core x s
  | .ldw core x => Sys2Proof.Machine.execLdw core x s
  | .ldh core x => Sys2Proof.Machine.execLdh core x s
  | .ldhu core x => Sys2Proof.Machine.execLdhu core x s
  | .ldb core x => Sys2Proof.Machine.execLdb core x s
  | .ldbu core x => Sys2Proof.Machine.execLdbu core x s
  | .stw core x => Sys2Proof.Machine.execStw core x s
  | .sth core x => Sys2Proof.Machine.execSth core x s
  | .stb core x => Sys2Proof.Machine.execStb core x s
  | .sta core x => Sys2Proof.Machine.execSta core x s
  | .addr core x => Sys2Proof.Machine.execAddr core x s
  | .addri core x => Sys2Proof.Machine.execAddri core x s
  | .lmov core x => Sys2Proof.Machine.execLmov core x s
  | .segrd core x => Sys2Proof.Machine.execSegrd core x s
  | .segwr core x => Sys2Proof.Machine.execSegwr core x s
  | .ptradd core x => Sys2Proof.Machine.execPtradd core x s
  | .log2 core x => Sys2Proof.Machine.execLog2 core x s
  | .exp2 core x => Sys2Proof.Machine.execExp2 core x s
  | .sincos core x => Sys2Proof.Machine.execSincos core x s
  | .tanh core x => Sys2Proof.Machine.execTanh core x s
  | .idiv core x => Sys2Proof.Machine.execIdiv core x s
  | .irem core x => Sys2Proof.Machine.execIrem core x s
  | .udiv core x => Sys2Proof.Machine.execUdiv core x s
  | .urem core x => Sys2Proof.Machine.execUrem core x s
  | .fdiv core x => Sys2Proof.Machine.execFdiv core x s
  | .noise core x => Sys2Proof.Machine.execNoise core x s
  | .rand core x => Sys2Proof.Machine.execRand core x s
  | .seed core x => Sys2Proof.Machine.execSeed core x s
  | .getstate core x => Sys2Proof.Machine.execGetstate core x s
  | .interp4 core x => Sys2Proof.Machine.execInterp4 core x s
  | .interp6 core x => Sys2Proof.Machine.execInterp6 core x s
  | .nop core arg => Sys2Proof.Machine.execNop core arg s
  | .win core arg => Sys2Proof.Machine.execWin core arg s
  | .call core arg => Sys2Proof.Machine.execCall core arg s
  | .ret core arg => Sys2Proof.Machine.execRet core arg s
  | .rep core g arg => Sys2Proof.Machine.execRep core g arg s
  | .tickwait core arg => Sys2Proof.Machine.execTickwait core arg s
  | .b core x => Sys2Proof.Machine.execB core x s
  | .beqz core x => Sys2Proof.Machine.execBeqz core x s
  | .bnez core x => Sys2Proof.Machine.execBnez core x s
  | .bltz core x => Sys2Proof.Machine.execBltz core x s
  | .bgez core x => Sys2Proof.Machine.execBgez core x s
  | .bgtz core x => Sys2Proof.Machine.execBgtz core x s
  | .blez core x => Sys2Proof.Machine.execBlez core x s
  | .jr core x => Sys2Proof.Machine.execJr core x s
  | .jal core x => Sys2Proof.Machine.execJal core x s
  | .resume core => Sys2Proof.Machine.execResume core s
  | .evwait core => Sys2Proof.Machine.execEvwait core s
  | .interrupt core => Sys2Proof.Machine.execInterrupt core s
  | .busMemoryAccess m a size data same => Sys2Proof.Machine.execBusMemoryAccess m a size data same s
  | .extWindowAccess m off size data link => Sys2Proof.Machine.execExtWindowAccess m off size data link s
  | .frontRoleWrite m p w v => Sys2Proof.Machine.execFrontRoleWrite m p w v s
  | .pannierRoleWrite m p w v => Sys2Proof.Machine.execPannierRoleWrite m p w v s
  | .registerWrite m a v => Sys2Proof.Machine.execRegisterWrite m a v s
  | .clearOnRead m a => Sys2Proof.Machine.execClearOnRead m a s
  | .segLenNextWrite m p k v => Sys2Proof.Machine.execSegLenNextWrite m p k v s
  | .eccWriteBack a => Sys2Proof.Machine.execEccWriteBack a s
  | .scrubRead p bank => Sys2Proof.Machine.execScrubRead p bank s
  | .seraiScrubRead bank => Sys2Proof.Machine.execSeraiScrubRead bank s
  | .seraiWriteBufferDrain p => Sys2Proof.Machine.execSeraiWriteBufferDrain p s
  | .ddrInit m v => Sys2Proof.Machine.execDdrInit m v s
  | .ddrTrainingComplete fail => Sys2Proof.Machine.execDdrTrainingComplete fail s
  | .ddrRefresh => Sys2Proof.Machine.execDdrRefresh s
  | .ddrRetrain => Sys2Proof.Machine.execDdrRetrain s
  | .mr4Poll code above hot => Sys2Proof.Machine.execMr4Poll code above hot s
  | .burstComplete link => Sys2Proof.Machine.execBurstComplete link s
  | .strmLoad m v => Sys2Proof.Machine.execStrmLoad m v s
  | .strmRead m v => Sys2Proof.Machine.execStrmRead m v s
  | .strmStart m v => Sys2Proof.Machine.execStrmStart m v s
  | .strmStop m v => Sys2Proof.Machine.execStrmStop m v s
  | .clearMiss m v => Sys2Proof.Machine.execClearMiss m v s
  | .swapSlotArm m k v => Sys2Proof.Machine.execSwapSlotArm m k v s
  | .swapSlotDisarm m k v => Sys2Proof.Machine.execSwapSlotDisarm m k v s
  | .swapExecute k => Sys2Proof.Machine.execSwapExecute k s
  | .copyForwardDone l => Sys2Proof.Machine.execCopyForwardDone l s
  | .glideGo m ch v => Sys2Proof.Machine.execGlideGo m ch v s
  | .glideAdopt ch => Sys2Proof.Machine.execGlideAdopt ch s
  | .detection p code late => Sys2Proof.Machine.execDetection p code late s
  | .migrationStart m v => Sys2Proof.Machine.execMigrationStart m v s
  | .migrationAbort m v => Sys2Proof.Machine.execMigrationAbort m v s
  | .migrationShadow => Sys2Proof.Machine.execMigrationShadow s
  | .migrationSwap => Sys2Proof.Machine.execMigrationSwap s
  | .bistStart m v => Sys2Proof.Machine.execBistStart m v s
  | .bistDone at_ addr => Sys2Proof.Machine.execBistDone at_ addr s
  | .loopStart m v => Sys2Proof.Machine.execLoopStart m v s
  | .loopStop m v => Sys2Proof.Machine.execLoopStop m v s
  | .loopDone => Sys2Proof.Machine.execLoopDone s
  | .tandemEnable m v => Sys2Proof.Machine.execTandemEnable m v s
  | .linkTrained => Sys2Proof.Machine.execLinkTrained s
  | .negotiationFrame f acked => Sys2Proof.Machine.execNegotiationFrame f acked s
  | .markerStcLoad => Sys2Proof.Machine.execMarkerStcLoad s
  | .tickFrameReceive f ok1 ok2 => Sys2Proof.Machine.execTickFrameReceive f ok1 ok2 s
  | .segmentReceive n items ok => Sys2Proof.Machine.execSegmentReceive n items ok s
  | .expressGroupReceive tick first words ok1 ok2 => Sys2Proof.Machine.execExpressGroupReceive tick first words ok1 ok2 s
  | .linkLoss => Sys2Proof.Machine.execLinkLoss s
  | .ledgerSubmit m v => Sys2Proof.Machine.execLedgerSubmit m v s
  | .tlkKillIn level => Sys2Proof.Machine.execTlkKillIn level s
  | .force m v => Sys2Proof.Machine.execForce m v s
  | .killPartner m v => Sys2Proof.Machine.execKillPartner m v s
  | .latchClear m v => Sys2Proof.Machine.execLatchClear m v s
  | .clockFailureRelease => Sys2Proof.Machine.execClockFailureRelease s
  | .tlkTickLoss => Sys2Proof.Machine.execTlkTickLoss s
  | .rejoinStart m v => Sys2Proof.Machine.execRejoinStart m v s
  | .rejoinAbort m v => Sys2Proof.Machine.execRejoinAbort m v s
  | .rejoinSnap => Sys2Proof.Machine.execRejoinSnap s
  | .rejoinCatchup => Sys2Proof.Machine.execRejoinCatchup s
  | .rejoinShadow => Sys2Proof.Machine.execRejoinShadow s
  | .rejoinDone => Sys2Proof.Machine.execRejoinDone s
  | .sapStart m k v => Sys2Proof.Machine.execSapStart m k v s
  | .sapStop m k v => Sys2Proof.Machine.execSapStop m k v s
  | .restart m k v => Sys2Proof.Machine.execRestart m k v s
  | .sapFrameReceive k words count phase => Sys2Proof.Machine.execSapFrameReceive k words count phase s
  | .sapFrameTransmit k lane => Sys2Proof.Machine.execSapFrameTransmit k lane s
  | .sapClockLost k => Sys2Proof.Machine.execSapClockLost k s
  | .sapRateMeasured k dev => Sys2Proof.Machine.execSapRateMeasured k dev s
  | .asrcSettle g rho => Sys2Proof.Machine.execAsrcSettle g rho s
  | .asrcUnsettle g why => Sys2Proof.Machine.execAsrcUnsettle g why s
  | .mclkChange m k v => Sys2Proof.Machine.execMclkChange m k v s
  | .routeEndpointWrite m k v => Sys2Proof.Machine.execRouteEndpointWrite m k v s
  | .routeCommit m v => Sys2Proof.Machine.execRouteCommit m v s
  | .routeCancel m v => Sys2Proof.Machine.execRouteCancel m v s
  | .routeCommitEffect => Sys2Proof.Machine.execRouteCommitEffect s
  | .fadeDone => Sys2Proof.Machine.execFadeDone s
  | .dcTrip code => Sys2Proof.Machine.execDcTrip code s
  | .fastLaneActivate j => Sys2Proof.Machine.execFastLaneActivate j s
  | .meterConfigWrite m k v => Sys2Proof.Machine.execMeterConfigWrite m k v s
  | .silenceEnter k => Sys2Proof.Machine.execSilenceEnter k s
  | .clkEclkCommit m v => Sys2Proof.Machine.execClkEclkCommit m v s
  | .clkEclkCancel m v => Sys2Proof.Machine.execClkEclkCancel m v s
  | .eclkChange => Sys2Proof.Machine.execEclkChange s
  | .seedLoad m v => Sys2Proof.Machine.execSeedLoad m v s
  | .trkSourceWrite m v => Sys2Proof.Machine.execTrkSourceWrite m v s
  | .trkAcquire cRef perr => Sys2Proof.Machine.execTrkAcquire cRef perr s
  | .trkLock perr => Sys2Proof.Machine.execTrkLock perr s
  | .trkReferenceLoss why => Sys2Proof.Machine.execTrkReferenceLoss why s
  | .trkRefBack cRef perr => Sys2Proof.Machine.execTrkRefBack cRef perr s
  | .slewComplete => Sys2Proof.Machine.execSlewComplete s
  | .snap => Sys2Proof.Machine.execSnap s
  | .snapCmd m v => Sys2Proof.Machine.execSnapCmd m v s
  | .trkCDecay => Sys2Proof.Machine.execTrkCDecay s
  | .sysRestart m v => Sys2Proof.Machine.execSysRestart m v s
  | .syspllUnlock => Sys2Proof.Machine.execSyspllUnlock s
  | .syspllLock => Sys2Proof.Machine.execSyspllLock s
  | .syspllTimeout => Sys2Proof.Machine.execSyspllTimeout s
  | .audpllUnlock => Sys2Proof.Machine.execAudpllUnlock s
  | .audpllLock => Sys2Proof.Machine.execAudpllLock s
  | .audpllTimeout => Sys2Proof.Machine.execAudpllTimeout s
  | .xtalFail => Sys2Proof.Machine.execXtalFail s
  | .xtalOk => Sys2Proof.Machine.execXtalOk s
  | .senseScanStart => Sys2Proof.Machine.execSenseScanStart s
  | .senseScanStop m v => Sys2Proof.Machine.execSenseScanStop m v s
  | .senseConversion codes => Sys2Proof.Machine.execSenseConversion codes s
  | .adcMonitorFault k bad => Sys2Proof.Machine.execAdcMonitorFault k bad s
  | .senseReady => Sys2Proof.Machine.execSenseReady s
  | .senseCal m v => Sys2Proof.Machine.execSenseCal m v s
  | .senseCalDone fail => Sys2Proof.Machine.execSenseCalDone fail s
  | .senseFifoPop m k => Sys2Proof.Machine.execSenseFifoPop m k s
  | .auxCmpChange level => Sys2Proof.Machine.execAuxCmpChange level s
  | .actEnable m k v => Sys2Proof.Machine.execActEnable m k v s
  | .actDisable m k v => Sys2Proof.Machine.execActDisable m k v s
  | .actPeriod k => Sys2Proof.Machine.execActPeriod k s
  | .actDriverFault g low => Sys2Proof.Machine.execActDriverFault g low s
  | .kill m v => Sys2Proof.Machine.execKill m v s
  | .actTripClear m v => Sys2Proof.Machine.execActTripClear m v s
  | .actLimitWrite m k which v => Sys2Proof.Machine.execActLimitWrite m k which v s
  | .hostIrqUpdate => Sys2Proof.Machine.execHostIrqUpdate s
  | .cpReset m v => Sys2Proof.Machine.execCpReset m v s
  | .mbDataWrite m mb k v => Sys2Proof.Machine.execMbDataWrite m mb k v s
  | .go m mb => Sys2Proof.Machine.execGo m mb s
  | .ack m mb rc => Sys2Proof.Machine.execAck m mb rc s
  | .withdraw m mb => Sys2Proof.Machine.execWithdraw m mb s
  | .clear m mb => Sys2Proof.Machine.execClear m mb s
  | .epochInc m mb => Sys2Proof.Machine.execEpochInc m mb s
  | .mbTimeout mb => Sys2Proof.Machine.execMbTimeout mb s
  | .bellRing m g mask => Sys2Proof.Machine.execBellRing m g mask s
  | .bellClear m g v => Sys2Proof.Machine.execBellClear m g v s
  | .semAcquire m k => Sys2Proof.Machine.execSemAcquire m k s
  | .semRelease m k => Sys2Proof.Machine.execSemRelease m k s
  | .semForceRelease m k => Sys2Proof.Machine.execSemForceRelease m k s
  | .spiFrame b => Sys2Proof.Machine.execSpiFrame b s
  | .i2cWrite addr b => Sys2Proof.Machine.execI2cWrite addr b s
  | .i2cRead addr i0 i1 n => Sys2Proof.Machine.execI2cRead addr i0 i1 n s
  | .i2cStuckBus => Sys2Proof.Machine.execI2cStuckBus s
  | .i2cAddressMatch addr at_ => Sys2Proof.Machine.execI2cAddressMatch addr at_ s
  | .usbBusReset hs => Sys2Proof.Machine.execUsbBusReset hs s
  | .usbSuspend => Sys2Proof.Machine.execUsbSuspend s
  | .usbResume at_ => Sys2Proof.Machine.execUsbResume at_ s
  | .usbStandardRequest q => Sys2Proof.Machine.execUsbStandardRequest q s
  | .usbOutPacket b => Sys2Proof.Machine.execUsbOutPacket b s
  | .usbInPacket collected => Sys2Proof.Machine.execUsbInPacket collected s
  | .usbFeedback ticks => Sys2Proof.Machine.execUsbFeedback ticks s
  | .usbMidiOutPacket b => Sys2Proof.Machine.execUsbMidiOutPacket b s
  | .usbMidiInPacket => Sys2Proof.Machine.execUsbMidiInPacket s
  | .usbVendorRequest b => Sys2Proof.Machine.execUsbVendorRequest b s
  | .usbInterruptPoll clock => Sys2Proof.Machine.execUsbInterruptPoll clock s
  | .rwake m v => Sys2Proof.Machine.execRwake m v s
  | .midiRxByte k b ferr time => Sys2Proof.Machine.execMidiRxByte k b ferr time s
  | .midiRxPop m k => Sys2Proof.Machine.execMidiRxPop m k s
  | .midiTxWrite m k v => Sys2Proof.Machine.execMidiTxWrite m k v s
  | .midiTxByteSent k => Sys2Proof.Machine.execMidiTxByteSent k s
  | .hello mb => Sys2Proof.Machine.execHello mb s
  | .readyQuery mb => Sys2Proof.Machine.execReadyQuery mb s
  | .programLoad mb img => Sys2Proof.Machine.execProgramLoad mb img s
  | .programInstall mb => Sys2Proof.Machine.execProgramInstall mb s
  | .paramWrite mb => Sys2Proof.Machine.execParamWrite mb s
  | .swapArm mb => Sys2Proof.Machine.execSwapArm mb s
  | .swapDisarm mb => Sys2Proof.Machine.execSwapDisarm mb s
  | .glideSet mb => Sys2Proof.Machine.execGlideSet mb s
  | .routeSet mb => Sys2Proof.Machine.execRouteSet mb s
  | .portConfig mb => Sys2Proof.Machine.execPortConfig mb s
  | .clockConfig mb => Sys2Proof.Machine.execClockConfig mb s
  | .senseConfig mb => Sys2Proof.Machine.execSenseConfig mb s
  | .actConfig mb => Sys2Proof.Machine.execActConfig mb s
  | .clearTrip mb => Sys2Proof.Machine.execClearTrip mb s
  | .meterRead mb => Sys2Proof.Machine.execMeterRead mb s
  | .eventSubscribe mb => Sys2Proof.Machine.execEventSubscribe mb s
  | .notification e => Sys2Proof.Machine.execNotification e s
  | .deferredCompletion j bad => Sys2Proof.Machine.execDeferredCompletion j bad s
  | .powerState mb => Sys2Proof.Machine.execPowerState mb s
  | .tandemPair mb => Sys2Proof.Machine.execTandemPair mb s
  | .rejoin mb => Sys2Proof.Machine.execRejoin mb s
  | .abortRejoin mb => Sys2Proof.Machine.execAbortRejoin mb s
  | .clearLatch mb => Sys2Proof.Machine.execClearLatch mb s
  | .move mb => Sys2Proof.Machine.execMove mb s
  | .tandemKillPartner mb => Sys2Proof.Machine.execTandemKillPartner mb s
  | .forceLatch mb => Sys2Proof.Machine.execForceLatch mb s
  | .tandemStatus mb => Sys2Proof.Machine.execTandemStatus mb s
  | .updateStage mb bad => Sys2Proof.Machine.execUpdateStage mb bad s
  | .counterAdvance mb => Sys2Proof.Machine.execCounterAdvance mb s
  | .regRead mb => Sys2Proof.Machine.execRegRead mb s
  | .regWrite mb => Sys2Proof.Machine.execRegWrite mb s
  | .migrate mb => Sys2Proof.Machine.execMigrate mb s
  | .bist mb => Sys2Proof.Machine.execBist mb s
  | .loop mb => Sys2Proof.Machine.execLoop mb s
  | .counters mb => Sys2Proof.Machine.execCounters mb s
  | .recoveryHello => Sys2Proof.Machine.execRecoveryHello s
  | .recoveryLoad => Sys2Proof.Machine.execRecoveryLoad s
  | .recoveryCheck => Sys2Proof.Machine.execRecoveryCheck s
  | .recoveryWrite bad => Sys2Proof.Machine.execRecoveryWrite bad s
  | .recoveryBoot => Sys2Proof.Machine.execRecoveryBoot s
  | .enrol => Sys2Proof.Machine.execEnrol s
  | .lifecycle => Sys2Proof.Machine.execLifecycle s
  | .recoveryReboot => Sys2Proof.Machine.execRecoveryReboot s
  | .bootRomStart bootsel late => Sys2Proof.Machine.execBootRomStart bootsel late s
  | .keyLock m v => Sys2Proof.Machine.execKeyLock m v s
  | .reboot m v => Sys2Proof.Machine.execReboot m v s
  | .arbSet m v => Sys2Proof.Machine.execArbSet m v s
  | .lcAdvance m v => Sys2Proof.Machine.execLcAdvance m v s
  | .slotProg m v => Sys2Proof.Machine.execSlotProg m v s
  | .cikProg m v => Sys2Proof.Machine.execCikProg m v s
  | .dukGen m v => Sys2Proof.Machine.execDukGen m v s
  | .ceilProg m v => Sys2Proof.Machine.execCeilProg m v s
  | .fuseOpDone bad => Sys2Proof.Machine.execFuseOpDone bad s
  | .seal m v => Sys2Proof.Machine.execSeal m v s
  | .sealDone => Sys2Proof.Machine.execSealDone s
  | .ospiRead m v => Sys2Proof.Machine.execOspiRead m v s
  | .ospiProgram m v => Sys2Proof.Machine.execOspiProgram m v s
  | .ospiErase4k m v => Sys2Proof.Machine.execOspiErase4k m v s
  | .ospiErase64k m v => Sys2Proof.Machine.execOspiErase64k m v s
  | .ospiDone timeout => Sys2Proof.Machine.execOspiDone timeout s
  | .debugAccess a data => Sys2Proof.Machine.execDebugAccess a data s
  | .jtagInstruction code => Sys2Proof.Machine.execJtagInstruction code s
  | .set m v => Sys2Proof.Machine.execSet m v s
  | .standby m v => Sys2Proof.Machine.execStandby m v s
  | .wake m v => Sys2Proof.Machine.execWake m v s
  | .prepComplete => Sys2Proof.Machine.execPrepComplete s
  | .prepTimeout => Sys2Proof.Machine.execPrepTimeout s
  | .wakePin level at_ => Sys2Proof.Machine.execWakePin level at_ s
  | .rtcAlarm at_ => Sys2Proof.Machine.execRtcAlarm at_ s
  | .rtcXtalFail => Sys2Proof.Machine.execRtcXtalFail s
  | .wakeSequence => Sys2Proof.Machine.execWakeSequence s
  | .wakeStepReady dt => Sys2Proof.Machine.execWakeStepReady dt s
  | .wakeStepTimeout => Sys2Proof.Machine.execWakeStepTimeout s
  | .padHoldRelease m v => Sys2Proof.Machine.execPadHoldRelease m v s
  | .brownOut sel => Sys2Proof.Machine.execBrownOut sel s
  | .powerOn sel => Sys2Proof.Machine.execPowerOn sel s
  | .pinReset => Sys2Proof.Machine.execPinReset s

end Sys2Proof.Machine
end

