-- ==== Sys2Proof/Safety.lean ====
section
/-! DEFINITION. What claims say of steps: a block in which nothing waits for the end of a command, the registers a master
reaches, what a command leaves alone, and the invariants of the fuses and of the block's memories. -/

namespace Sys2Proof.Machine

/-- `t` can follow `s` in one step. -/
def steps (s t : State) : Prop := step s = .next t

/-- Nothing waits to be done at the end of a command: no migration that could lose its ground (R191), no wake request of a
mailbox post (R333), no fuse-backed register to load (R8). -/
abbrev Chip.Calm (c : Chip) : Prop := c.spare.mig = none ∧ c.mbWake = 0 ∧ c.fuseDue = 0

/-- Host port `id` writes the register at `a` through the window (R341, R343): the window holds it, not only for reading. -/
def Chip.portWrites (c : Chip) (id a : Nat) : Bool :=
  match c.windowOf id a with
  | some off => !(decide (0x400 ≤ off) && decide (off < 0x420)) && off != 0x500 &&
      !(decide (0x800 ≤ off) && decide (off < 0x820) && off != 0x80C)
  | none => false

/-- Master `m` writes the register at `a`: the two cores over the bus, where the register answers them and R214 does not
guard it; the debug port where the lifecycle lets it (R408); a host port through the window. -/
def Chip.writes (c : Chip) (m : Master) (a : Nat) : Bool :=
  match m with
  | .secp | .cp => c.regReached m.id a && !c.ledgerGuarded a
  | .debug => c.debugReaches a && c.regReached mDbg a
  | _ => c.portWrites m.id a

/-- The frame of a command: `t` is `s` but for the registers `keys` (and those only), for what the block `c'` shows beside
its registers, for the answer, and for the note that the summary of events has news (which an event raised among `keys`
sets). The fuses and the queue are as before. -/
structure Only (keys : List Nat) (s t : State) (c' : Chip) : Prop where
  otp : t.otp = s.otp
  pending : t.pending = s.pending
  regs : ∀ k, k ∉ keys → t.chip.reg k = s.chip.reg k
  rest : { t.chip with regs := c'.regs, resp := c'.resp, usb := { t.chip.usb with sumDue := c'.usb.sumDue } } = c'

/-- Host port `id` reads the register at `a` through the window, or master `m` over its own way. -/
def Chip.reads (c : Chip) (m : Master) (a : Nat) : Bool :=
  match m with
  | .secp | .cp => c.regReached m.id a
  | .debug => c.debugReaches a && c.regReached mDbg a
  | _ => (c.windowOf m.id a).isSome

/-- An access of master `m` to the aligned address `a` of the memory map finds the place it names, to write it if `write`:
the two cores over the bus, where R214 does not guard it; the debug port where the lifecycle lets it. -/
def Chip.finds (c : Chip) (m : Master) (a : Nat) (write : Bool) : Bool :=
  match m with
  | .secp | .cp => c.placeOpen m.id (c.place m.id a) && !(write && c.ledgerGuarded a)
  | .debug => c.debugReaches a && c.placeOpen mDbg (c.place mDbg a)
  | _ => false

/-- The bit of `f` is set after a command, and event `e` is pending where the bit was clear before it (R21, R325). -/
def Raised (f : Field) (e : Nat) (s t : State) : Prop :=
  t.chip.bit f = true ∧ (s.chip.bit f = false → t.chip.pends e = true)

/-- The same for bit `i` of a field. -/
def RaisedBit (f : Field) (i e : Nat) (s t : State) : Prop :=
  t.chip.fbit f i = true ∧ (s.chip.fbit f i = false → t.chip.pends e = true)

/-! ### Cores -/

/-- The core issues what is next: the CP or SECP runs and takes no interrupt now, an engine runs setup code (R70, R320,
R324). -/
def Chip.issues (c : Chip) (k : Nat) : Bool :=
  if 10 ≤ k then (c.auxOf k).run == .running && c.domOn k && !c.interruptDue k else c.engState k == 1

/-- The core issues what is next, no transfer waits for its delay bundle, no repeat is under way, and no earlier result is
in flight (R61, R63, R69). -/
def Chip.ready (c : Chip) (k : Nat) : Bool :=
  c.issues k && (c.core k).xfer.isNone && !(c.core k).repOn && (c.core k).flights.isEmpty

/-- The value of general register `sp` of core `k`. -/
def Chip.gpr (c : Chip) (k sp : Nat) : Word := BitVec.ofNat 32 ((c.core k).rd k sp)

/-- FLAGS of core `k` (R60). -/
def Chip.flagsOf (c : Chip) (k : Nat) : Nat := c.fld ⟨Reg.ENG_FLAGS k, 8, 0⟩

/-- One core cycle ages the accumulations that A and L see late, and FLAGS that became set are seen late (R65). -/
def Core.aged (r old : Core) (new : Nat) : Core :=
  { r with acc1 := old.acc, acc2 := old.acc1, acc3 := old.acc2, newFlags := new }

/-- What one issue of core `k` leaves: its registers are `r`, with its pc behind the instruction of four bytes; FLAGS has
gained `f`; the other cores are as before. -/
structure Issued (k f : Nat) (r : Core) (s t : State) : Prop where
  core : t.chip.core k = ({ r with pc := wrapPc k ((s.chip.core k).pc + 4 : Nat) } : Core).aged (s.chip.core k)
    (maskOff f (s.chip.flagsOf k))
  flags : t.chip.flagsOf k = s.chip.flagsOf k ||| f
  others : ∀ j, j < 12 → j ≠ k → t.chip.core j = s.chip.core j ∧ t.chip.auxOf j = s.chip.auxOf j
  aux : { t.chip.auxOf k with lastPc := 0, lastStore := none } = { s.chip.auxOf k with lastPc := 0, lastStore := none }

/-- Beside the cores an issue has changed nothing but FLAGS of core `k` and, on an engine, its event (R74). -/
def OnlyCore (k : Nat) (s t : State) : Prop :=
  Only [Reg.ENG_FLAGS k, Reg.EVT_PEND 1] s t { s.chip with cores := t.chip.cores, aux := t.chip.aux }

/-- Command `i` completes and writes `v` into general register `sp` of core `k`, with flags `f`, and changes nothing else. -/
def SetsGpr (i : Instr) (s : State) (k sp : Nat) (v : Word) (f : Nat) : Prop :=
  ∃ t, exec i s = .next t ∧ t.chip.gpr k sp = v ∧
    Issued k f ((s.chip.core k).setGpr (gprIx k (s.chip.core k) sp) v.toNat) s t ∧ OnlyCore k s t

/-- Command `i` completes on core `k` with the registers `r` and flags `f`. -/
def Leaves (i : Instr) (s : State) (k : Nat) (r : Core) (f : Nat) : Prop := 
  ∃ t, exec i s = .next t ∧ Issued k f r s t ∧ OnlyCore k s t

/-- The registers of a core apart from the copies that tell how long ago accumulations and FLAGS changed. -/
def Core.arch (r : Core) : Core := { r with acc1 := [], acc2 := [], acc3 := [], newFlags := 0 }

/-- The word, with its flags, that a read through segment `g` at offset `off` gives engine `p`: 0 with BOUND where the
offset is out of range (R79); the word of the engine's own memory (R118) where its check bits are good and no journaled
store covers it. None for a segment of another kind. -/
def Chip.ownWord (c : Chip) (p : Nat) (g : Seg) (off : Int) : Option (Word × Nat) :=
  let good := fun (a : Nat) => if c.eccOf a = 0 then some (c.peek a, 0) else none
  match g.index off with
  | none => some (0, 8)
  | some i =>
    match g.memCode with
    | 0 => if (c.auxOf p).journal.isEmpty then good (delayAddr p ((g.base + i) % 196608)) else none
    | 1 => good (c.frontAddr p ((g.base + i) % 32768))
    | 2 => good (relayAddr p ((g.base + i) % 256))
    | 3 => good (inputAddr p ((g.base + i) % 64))
    | 4 => good (senseAddr p ((g.base + i) % 1024))
    | _ => none

/-- The value of an M operand (R76, R81): bits 31:8 of the word as a signed number, with its fetch's flags. -/
def Chip.mVal (c : Chip) (k : Nat) (o : MOpd) : Option (Int × Nat) :=
  let top := fun (w : Word) => ((w >>> 8).setWidth 24).toInt
  match o with
  | .reg sp => if isGpr sp.toNat then some (top (c.gpr k sp.toNat), 0) else none
  | .mem sg imm => if k < 10 then (c.ownWord k ((c.core k).seg sg.toNat) imm.toNat).map fun r => (top r.1, r.2) else none
  | .step sg _ => if k < 10 then (c.ownWord k ((c.core k).seg sg.toNat) 0).map fun r => (top r.1, r.2) else none

/-- The registers after the post-modification of an M operand (R68). -/
def Core.stepped (r : Core) (o : MOpd) : Core :=
  match o with
  | .step sg st => r.setSeg sg.toNat ((r.seg sg.toNat).advance st.toInt)
  | _ => r

/-- The registers after the post-modification of a load or store (R68). -/
def Core.posted (r : Core) (sg : Nat) (post : Option Int) : Core :=
  match post with
  | some st => r.setSeg sg ((r.seg sg).advance st)
  | none => r

/-- What a load returns from the word holding it, at byte lane `lane` (R92, R104). -/
def loaded (op : LOp) (w : Word) (lane : Nat) : Word :=
  let r := w.rotateRight (8 * (lane % 4))
  match op with
  | .ldh => (r.setWidth 16).signExtend 32
  | .ldhu => (r.setWidth 16).setWidth 32
  | .ldb => (r.setWidth 8).signExtend 32
  | .ldbu => (r.setWidth 8).setWidth 32
  | _ => r

/-- A word after a store of the low `size` bytes of `v` at byte lane `lane` (R92, R104): byte `j` of the value goes to byte
`lane + j` modulo 4. -/
def patched (old v : Word) (size lane : Nat) : Word :=
  let pick := fun i => let j := (i + 4 - lane % 4) % 4; if j < size then byteOf v j else byteOf old i
  wordOf (pick 0) (pick 1) (pick 2) (pick 3)

/-- The word at `a` reads `w`, and every byte outside it is as before, with its zero tag and its check bits. -/
def Stores (a : Nat) (w : Word) (s t : State) : Prop :=
  t.chip.peek a = w ∧ ∀ b, b < a ∨ a + 4 ≤ b →
    t.chip.byte b = s.chip.byte b ∧ t.chip.tagged b = s.chip.tagged b ∧ t.chip.eccOf b = s.chip.eccOf b

/-- No byte of memory has changed, nor a zero tag, nor check bits. -/
def KeepsMem (s t : State) : Prop :=
  t.chip.mem = s.chip.mem ∧ t.chip.tags = s.chip.tags ∧ t.chip.ecc = s.chip.ecc ∧ t.chip.lost = s.chip.lost

/-- The same in external memory. -/
def StoresExt (a : Nat) (w : Word) (s t : State) : Prop :=
  t.chip.ddrWord a = w ∧ ∀ b, b < a ∨ a + 4 ≤ b → t.chip.ddrByte b = s.chip.ddrByte b

/-- Beside the cores and the memory of the map an issue has changed nothing but FLAGS of core `k`, an engine's event and
the VALID of a boot record whose region was written (R406). -/
def OnlyMem (k : Nat) (s t : State) : Prop :=
  Only [Reg.ENG_FLAGS k, Reg.EVT_PEND 1, Reg.SEC_REC_CTRL] s t
    { s.chip with cores := t.chip.cores, aux := t.chip.aux, mem := t.chip.mem, tags := t.chip.tags, ecc := t.chip.ecc }

/-- The syllable and the core of an operation row of spec/04. -/
def opRow : Instr → Option (CoreId × Syl)
  | .mpy core x => some (core, .m .mpy x)
  | .mac core x => some (core, .m .mac x)
  | .msu core x => some (core, .m .msu x)
  | .mpyn core x => some (core, .m .mpyn x)
  | .addp core x => some (core, .m .addp x)
  | .add core x => some (core, .a .add x)
  | .sub core x => some (core, .a .sub x)
  | .addi core x => some (core, .a .addi x)
  | .neg core x => some (core, .a .neg x)
  | .abs core x => some (core, .a .abs x)
  | .and core x => some (core, .a .and x)
  | .or core x => some (core, .a .or x)
  | .xor core x => some (core, .a .xor x)
  | .andi core x => some (core, .a .andi x)
  | .ori core x => some (core, .a .ori x)
  | .xori core x => some (core, .a .xori x)
  | .not core x => some (core, .a .not x)
  | .shl core x => some (core, .a .shl x)
  | .shr core x => some (core, .a .shr x)
  | .sra core x => some (core, .a .sra x)
  | .ror core x => some (core, .a .ror x)
  | .shi core x => some (core, .a .shi x)
  | .min core x => some (core, .a .min x)
  | .max core x => some (core, .a .max x)
  | .clz core x => some (core, .a .clz x)
  | .cmp core x => some (core, .a .cmp x)
  | .cmpi core x => some (core, .a .cmpi x)
  | .sel core x => some (core, .a .sel x)
  | .mov core x => some (core, .a .mov x)
  | .movi core x => some (core, .a .movi x)
  | .movhi core x => some (core, .a .movhi x)
  | .rnd core x => some (core, .a .rnd x)
  | .ash core x => some (core, .a .ash x)
  | .adda core x => some (core, .a .adda x)
  | .suba core x => some (core, .a .suba x)
  | .ext core x => some (core, .a .ext x)
  | .ldw core x => some (core, .l .ldw x)
  | .ldh core x => some (core, .l .ldh x)
  | .ldhu core x => some (core, .l .ldhu x)
  | .ldb core x => some (core, .l .ldb x)
  | .ldbu core x => some (core, .l .ldbu x)
  | .stw core x => some (core, .l .stw x)
  | .sth core x => some (core, .l .sth x)
  | .stb core x => some (core, .l .stb x)
  | .sta core x => some (core, .l .sta x)
  | .addr core x => some (core, .l .addr x)
  | .addri core x => some (core, .l .addri x)
  | .lmov core x => some (core, .l .lmov x)
  | .segrd core x => some (core, .l .segrd x)
  | .segwr core x => some (core, .l .segwr x)
  | .ptradd core x => some (core, .l .ptradd x)
  | .log2 core x => some (core, .x .log2 x)
  | .exp2 core x => some (core, .x .exp2 x)
  | .sincos core x => some (core, .x .sincos x)
  | .tanh core x => some (core, .x .tanh x)
  | .idiv core x => some (core, .x .idiv x)
  | .irem core x => some (core, .x .irem x)
  | .udiv core x => some (core, .x .udiv x)
  | .urem core x => some (core, .x .urem x)
  | .fdiv core x => some (core, .x .fdiv x)
  | .noise core x => some (core, .x .noise x)
  | .rand core x => some (core, .x .rand x)
  | .seed core x => some (core, .x .seed x)
  | .getstate core x => some (core, .x .getstate x)
  | .interp4 core x => some (core, .x .interp4 x)
  | .interp6 core x => some (core, .x .interp6 x)
  | .nop core arg => some (core, .c .nop arg)
  | .win core arg => some (core, .c .win arg)
  | .call core arg => some (core, .c .call arg)
  | .ret core arg => some (core, .c .ret arg)
  | .rep core g arg => some (core, .c (if g then .repg else .rep) arg)
  | .tickwait core arg => some (core, .c .tickwait arg)
  | _ => none

/-- The word and the flags of an exact result under R79: the result itself where it fits 32 bits, else OV with the nearest
word where results saturate and the low 32 bits where they do not. -/
def exact32 (sat : Bool) (x : Int) : Word × Nat :=
  if -(2 ^ 31) ≤ x ∧ x < 2 ^ 31 then (BitVec.ofInt 32 x, 0)
  else (if sat then (if x < 0 then 0x80000000 else 0x7FFFFFFF) else BitVec.ofInt 32 x, flagOv)

/-- The conditions of R86 by their code. -/
def meets (code : Nat) (a b : Word) : Bool :=
  match code with
  | 1 => a != b
  | 2 => a.slt b
  | 3 => a.sle b
  | 4 => b.slt a
  | 5 => b.sle a
  | 6 => a.ult b
  | 7 => a.ule b
  | 8 => b.ult a
  | 9 => b.ule a
  | _ => a == b

/-- An accumulator result: modulo 2^56, with GOV where it lies outside Q2.46 (R60, R78). -/
def exact56 (x : Int) : Nat × Nat :=
  ((x % 2 ^ 56).toNat, if -(2 ^ 47) ≤ BitVec.toInt (BitVec.ofInt 56 x) ∧ BitVec.toInt (BitVec.ofInt 56 x) < 2 ^ 47 then 0 else flagGov)

/-- One result of core registers `r` in flight: it lands `n` cycles after the issue's (R63, R64). -/
def Core.flying (r : Core) (n : Nat) (cls : Cls) (d : Dest) (v f : Nat) (at_ : Nat) : Core :=
  { r with flights := r.flights ++ [⟨n - 1, cls, d, v, f, at_⟩] }

/-- Effective address of the register-base form (R104). -/
def Chip.ea (c : Chip) (k : Nat) (x : LArgs) : Nat :=
  (c.gpr k (bits x.low.toNat 16 11) + (BitVec.ofNat 11 x.low.toNat).signExtend 32).toNat

/-! ### The CP firmware -/

/-- The firmware runs in the CP's present epoch, no answer of it waits, and no reply mailbox waits to be cleared (R363,
R366). -/
abbrev Chip.Quiet (c : Chip) : Prop :=
  c.Calm ∧ c.recovery = false ∧ c.domOn 10 = true ∧ c.ndo.epoch = c.fld (F.EPOCH_EPOCH mCp) ∧ c.ndo.out = [] ∧
    ∀ r ∈ [4, 5, 6, 7, 18, 19], c.mbState r ≠ 2

/-- It takes the request in host mailbox `m` now, and the reply mailbox is free (R361, R363, R365). -/
abbrev Chip.Due (c : Chip) (m : Nat) : Prop :=
  c.Quiet ∧ c.ndTurn m = true ∧ ∃ r ∈ replyBox m, c.mbState r = 0

/-- And the request is a new one, sent in its sender's present epoch (R366, R367). -/
abbrev Chip.New (c : Chip) (m : Nat) : Prop :=
  c.Due m ∧ c.ndStale (c.ndReq m) = false ∧ ∀ r ∈ c.ndo.recs, r.1 = m → r.2.q.same (c.ndReq m) = false

/-- And it has opcode `op`, whose checks of R368 to R371 pass. -/
abbrev Chip.Served (c : Chip) (m op : Nat) : Prop :=
  c.New m ∧ (c.ndReq m).op = op ∧ c.ndVerdict (c.ndReq m) = 0

/-- Word 0 of a message: MINOR and SEQ of `head`, LEN and OPCODE (R362). -/
def ndHead (head : Word) (len op : Nat) : Word := BitVec.ofNat 32 (head.toNat / 65536 * 65536 + len * 4096 + op)

/-- Registers that an answer to a request in mailbox `m` writes: its status and acknowledge, and with reply data the reply
mailbox. -/
def answerKeys (m : Nat) (data : Bool) : List Nat :=
  let r := (replyBox m).getD 0
  [Reg.MB_STATUS m, Reg.MB_ACK m, Reg.EVT_PEND 0] ++
    (if data then [Reg.MB_STATUS r, Reg.MB_STAMP r, Reg.MB_POST_TICK r, Reg.MB_GORES r + mCp * 2 ^ 32] ++
      (List.range 16).map (Reg.MB_DATA r) else [])

/-- Mailbox `r` holds a message: posted, with MINOR and SEQ of `head`, opcode `op` and payload `body` (R362, R363). -/
def Posts (r : Nat) (head : Word) (op : Nat) (body : List Word) (t : State) : Prop :=
  t.chip.mbState r = 1 ∧ t.chip.msg r 0 = ndHead head body.length op ∧
    ∀ k, k < body.length → t.chip.msg r (k + 1) = body.getD k 0

/-- The request in mailbox `m` has been acknowledged with `rc`, and its reply data are posted under `head`; the command
itself has made the block `c'`. Where it `ran`, the record of R367 is kept. -/
structure Answered (m : Nat) (head : Word) (rc : Nat) (body : Option (List Word)) (ran : Bool) (c' : Chip) (s t : State) :
    Prop where
  ack : t.chip.mbState m = 2 ∧ t.chip.fld (F.MB_ACK_RC m) = rc ∧ t.chip.pends m = true
  reply : ∀ b ∈ body, Posts ((replyBox m).getD 0) head (s.chip.ndReq m).op b t
  record : t.chip.ndo = { c'.ndo with recs := if ran then (c'.ndo.recs.filter (·.1 != m)) ++
    [(m, ⟨s.chip.ndReq m, rc, body.map fun b => ((s.chip.ndReq m).op, b)⟩)] else c'.ndo.recs }
  only : Only (answerKeys m body.isSome) { s with chip := c' } t { c' with ndo := t.chip.ndo }

/-- Command `i` serves the request in mailbox `m`: it acknowledges `rc` with the data `body` and leaves the block as `c'`,
with what follows at the end of a command. -/
def Answers (i : Instr) (m rc : Nat) (body : Option (List Word)) (c' : Chip) (s : State) : Prop :=
  ∃ t, exec i s = .next t ∧ Answered m (s.chip.msg m 0) rc body true (s.chip.follow c').migCheck s t

/-- Command `i` refuses the request in mailbox `m` with `rc`, and executes nothing. -/
def Refuses (i : Instr) (m rc : Nat) (s : State) : Prop :=
  ∃ t, exec i s = .next t ∧ Answered m (s.chip.msg m 0) rc none false s.chip s t

/-- Command `i` answers the request in mailbox `m` again as record `r` says, and executes nothing (R367). -/
def Repeats (i : Instr) (m : Nat) (r : NdRec) (s : State) : Prop :=
  ∃ t, exec i s = .next t ∧ Answered m (s.chip.msg m 0) r.rc (r.reply.map (·.2)) false s.chip s t

/-- Command `i` starts task `k` for the request in mailbox `m` and acknowledges ACCEPTED (R364); the block is `c'` beside. -/
def Accepts (i : Instr) (m : Nat) (k : NdTask) (body : Option (List Word)) (c' : Chip) (s : State) : Prop :=
  Answers i m 2 body (c'.modNdo fun n => { n with tasks := n.tasks ++ [k] }) s

/-- The row that serves request `q` of mailbox `m` (R371) is such that `P`. -/
def NdRow (m : Fin 24) (q : NdReq) (P : Instr → Prop) : Prop :=
  match q.op with
  | 0x002 => P (.readyQuery m)
  | 0x010 => ∀ img, P (.programLoad m img)
  | 0x011 => P (.programInstall m)
  | 0x020 => P (.paramWrite m)
  | 0x021 => if bitAt (q.w 1) 28 then P (.swapDisarm m) else P (.swapArm m)
  | 0x022 => P (.glideSet m)
  | 0x030 => P (.routeSet m)
  | 0x040 => P (.portConfig m)
  | 0x041 => P (.clockConfig m)
  | 0x050 => P (.senseConfig m)
  | 0x051 => if bitAt (q.w 1) 31 then P (.clearTrip m) else P (.actConfig m)
  | 0x060 => P (.meterRead m)
  | 0x070 => P (.eventSubscribe m)
  | 0x080 => P (.powerState m)
  | 0x090 =>
    match (List.range 6).find? fun k => bitAt (q.w 3) k with
    | some 0 => P (.rejoin m)
    | some 1 => P (.abortRejoin m)
    | some 2 => P (.clearLatch m)
    | some 3 => P (.move m)
    | some 4 => P (.tandemKillPartner m)
    | some 5 => P (.forceLatch m)
    | _ => P (.tandemPair m)
  | 0x091 => P (.tandemStatus m)
  | 0x0A0 => ∀ bad, P (.updateStage m bad)
  | 0x0A1 => P (.counterAdvance m)
  | 0x0F0 =>
    match q.f 1 7 0 with
    | 2 => P (.regWrite m)
    | 3 => P (.migrate m)
    | 4 => P (.bist m)
    | 5 => P (.loop m)
    | 6 => P (.counters m)
    | _ => P (.regRead m)
  | _ => P (.hello m)

/-- Bits blown in fuses `o` are blown in `o'`: no fuse bit is ever cleared (R402, R410), and the lifecycle goes forward
only (R409). -/
structure Otp.le (o o' : Otp) : Prop where
  lc : o.lc ≤ o'.lc
  arb : o.arb &&& o'.arb = o.arb
  cik : o.cik &&& o'.cik = o.cik
  duk : o.duk &&& o'.duk = o.duk
  ceil : ∀ k, Tab.get (fun _ => 0) o.ceil k &&& Tab.get (fun _ => 0) o'.ceil k = Tab.get (fun _ => 0) o.ceil k

/-- The canonical form of every byte table of the block (spec/01). -/
def Wf (s : State) : Prop := Memory.wf s.chip = true

end Sys2Proof.Machine
end

