-- ==== Sys2Proof/Certificates/Slice0/Obligations.lean ====
section
/-! DEFINITION. What is claimed of the block, for the provers: one proposition per claim. -/

open Sys2Proof Sys2Proof.Machine

/-- What reset leaves (R8): the registers at their reset values, engines in RESET, the tick stopped, memories in canonical
form. Memory that reads 0 is the model's choice (log entry 5). -/
def Obligations.resetState : Prop :=
  (State.reset.pending = [] ∧ State.reset.chip.mem = [] ∧ Memory.wf State.reset.chip = true ∧
    Memory.wf { State.reset.chip with mem := [], ddr := [] } = true) ∧
  (∀ (k : Nat), State.reset.chip.reg k = Reg.resetOf k ∧ State.reset.chip.byte (0x10000000 + k % 0x100000) = 0) ∧
  (∀ (p : Nat), p < 10 → State.reset.chip.engState p = 0 ∧ State.reset.chip.domOn p = true) ∧
  (State.reset.chip.bit F.TICK_CTRL_RUN = false ∧ State.reset.chip.tick.phase = .idle ∧ State.reset.chip.Calm)

/-- R50 (RUN), R43 (STC_LOAD), R42 (STC_LO), R44 (ALARM_EN), R47 (TICK_HOLD), with what each leaves alone. -/
def Obligations.tickControl : Prop :=
  (∀ (s : State) (m : Master) (v : Word),
    s.chip.Calm → s.chip.writes m Reg.TICK_CTRL = true → ∃ t, exec (.tickRun m v) s = .next t ∧
    t.chip.bit F.TICK_CTRL_RUN = true ∧ Only [Reg.TICK_CTRL] s t { s.chip with tick := t.chip.tick } ∧
    (bitAt v.toNat 2 = false → bitAt v.toNat 3 = false → t.chip.tick = s.chip.tick)) ∧
  (∀ (s : State) (m : Master) (v : Word),
    s.chip.Calm → s.chip.writes m Reg.TICK_CTRL = true → ∃ t, exec (.tickStop m v) s = .next t ∧
    t.chip.bit F.TICK_CTRL_RUN = false ∧
    (s.chip.tick.phase = .idle → t.chip.bit F.TICK_STATUS_RUNNING = false ∧ t.chip.bit F.TICK_STATUS_PAUSED = false)
      ∧
    (s.chip.tick.phase ≠ .idle ∨ s.chip.bit F.TICK_STATUS_RUNNING = false →
        Only [Reg.TICK_CTRL, Reg.TICK_STATUS] s t { s.chip with tick := t.chip.tick })) ∧
  (∀ (s : State) (m : Master) (v : Word),
    s.chip.Calm → s.chip.writes m Reg.TICK_CTRL = true → ∃ t, exec (.stcLoad m v) s = .next t ∧
    (
        let x := BitVec.ofNat 64 (s.chip.reg64 Reg.STC_LOAD_LO Reg.STC_LOAD_HI)
        if s.chip.halted = true ∧ s.chip.tick.phase = .idle then t.chip.tick.stc = x ∧
        t.chip.tick.load = none else t.chip.tick.stc = s.chip.tick.stc ∧ t.chip.tick.load = some x) ∧
    (bitAt v.toNat 0 = true → Only [Reg.TICK_CTRL] s t { s.chip with tick := t.chip.tick })) ∧
  (∀ (s : State) (m : Master),
    s.chip.Calm → s.chip.reads m Reg.STC_LO = true → ∃ t, exec (.stcLoRead m) s = .next t ∧
    t.chip.resp = .data (BitVec.ofNat 32 s.chip.now) ∧
    t.chip.readStcHi m.id = BitVec.ofNat 32 (s.chip.now / 2 ^ 32) ∧
    (∀ j, j ≠ m.id → t.chip.readStcHi j = s.chip.readStcHi j) ∧
    Only [] s t { s.chip with tick := { s.chip.tick with shadows := t.chip.tick.shadows } }) ∧
  (∀ (s : State) (m : Master) (v : Word),
    s.chip.Calm → s.chip.writes m Reg.TICK_CTRL = true → ∃ t, exec (.alarmEn m v) s = .next t ∧
    t.chip.bit F.TICK_CTRL_ALARM_EN = true ∧
    (s.chip.bit F.TICK_CTRL_ALARM_EN = false →
        t.chip.tick.alarm = BitVec.ofNat 64 (s.chip.reg64 Reg.STC_ALARM_LO Reg.STC_ALARM_HI) ∧
        t.chip.tick.alarmLate = decide (s.chip.reg64 Reg.STC_ALARM_LO Reg.STC_ALARM_HI ≤ s.chip.now)) ∧
    (s.chip.bit F.TICK_CTRL_ALARM_EN = true → t.chip.tick.alarm = s.chip.tick.alarm) ∧
    (bitAt v.toNat 0 = true → Only [Reg.TICK_CTRL] s t { s.chip with tick := t.chip.tick })) ∧
  (∀ (s : State) (m : Master) (v : Word),
    s.chip.Calm → s.chip.writes m Reg.TICK_HOLD = true → ∃ t, exec (.holdRelease m v) s = .next t ∧
    (∀ p, p < 10 → t.chip.fbit F.TICK_HOLD_HELD p = (s.chip.fbit F.TICK_HOLD_HELD p && !bitAt v.toNat p) ∧
        t.chip.engState p = if bitAt v.toNat p = true ∧ s.chip.engState p = 5 ∧
        s.chip.plen p ≤ s.chip.budget then 4 else s.chip.engState p) ∧
    Only (Reg.TICK_HOLD :: (List.range 10).map Reg.ENG_STATUS) s t s.chip)

/-- R48 (TICK_CADENCE) and R275 (CLK_ECLK): a commit becomes pending, a cancel withdraws it; the budgets of R45 follow. -/
def Obligations.cadenceCommands : Prop :=
  (∀ (s : State) (m : Master) (v : Word),
    s.chip.Calm → s.chip.writes m Reg.TICK_CADENCE = true → s.chip.bit F.TICK_STATUS_PAUSED = false →
    s.chip.bit F.TICK_CADENCE_PENDING = false → bitAt v.toNat 28 = false →
    s.chip.tick.phase ≠ .idle ∨ bits v.toNat 2 0 % 2 = s.chip.rate % 2 →
    ∃ t, exec (.cadenceCommit m v) s = .next t ∧ t.chip.bit F.TICK_CADENCE_PENDING = true ∧
    t.chip.rate = s.chip.rate ∧
    (t.chip.tick.cadence = if bitAt v.toNat 30 = true then some (bits v.toNat 2 0, (if s.chip.reg64
                  Reg.TICK_CHANGE_AT_LO Reg.TICK_CHANGE_AT_HI = 0 ∧
                s.chip.tick.phase = .p0 then s.chip.now + 1 else s.chip.reg64 Reg.TICK_CHANGE_AT_LO
                  Reg.TICK_CHANGE_AT_HI), decide
              (s.chip.reg64 Reg.TICK_CHANGE_AT_LO Reg.TICK_CHANGE_AT_HI ≤ s.chip.now)) else some
          (bits v.toNat 2 0, (if s.chip.tick.phase = .p0 then s.chip.now + 1 else 0), false)) ∧
    Only [Reg.TICK_CADENCE, Reg.TICK_BUDGET, Reg.TICK_PERIOD] s t
      { s.chip with tick := { s.chip.tick with cadence := t.chip.tick.cadence } }) ∧
  (∀ (s : State) (m : Master) (v : Word),
    s.chip.Calm → s.chip.writes m Reg.TICK_CADENCE = true → s.chip.bit F.TICK_STATUS_PAUSED = false →
    bitAt v.toNat 29 = false → ∃ t, exec (.cadenceCancel m v) s = .next t ∧
    t.chip.bit F.TICK_CADENCE_PENDING = false ∧ t.chip.tick.cadence = none ∧ t.chip.rate = s.chip.rate ∧
    Only [Reg.TICK_CADENCE, Reg.TICK_BUDGET, Reg.TICK_PERIOD] s t
      { s.chip with tick := { s.chip.tick with cadence := none } }) ∧
  (∀ (s : State) (m : Master) (v : Word),
    s.chip.Calm → s.chip.writes m Reg.CLK_ECLK = true → s.chip.bit F.CLK_ECLK_PENDING = false →
    bitAt v.toNat 28 = false → ∃ t, exec (.clkEclkCommit m v) s = .next t ∧
    (s.chip.bit F.TICK_STATUS_RUNNING = false ∧ s.chip.tick.phase = .idle → t.chip.eclkDiv = bits v.toNat 1 0 ∧
        t.chip.bit F.CLK_ECLK_PENDING = false) ∧
    (s.chip.bit F.TICK_STATUS_RUNNING = true ∨ s.chip.tick.phase ≠ .idle → t.chip.eclkDiv = s.chip.eclkDiv ∧
        t.chip.bit F.CLK_ECLK_PENDING = true ∧ (t.chip.tick.eclk.map fun x => x.1) = some (bits v.toNat 1 0) ∧
        Only [Reg.CLK_ECLK, Reg.TICK_BUDGET, Reg.TICK_PERIOD] s t
          { s.chip with tick := { s.chip.tick with eclk := t.chip.tick.eclk } })) ∧
  (∀ (s : State) (m : Master) (v : Word),
    s.chip.Calm → s.chip.writes m Reg.CLK_ECLK = true → bitAt v.toNat 29 = false →
    ∃ t, exec (.clkEclkCancel m v) s = .next t ∧ t.chip.eclkDiv = s.chip.eclkDiv ∧
    t.chip.bit F.CLK_ECLK_PENDING = false ∧ t.chip.tick.eclk = none ∧
    Only [Reg.CLK_ECLK, Reg.TICK_BUDGET, Reg.TICK_PERIOD] s t
      { s.chip with tick := { s.chip.tick with eclk := none } })

/-- The order of a tick (R37, R39, R40): phase 0 with the STC of R41 and R43, phase 1, phase 2 and the end of the tick. -/
def Obligations.tickPhases : Prop :=
  (∀ (s : State) (deferred driveIn : Bool),
    s.chip.Calm → s.chip.mayBegin = true → s.chip.catching = false →
    ∃ t, exec (.phase0 deferred driveIn) s = .next t ∧ t.chip.tick.phase = .p0 ∧ t.chip.tick.stage = 0 ∧
    t.chip.tick.stc = s.chip.tick.load.getD (s.chip.tick.stc + 1) ∧ t.chip.tick.load = none ∧
    t.chip.bit F.TICK_STATUS_RUNNING = true ∧ t.otp = s.otp ∧ t.pending = s.pending) ∧
  (∀ (s : State),
    s.chip.Calm → s.chip.tick.phase = .p0 → ∃ t, exec .phase1 s = .next t ∧ t.chip.tick.phase = .p1 ∧
    (s.chip.tick.stage = 0 → Only [] s t { s.chip with tick := { s.chip.tick with phase := .p1 } })) ∧
  (∀ (s : State),
    s.chip.Calm → s.chip.tick.phase = .p1 → ∃ t, exec .phase2 s = .next t ∧ t.chip.tick.phase = .idle ∧
    t.chip.tick.held = 0 ∧ t.pending = s.pending) ∧
  (∀ (s : State),
    s.chip.Calm → (s.chip.tick.phase ≠ .p0 → ∃ t, exec .phase1 s = .next t ∧ Only [] s t s.chip) ∧
    (s.chip.tick.phase ≠ .p1 → ∃ t, exec .phase2 s = .next t ∧ Only [] s t s.chip))

/-- Each of these events happens in phase-0 cycle 0 (log entry 8: its row takes phase 0 that far where the event then
happens). -/
def Obligations.cycle0Events : Prop :=
  (∀ (s : State),
    s.chip.Calm → s.chip.mayBegin = true → s.chip.catching = false → s.chip.tick.load = none →
    s.chip.now + 1 < 2 ^ 64 → s.chip.bit F.TICK_CTRL_ALARM_EN = true →
    s.chip.tick.alarm.toNat ≤ s.chip.now + 1 ∨ s.chip.tick.alarmLate = true → ∃ t, exec .stcAlarm s = .next t ∧
    t.chip.bit F.TICK_CTRL_ALARM_EN = false ∧ t.chip.pends 54 = true ∧ t.chip.now = s.chip.now + 1 ∧
    (s.chip.tick.alarm.toNat ≤ s.chip.now ∨ s.chip.tick.alarmLate = true →
        t.chip.bit F.TICK_STATUS_ALARM_LATE = true)) ∧
  (∀ (s : State) (code T : Nat) (late : Bool),
    s.chip.Calm → s.chip.mayBegin = true → s.chip.catching = false → s.chip.tick.load = none →
    s.chip.now + 1 < 2 ^ 64 → code < 8 → s.chip.tick.cadence = some (code, T, late) → s.chip.tick.family = none →
    T ≤ s.chip.now + 1 → code % 2 = s.chip.rate % 2 → ∃ t, exec .cadenceChange s = .next t ∧ t.chip.rate = code ∧
    t.chip.tick.cadence = none ∧ t.chip.bit F.TICK_CADENCE_PENDING = false ∧
    (late = true → t.chip.bit F.TICK_STATUS_CHG_LATE = true ∧ t.chip.pends 53 = true)) ∧
  (∀ (s : State) (code T : Nat) (late : Bool),
    s.chip.Calm → s.chip.mayBegin = true → s.chip.catching = false → s.chip.tick.load = none →
    s.chip.now + 1 < 2 ^ 64 → code < 4 → s.chip.tick.eclk = some (code, T, late) → T ≤ s.chip.now + 1 →
    ∃ t, exec .eclkChange s = .next t ∧ t.chip.eclkDiv = code ∧ t.chip.tick.eclk = none ∧
    t.chip.bit F.CLK_ECLK_PENDING = false) ∧
  (∀ (s : State) (n T : Nat) (law late : Bool),
    s.chip.Calm → s.chip.mayBegin = true → s.chip.catching = false → s.chip.tick.load = none →
    s.chip.now + 1 < 2 ^ 64 → s.chip.rtr.pend = some (n, law, T, late) → T ≤ s.chip.now + 1 →
    ∃ t, exec .routeCommitEffect s = .next t ∧ t.chip.rtr.pend = none ∧ t.chip.bit F.RTR_COMMIT_PENDING = false ∧
    t.chip.rtr.j = 1 ∧ t.chip.rtr.n = n ∧ t.chip.rtr.law = law ∧
    (∀ k, k < 4096 → (t.chip.route k).old = (s.chip.route k).cur ∧ (t.chip.route k).tgt = s.chip.staged k)) ∧
  (∀ (s : State),
    s.chip.Calm → s.chip.mayBegin = true → s.chip.catching = false → s.chip.rtr.pend = none → 0 < s.chip.rtr.j →
    s.chip.rtr.n = s.chip.rtr.j + 1 → ∃ t, exec .fadeDone s = .next t ∧ t.chip.rtr.j = t.chip.rtr.n ∧
    t.chip.bit F.RTR_STATUS_FADING = false ∧ Raised F.RTR_STATUS_DONE 72 s t) ∧
  (∀ (s : State),
    s.chip.Calm → s.chip.mayBegin = true → s.chip.catching = false → s.chip.tlkState = 0 → s.chip.tick.load = none →
    s.chip.now + 1 < 2 ^ 64 → s.chip.trkState = 5 → s.chip.clk.slewed = false → s.chip.fld F.TRK_CTRL_RET = 3 ∧
    s.chip.clk.snapReq = true ∨ s.chip.fld F.TRK_CTRL_RET = 2 ∧
    s.chip.reg64 Reg.TRK_SNAP_AT_LO Reg.TRK_SNAP_AT_HI ≤ s.chip.now + 1 → ∃ t, exec .snap s = .next t ∧
    t.chip.clk.slewed = true ∧ t.chip.clk.snapReq = false ∧ t.chip.bit F.WCLK_CTRL_RUNNING = false ∧
    Raised F.TRK_STATUS_SNAPPED 79 s t) ∧
  (∀ (s : State),
    s.chip.Calm → s.chip.mayBegin = true → s.chip.catching = false → s.chip.tlkState = 0 → s.chip.trkState = 0 →
    1024 ≤ s.chip.clk.offTicks → ∃ t, exec .trkCDecay s = .next t ∧
    t.chip.cval = Chip.cLimit
      (if 0 < s.chip.cval then s.chip.cval - 1 else if s.chip.cval < 0 then s.chip.cval + 1 else 0)) ∧
  (∀ (s : State) (src sp : Nat),
    s.chip.mbWake = 0 → s.chip.fuseDue = 0 → s.chip.mayBegin = true → s.chip.catching = false →
    s.chip.tick.load = none → s.chip.now + 1 < 2 ^ 64 → s.chip.spare.mig = some (src, sp) → src < 10 → sp < 10 →
    s.chip.logi sp ≠ src → s.chip.fld F.MIG_STATUS_PHASE = 2 →
    s.chip.reg64 Reg.MIG_AT_LO Reg.MIG_AT_HI ≤ s.chip.now + 1 →
    max 1 (s.chip.fld F.MIG_CTRL_CLEAN) ≤ s.chip.fld F.MIG_STATUS_CLEAN_CNT → ∃ t, exec .migrationSwap s = .next t ∧
    t.chip.spare.mig = none ∧ t.chip.fld F.MIG_STATUS_PHASE = 0 ∧ t.chip.bit F.MIG_STATUS_DONE = true ∧
    t.chip.phys src = sp ∧ t.chip.engState (s.chip.phys src) = 6 ∧ t.chip.pends 52 = true) ∧
  (∀ (s : State),
    s.chip.Calm → s.chip.mayBegin = true → s.chip.catching = false → s.chip.domOn 13 = true →
    s.chip.bit F.SENSE_CTRL_EN = true → s.chip.bit F.SENSE_STATUS_RUNNING = false →
    ∃ t, exec .senseScanStart s = .next t ∧ t.chip.bit F.SENSE_STATUS_RUNNING = true ∧
    t.chip.sense.first = t.chip.sense.tick ∧ t.chip.sense.slot = 0) ∧
  (∀ (s : State),
    s.chip.Calm → s.chip.mayBegin = true → s.chip.catching = false → s.chip.domOn 13 = true →
    s.chip.bit F.SENSE_STATUS_RUNNING = true → s.chip.sense.ending = false →
    s.chip.bit F.SENSE_STATUS_READY = false → s.chip.sense.first + 3 ≤ s.chip.sense.tick →
    ∃ t, exec .senseReady s = .next t ∧ t.chip.bit F.SENSE_STATUS_READY = true ∧ t.chip.pends 87 = true)

/-- Engine states and their commands (R71, R72, R453), the register-file window (R73) and pending lengths (R122), with
what each leaves alone. -/
def Obligations.engineControl : Prop :=
  (∀ (s : State) (m : Master) (p : Fin 10) (v : Word),
    s.chip.Calm → s.chip.writes m (Reg.ENG_CTRL p) = true → bitAt v.toNat 2 = false → bitAt v.toNat 4 = false →
    ∃ t, exec (.halt m p v) s = .next t ∧ t.chip.bit (F.ENG_CTRL_TICK_EN p) = bitAt v.toNat 0 ∧
    t.chip.engState p =
      (if s.chip.engState p = 1 ∨ s.chip.engState p = 2 ∨ s.chip.engState p = 3 then 6 else s.chip.engState p) ∧
    (s.chip.engState p = 4 ∨ s.chip.engState p = 5 → (t.chip.auxOf p).leave = true) ∧
    (∀ q, q ≠ p.val → t.chip.core q = s.chip.core q ∧ t.chip.auxOf q = s.chip.auxOf q) ∧
    Only [Reg.ENG_CTRL p, Reg.ENG_STATUS p, Reg.ENG_FLAGS p, Reg.ENG_FAULT_PC p, Reg.EVT_PEND 1] s t
      { s.chip with cores := t.chip.cores, aux := t.chip.aux, tags := t.chip.tags }) ∧
  (∀ (s : State) (m : Master) (p : Fin 10) (v : Word),
    s.chip.Calm → s.chip.writes m (Reg.ENG_CTRL p) = true → bitAt v.toNat 2 = false → bitAt v.toNat 3 = false →
    s.chip.engState p = 0 ∨ s.chip.engState p = 6 → ∃ t, exec (.softReset m p v) s = .next t ∧
    t.chip.engState p = 0 ∧ t.chip.core p = {} ∧
    t.chip.fld (F.EPOCH_EPOCH (mEng (s.chip.logi p))) = (s.chip.fld (F.EPOCH_EPOCH (mEng (s.chip.logi p))) + 1) %
      256 ∧ t.chip.fld (F.ENG_FLAGS_OV p) = s.chip.fld (F.ENG_FLAGS_OV p) ∧
    (∀ q, q ≠ p.val → t.chip.core q = s.chip.core q) ∧
    Only (Reg.ENG_CTRL p :: Reg.ENG_STATUS p :: Reg.EPOCH (mEng (s.chip.logi p)) :: (List.range 64).map Reg.SEM) s t
      { s.chip with cores := t.chip.cores }) ∧
  (∀ (s : State) (m : Master) (p : Fin 10) (v : Word),
    s.chip.Calm → s.chip.writes m (Reg.ENG_CTRL p) = true → bitAt v.toNat 3 = false → bitAt v.toNat 4 = false →
    s.chip.engState p = 0 ∨ s.chip.engState p = 6 → ∃ t, exec (.setupGo m p v) s = .next t ∧ t.chip.engState p = 1 ∧
    (t.chip.core p).pc = 2 * s.chip.fld (F.ENG_SETUP_PC_PC p) ∧
    t.chip.bit (F.ENG_CTRL_TICK_EN p) = bitAt v.toNat 0 ∧
    t.chip.core p = { s.chip.core p with pc := (t.chip.core p).pc, repOn := false, xfer := none } ∧
    (∀ q, q ≠ p.val → t.chip.core q = s.chip.core q) ∧
    Only [Reg.ENG_CTRL p, Reg.ENG_STATUS p] s t { s.chip with cores := t.chip.cores }) ∧
  (∀ (s : State) (m : Master) (p : Fin 10) (v : Word),
    s.chip.Calm → s.chip.writes m (Reg.ENG_CTRL p) = true → bitAt v.toNat 2 = false → bitAt v.toNat 3 = false →
    bitAt v.toNat 4 = false → ∃ t, exec (.tickEn m p v) s = .next t ∧
    t.chip.bit (F.ENG_CTRL_TICK_EN p) = bitAt v.toNat 0 ∧
    t.chip.engState p = (if s.chip.engState p = 2 ∧ bitAt v.toNat 0 = true then 3 else if s.chip.engState p = 3 ∧
        bitAt v.toNat 0 = false then 2 else s.chip.engState p) ∧
    ((s.chip.engState p = 4 ∨ s.chip.engState p = 5) ∧ bitAt v.toNat 0 = false → (t.chip.auxOf p).leave = true) ∧
    (∀ q, q ≠ p.val → t.chip.core q = s.chip.core q ∧ t.chip.auxOf q = s.chip.auxOf q) ∧
    Only [Reg.ENG_CTRL p, Reg.ENG_STATUS p] s t { s.chip with aux := t.chip.aux }) ∧
  (∀ (s : State) (p : Fin 10) (plen stores : Nat),
    s.chip.Calm → s.chip.engState p = 3 → ((s.chip.auxOf p).passed = false) → s.chip.scan p = .pass plen stores →
    ∃ t, exec (.scanComplete p) s = .next t ∧ t.chip.plen p = plen % 65536 ∧
    t.chip.fld (F.ENG_PLEN_STORES p) = min stores 65535 ∧
    (t.chip.bit (F.ENG_STATUS_REPLAY_OFF p) = true ↔ 1024 < stores) ∧ t.chip.engState p = 3 ∧
    (t.chip.auxOf p).passed = true ∧ (∀ q, q ≠ p.val → t.chip.auxOf q = s.chip.auxOf q) ∧
    Only [Reg.ENG_PLEN p, Reg.ENG_STATUS p] s t { s.chip with aux := t.chip.aux }) ∧
  (∀ (s : State) (p : Fin 10) (why a : Nat),
    s.chip.Calm → s.chip.engState p = 3 → ((s.chip.auxOf p).passed = false) → s.chip.scan p = .fail why a →
    ∃ t, exec (.scanComplete p) s = .next t ∧ t.chip.engState p = 2 ∧ t.chip.bit (F.ENG_CTRL_TICK_EN p) = false ∧
    t.chip.fld (F.ENG_STATUS_REASON p) = why % 16 ∧ t.chip.fld (F.ENG_FAULT_PC_ADDR p) = a / 2 % 2 ^ 17 ∧
    t.chip.pends (32 + p) = true ∧
    Only [Reg.ENG_CTRL p, Reg.ENG_STATUS p, Reg.ENG_FAULT_PC p, Reg.EVT_PEND 1] s t s.chip) ∧
  (∀ (s : State) (m : Master) (p : Fin 10) (w : Fin 1024) (v : Word),
    s.chip.Calm → s.chip.finds m (engBase p + 0x181000 + 4 * w) true = true →
    (s.chip.engState p = 0 ∨ s.chip.engState p = 2 ∨ s.chip.engState p = 6 →
        ∃ t, exec (.regfileWindowWrite m p w v) s = .next t ∧ (w.val < 512 → (t.chip.core p).gprAt w = v.toNat) ∧
        (∀ i, i ≠ w.val → i < 512 → (t.chip.core p).gprAt i = (s.chip.core p).gprAt i) ∧
        (∀ q, q ≠ p.val → t.chip.core q = s.chip.core q) ∧
        Only [] s t { s.chip with cores := t.chip.cores, tags := t.chip.tags }) ∧
    (s.chip.engState p ≠ 0 → s.chip.engState p ≠ 2 → s.chip.engState p ≠ 6 →
        ∃ t, exec (.regfileWindowWrite m p w v) s = .next t ∧ t.chip.resp = .busError ∧ Only [] s t s.chip)) ∧
  (∀ (s : State) (m : Master) (p : Fin 10) (i : Fin 16) (v : Word),
    s.chip.Calm → s.chip.writes m (Reg.ENG_SEG_LEN_NEXT p i) = true →
    ∃ t, exec (.segLenNextWrite m p i v) s = .next t ∧
    (s.chip.engState p = 4 ∨ s.chip.engState p = 5 →
        (t.chip.core p).seg i = { (s.chip.core p).seg i with next := some (BitVec.ofNat 18 v.toNat) }) ∧
    (s.chip.engState p ≠ 4 → s.chip.engState p ≠ 5 → ((t.chip.core p).seg i).len = BitVec.ofNat 18 v.toNat ∧
        ((t.chip.core p).seg i).next = none) ∧ (∀ j, j ≠ i.val → (t.chip.core p).seg j = (s.chip.core p).seg j) ∧
    (∀ q, q ≠ p.val → t.chip.core q = s.chip.core q) ∧
    Only [Reg.ENG_SEG_LEN_NEXT p i] s t { s.chip with cores := t.chip.cores, tags := t.chip.tags })

/-- The logical operations and shifts of R84 and R87. -/
def Obligations.aluLogic : Prop :=
  (∀ (s : State) (core : CoreId) (x : AArgs),
    s.chip.Calm → s.chip.ready core = true → aOk core .and x = true →
    SetsGpr (.and core x) s core x.rd.toNat ((s.chip.gpr core x.ra) &&& (s.chip.gpr core x.rb)) 0) ∧
  (∀ (s : State) (core : CoreId) (x : AArgs),
    s.chip.Calm → s.chip.ready core = true → aOk core .or x = true →
    SetsGpr (.or core x) s core x.rd.toNat ((s.chip.gpr core x.ra) ||| (s.chip.gpr core x.rb)) 0) ∧
  (∀ (s : State) (core : CoreId) (x : AArgs),
    s.chip.Calm → s.chip.ready core = true → aOk core .xor x = true →
    SetsGpr (.xor core x) s core x.rd.toNat ((s.chip.gpr core x.ra) ^^^ (s.chip.gpr core x.rb)) 0) ∧
  (∀ (s : State) (core : CoreId) (x : AArgs),
    s.chip.Calm → s.chip.ready core = true → aOk core .not x = true →
    SetsGpr (.not core x) s core x.rd.toNat (~~~(s.chip.gpr core x.ra)) 0) ∧
  (∀ (s : State) (core : CoreId) (x : AArgs),
    s.chip.Calm → s.chip.ready core = true → aOk core .andi x = true →
    SetsGpr (.andi core x) s core x.rd.toNat ((s.chip.gpr core x.ra) &&& BitVec.ofNat 32 x.imm10) 0) ∧
  (∀ (s : State) (core : CoreId) (x : AArgs),
    s.chip.Calm → s.chip.ready core = true → aOk core .ori x = true →
    SetsGpr (.ori core x) s core x.rd.toNat ((s.chip.gpr core x.ra) ||| BitVec.ofNat 32 x.imm10) 0) ∧
  (∀ (s : State) (core : CoreId) (x : AArgs),
    s.chip.Calm → s.chip.ready core = true → aOk core .xori x = true →
    SetsGpr (.xori core x) s core x.rd.toNat ((s.chip.gpr core x.ra) ^^^ BitVec.ofNat 32 x.imm10) 0) ∧
  (∀ (s : State) (core : CoreId) (x : AArgs),
    s.chip.Calm → s.chip.ready core = true → aOk core .shl x = true →
    SetsGpr (.shl core x) s core x.rd.toNat ((s.chip.gpr core x.ra) <<< ((s.chip.gpr core x.rb).toNat % 64)) 0) ∧
  (∀ (s : State) (core : CoreId) (x : AArgs),
    s.chip.Calm → s.chip.ready core = true → aOk core .shr x = true →
    SetsGpr (.shr core x) s core x.rd.toNat ((s.chip.gpr core x.ra) >>> ((s.chip.gpr core x.rb).toNat % 64)) 0) ∧
  (∀ (s : State) (core : CoreId) (x : AArgs),
    s.chip.Calm → s.chip.ready core = true → aOk core .sra x = true →
    SetsGpr (.sra core x) s core x.rd.toNat ((s.chip.gpr core x.ra).sshiftRight ((s.chip.gpr core x.rb).toNat % 64))
      0) ∧
  (∀ (s : State) (core : CoreId) (x : AArgs),
    s.chip.Calm → s.chip.ready core = true → aOk core .ror x = true →
    SetsGpr (.ror core x) s core x.rd.toNat ((s.chip.gpr core x.ra).rotateRight ((s.chip.gpr core x.rb).toNat % 32))
      0) ∧
  (∀ (s : State) (core : CoreId) (x : AArgs),
    s.chip.Calm → s.chip.ready core = true → aOk core .shi x = true →
    SetsGpr (.shi core x) s core x.rd.toNat (
        let n := bits x.imm10 5 0
        match bits x.imm10 7 6 with
        | 0 => (s.chip.gpr core x.ra) <<< n
        | 1 => (s.chip.gpr core x.ra) >>> n
        | 2 => (s.chip.gpr core x.ra).sshiftRight n
        | _ => (s.chip.gpr core x.ra).rotateRight (n % 32)) 0)

/-- The arithmetic of R84 under R79 and R85. -/
def Obligations.aluArith : Prop :=
  (∀ (s : State) (core : CoreId) (x : AArgs),
    s.chip.Calm → s.chip.ready core = true → aOk core .add x = true →
    SetsGpr (.add core x) s core x.rd.toNat
      (exact32 (asatOf (s.chip.core core) x.md) ((s.chip.gpr core x.ra).toInt + (s.chip.gpr core x.rb).toInt)).1
      (exact32 (asatOf (s.chip.core core) x.md) ((s.chip.gpr core x.ra).toInt + (s.chip.gpr core x.rb).toInt)).2) ∧
  (∀ (s : State) (core : CoreId) (x : AArgs),
    s.chip.Calm → s.chip.ready core = true → aOk core .sub x = true →
    SetsGpr (.sub core x) s core x.rd.toNat
      (exact32 (asatOf (s.chip.core core) x.md) ((s.chip.gpr core x.ra).toInt - (s.chip.gpr core x.rb).toInt)).1
      (exact32 (asatOf (s.chip.core core) x.md) ((s.chip.gpr core x.ra).toInt - (s.chip.gpr core x.rb).toInt)).2) ∧
  (∀ (s : State) (core : CoreId) (x : AArgs),
    s.chip.Calm → s.chip.ready core = true → aOk core .addi x = true →
    SetsGpr (.addi core x) s core x.rd.toNat
      (exact32 (bitAt (s.chip.core core).mode 3) ((s.chip.gpr core x.ra).toInt + (BitVec.ofNat 10 x.imm10).toInt)).1
      (exact32 (bitAt (s.chip.core core).mode 3) ((s.chip.gpr core x.ra).toInt + (BitVec.ofNat 10 x.imm10).toInt)).2) ∧
  (∀ (s : State) (core : CoreId) (x : AArgs),
    s.chip.Calm → s.chip.ready core = true → aOk core .neg x = true →
    SetsGpr (.neg core x) s core x.rd.toNat
      (exact32 (asatOf (s.chip.core core) x.md) (-(s.chip.gpr core x.ra).toInt)).1
      (exact32 (asatOf (s.chip.core core) x.md) (-(s.chip.gpr core x.ra).toInt)).2) ∧
  (∀ (s : State) (core : CoreId) (x : AArgs),
    s.chip.Calm → s.chip.ready core = true → aOk core .abs x = true →
    SetsGpr (.abs core x) s core x.rd.toNat
      (exact32 (asatOf (s.chip.core core) x.md) (|(s.chip.gpr core x.ra).toInt|)).1
      (exact32 (asatOf (s.chip.core core) x.md) (|(s.chip.gpr core x.ra).toInt|)).2)

/-- Comparisons, selection and the rest of the one-cycle register operations (R84, R86). -/
def Obligations.aluSelect : Prop :=
  (∀ (s : State) (core : CoreId) (x : AArgs),
    s.chip.Calm → s.chip.ready core = true → aOk core .min x = true →
    SetsGpr (.min core x) s core x.rd.toNat (if (s.chip.gpr core x.rb).slt ((s.chip.gpr core x.ra)) then
          (s.chip.gpr core x.rb) else (s.chip.gpr core x.ra)) 0) ∧
  (∀ (s : State) (core : CoreId) (x : AArgs),
    s.chip.Calm → s.chip.ready core = true → aOk core .max x = true →
    SetsGpr (.max core x) s core x.rd.toNat (if (s.chip.gpr core x.ra).slt ((s.chip.gpr core x.rb)) then
          (s.chip.gpr core x.rb) else (s.chip.gpr core x.ra)) 0) ∧
  (∀ (s : State) (core : CoreId) (x : AArgs),
    s.chip.Calm → s.chip.ready core = true → aOk core .clz x = true →
    SetsGpr (.clz core x) s core x.rd.toNat
      (BitVec.ofNat 32 (if (s.chip.gpr core x.ra) = 0 then 32 else 31 - ((s.chip.gpr core x.ra)).toNat.log2)) 0) ∧
  (∀ (s : State) (core : CoreId) (x : AArgs),
    s.chip.Calm → s.chip.ready core = true → aOk core .cmp x = true →
    SetsGpr (.cmp core x) s core x.rd.toNat
      (if meets x.md ((s.chip.gpr core x.ra)) ((s.chip.gpr core x.rb)) = true then 1 else 0) 0) ∧
  (∀ (s : State) (core : CoreId) (x : AArgs),
    s.chip.Calm → s.chip.ready core = true → aOk core .cmpi x = true →
    SetsGpr (.cmpi core x) s core x.rd.toNat (if meets (bits x.imm10 9 7) ((s.chip.gpr core x.ra))
          ((BitVec.ofNat 7 x.imm10).signExtend 32) = true then 1 else 0) 0) ∧
  (∀ (s : State) (core : CoreId) (x : AArgs),
    s.chip.Calm → s.chip.ready core = true → aOk core .sel x = true →
    SetsGpr (.sel core x) s core x.rd.toNat
      (if (s.chip.gpr core (x.md % 8) != 0) != bitAt x.md 3 then (s.chip.gpr core x.ra) else (s.chip.gpr core x.rb))
      0) ∧
  (∀ (s : State) (core : CoreId) (x : AArgs),
    s.chip.Calm → s.chip.ready core = true → aOk core .ext x = true →
    SetsGpr (.ext core x) s core x.rd.toNat (
        match x.md % 4 with
        | 0 => (((s.chip.gpr core x.ra)).setWidth 8).signExtend 32
        | 1 => (((s.chip.gpr core x.ra)).setWidth 8).setWidth 32
        | 2 => (((s.chip.gpr core x.ra)).setWidth 16).signExtend 32
        | _ => (((s.chip.gpr core x.ra)).setWidth 16).setWidth 32) 0) ∧
  (∀ (s : State) (core : CoreId) (x : AArgs),
    s.chip.Calm → s.chip.ready core = true → aOk core .movhi x = true →
    SetsGpr (.movhi core x) s core x.rd.toNat
      (BitVec.ofNat 32 (x.low.toNat * 65536 + (s.chip.gpr core x.rd.toNat).toNat % 65536)) 0)

/-- The special move of R59 and R88 and the register forms of the L class (R93). -/
def Obligations.moves : Prop :=
  (∀ (s : State) (core : CoreId) (x : AArgs),
    s.chip.Calm → s.chip.ready core = true → aOk core .mov x = true → isGpr x.rd.toNat = true → isGpr x.ra = true →
    SetsGpr (.mov core x) s core x.rd.toNat (s.chip.gpr core x.ra) 0) ∧
  (∀ (s : State) (core : CoreId) (x : AArgs),
    s.chip.Calm → s.chip.ready core = true → aOk core .mov x = true → isGpr x.rd.toNat = true →
    isSpecial x.ra = true →
    SetsGpr (.mov core x) s core x.rd.toNat (BitVec.ofNat 32 (s.chip.special core (s.chip.core core) x.ra)) 0) ∧
  (∀ (s : State) (core : CoreId) (x : AArgs),
    s.chip.Calm → s.chip.ready core = true → aOk core .mov x = true → x.rd.toNat = 51 →
    Leaves (.mov core x) s core { s.chip.core core with mode := ((s.chip.gpr core x.ra)).toNat % 16 } 0) ∧
  (∀ (s : State) (core : CoreId) (x : AArgs),
    s.chip.Calm → s.chip.ready core = true → aOk core .mov x = true → x.rd.toNat = 50 →
    ∃ t, exec (.mov core x) s = .next t ∧
    t.chip.flagsOf core = (if 10 ≤ core.val then maskOff (s.chip.flagsOf core)
          (((s.chip.gpr core x.ra)).toNat % 512) else s.chip.flagsOf core) ∧
    (t.chip.core core).arch = { (s.chip.core core).arch with pc := wrapPc core ((s.chip.core core).pc + 4 : Nat) } ∧
    OnlyCore core s t) ∧
  (∀ (s : State) (core : CoreId) (x : AArgs),
    s.chip.Calm → s.chip.ready core = true → aOk core .movi x = true → isGpr x.rd.toNat = true →
    SetsGpr (.movi core x) s core x.rd.toNat (x.low.signExtend 32) 0) ∧
  (∀ (s : State) (core : CoreId) (x : LArgs),
    s.chip.Calm → s.chip.ready core = true → lOk core .lmov x = true →
    SetsGpr (.lmov core x) s core x.rt.toNat ((s.chip.gpr core (bits x.low.toNat 16 11))) 0) ∧
  (∀ (s : State) (core : CoreId) (x : LArgs),
    s.chip.Calm → s.chip.ready core = true → lOk core .addr x = true →
    SetsGpr (.addr core x) s core x.rt.toNat ((s.chip.gpr core (bits x.low.toNat 16 11)) + s.chip.gpr core
          (bits x.low.toNat 10 5) <<< bits x.low.toNat 4 3) 0) ∧
  (∀ (s : State) (core : CoreId) (x : LArgs),
    s.chip.Calm → s.chip.ready core = true → lOk core .addri x = true →
    SetsGpr (.addri core x) s core x.rt.toNat
      ((s.chip.gpr core (bits x.low.toNat 16 11)) + (BitVec.ofNat 11 x.low.toNat).signExtend 32) 0)

/-- What the A class does with accumulators and products (R77, R78, R84, R88, R89). -/
def Obligations.accumulatorMoves : Prop :=
  (∀ (s : State) (core : CoreId) (x : AArgs),
    s.chip.Calm → s.chip.ready core = true → aOk core .rnd x = true →
    SetsGpr (.rnd core x) s core x.rd.toNat (BitVec.ofNat 32 (roundQ23 (rndMode (s.chip.core core) (bits x.md 3 2))
              (rndWrap (s.chip.core core) (x.md % 4)) ((s.chip.core core).apSrc x.ra)).1) (roundQ23
          (rndMode (s.chip.core core) (bits x.md 3 2)) (rndWrap (s.chip.core core) (x.md % 4))
          ((s.chip.core core).apSrc x.ra)).2) ∧
  (∀ (s : State) (core : CoreId) (x : AArgs),
    s.chip.Calm → s.chip.ready core = true → aOk core .ash x = true → ((BitVec.ofNat 10 x.imm10).toInt ≥ 0) →
    Leaves (.ash core x) s core
      ((s.chip.core core).setAcc (x.rd.toNat - 36) (exact56 ((s.chip.core core).apSrc x.ra * 2 ^ (x.imm10 % 64))).1)
      ((exact56 ((s.chip.core core).apSrc x.ra * 2 ^ (x.imm10 % 64))).2)) ∧
  (∀ (s : State) (core : CoreId) (x : AArgs),
    s.chip.Calm → s.chip.ready core = true → aOk core .ash x = true → ((BitVec.ofNat 10 x.imm10).toInt < 0) →
    Leaves (.ash core x) s core ((s.chip.core core).setAcc (x.rd.toNat - 36)
          (exact56 ((s.chip.core core).apSrc x.ra / 2 ^ ((1024 - x.imm10) % 64))).1)
      ((exact56 ((s.chip.core core).apSrc x.ra / 2 ^ ((1024 - x.imm10) % 64))).2)) ∧
  (∀ (s : State) (core : CoreId) (x : AArgs),
    s.chip.Calm → s.chip.ready core = true → aOk core .adda x = true →
    Leaves (.adda core x) s core ((s.chip.core core).setAcc (x.rd.toNat - 36)
          (exact56 ((s.chip.core core).apSrc x.ra + (s.chip.core core).apSrc x.rb)).1)
      ((exact56 ((s.chip.core core).apSrc x.ra + (s.chip.core core).apSrc x.rb)).2)) ∧
  (∀ (s : State) (core : CoreId) (x : AArgs),
    s.chip.Calm → s.chip.ready core = true → aOk core .suba x = true →
    Leaves (.suba core x) s core ((s.chip.core core).setAcc (x.rd.toNat - 36)
          (exact56 ((s.chip.core core).apSrc x.ra - (s.chip.core core).apSrc x.rb)).1)
      ((exact56 ((s.chip.core core).apSrc x.ra - (s.chip.core core).apSrc x.rb)).2)) ∧
  (∀ (s : State) (core : CoreId) (x : AArgs),
    s.chip.Calm → s.chip.ready core = true → aOk core .mov x = true → isAcc core x.rd.toNat = true →
    Leaves (.mov core x) s core ((s.chip.core core).setAcc (x.rd.toNat - 36) (exact56
              (if isGpr x.ra = true then ((s.chip.gpr core x.ra)).toInt * 2 ^ 15 else (s.chip.core core).apSrc x.ra)).1)
      (if isGpr x.ra = true then 0 else (exact56 ((s.chip.core core).apSrc x.ra)).2)) ∧
  (∀ (s : State) (core : CoreId) (x : AArgs),
    s.chip.Calm → s.chip.ready core = true → aOk core .mov x = true → isProd x.rd.toNat = true →
    Leaves (.mov core x) s core ((s.chip.core core).setProd (x.rd.toNat - 40) (BitVec.ofInt 48
              (if isGpr x.ra = true then ((s.chip.gpr core x.ra)).toInt * 2 ^ 15 else (s.chip.core core).apSrc x.ra)).toNat)
      (0)) ∧
  (∀ (s : State) (core : CoreId) (x : AArgs),
    s.chip.Calm → s.chip.ready core = true → aOk core .movi x = true → isAcc core x.rd.toNat = true →
    Leaves (.movi core x) s core
      ((s.chip.core core).setAcc (x.rd.toNat - 36) (BitVec.ofInt 56 (x.low.toInt * 2 ^ 31)).toNat) (0)) ∧
  (∀ (s : State) (core : CoreId) (x : AArgs),
    s.chip.Calm → s.chip.ready core = true → aOk core .movi x = true → isProd x.rd.toNat = true →
    Leaves (.movi core x) s core
      ((s.chip.core core).setProd (x.rd.toNat - 40) (BitVec.ofInt 48 (x.low.toInt * 2 ^ 31)).toNat) (0))

/-- The M class (R82) with register and memory operands (R81) and the latencies of R63. -/
def Obligations.multiply : Prop :=
  (∀ (s : State) (core : CoreId) (x : MArgs) (va vb : Int) (fa fb : Nat),
    s.chip.Calm → s.chip.ready core = true → mOk core .mpy x = true → s.chip.mVal core x.a = some (va, fa) →
    s.chip.mVal core x.b = some (vb, fb) → x.dst.toNat < 4 →
    Leaves (.mpy core x) s core
      ((((s.chip.core core).stepped x.a).stepped x.b).setAcc x.dst.toNat (exact56 ((va * vb))).1)
      (fa ||| fb ||| (exact56 ((va * vb))).2)) ∧
  (∀ (s : State) (core : CoreId) (x : MArgs) (va vb : Int) (fa fb : Nat),
    s.chip.Calm → s.chip.ready core = true → mOk core .mpy x = true → s.chip.mVal core x.a = some (va, fa) →
    s.chip.mVal core x.b = some (vb, fb) → 4 ≤ x.dst.toNat →
    Leaves (.mpy core x) s core ((((s.chip.core core).stepped x.a).stepped x.b).flying 2 .m
          (.prod (x.dst.toNat - 4)) (BitVec.ofInt 48 ((va * vb))).toNat (fa ||| fb) (s.chip.core core).pc) (0)) ∧
  (∀ (s : State) (core : CoreId) (x : MArgs) (va vb : Int) (fa fb : Nat),
    s.chip.Calm → s.chip.ready core = true → mOk core .mac x = true → s.chip.mVal core x.a = some (va, fa) →
    s.chip.mVal core x.b = some (vb, fb) → x.dst.toNat < 4 →
    Leaves (.mac core x) s core ((((s.chip.core core).stepped x.a).stepped x.b).setAcc x.dst.toNat
          (exact56 ((s.chip.core core).accM x.dst.toNat + (va * vb))).1)
      (fa ||| fb ||| (exact56 ((s.chip.core core).accM x.dst.toNat + (va * vb))).2)) ∧
  (∀ (s : State) (core : CoreId) (x : MArgs) (va vb : Int) (fa fb : Nat),
    s.chip.Calm → s.chip.ready core = true → mOk core .msu x = true → s.chip.mVal core x.a = some (va, fa) →
    s.chip.mVal core x.b = some (vb, fb) → x.dst.toNat < 4 →
    Leaves (.msu core x) s core ((((s.chip.core core).stepped x.a).stepped x.b).setAcc x.dst.toNat
          (exact56 ((s.chip.core core).accM x.dst.toNat + -(va * vb))).1)
      (fa ||| fb ||| (exact56 ((s.chip.core core).accM x.dst.toNat + -(va * vb))).2)) ∧
  (∀ (s : State) (core : CoreId) (x : MArgs) (va vb : Int) (fa fb : Nat),
    s.chip.Calm → s.chip.ready core = true → mOk core .mpyn x = true → s.chip.mVal core x.a = some (va, fa) →
    s.chip.mVal core x.b = some (vb, fb) → x.dst.toNat < 4 →
    Leaves (.mpyn core x) s core
      ((((s.chip.core core).stepped x.a).stepped x.b).setAcc x.dst.toNat (exact56 (-(va * vb))).1)
      (fa ||| fb ||| (exact56 (-(va * vb))).2)) ∧
  (∀ (s : State) (core : CoreId) (x : MArgs) (va vb : Int) (fa fb : Nat),
    s.chip.Calm → s.chip.ready core = true → mOk core .mpyn x = true → s.chip.mVal core x.a = some (va, fa) →
    s.chip.mVal core x.b = some (vb, fb) → 4 ≤ x.dst.toNat →
    Leaves (.mpyn core x) s core ((((s.chip.core core).stepped x.a).stepped x.b).flying 2 .m
          (.prod (x.dst.toNat - 4)) (BitVec.ofInt 48 (-(va * vb))).toNat (fa ||| fb) (s.chip.core core).pc) (0)) ∧
  (∀ (s : State) (core : CoreId) (x : MArgs),
    s.chip.Calm → s.chip.ready core = true → mOk core .addp x = true →
    Leaves (.addp core x) s core ((s.chip.core core).setAcc x.dst.toNat
          (exact56 ((s.chip.core core).accM x.dst.toNat + (s.chip.core core).prodOf x.a.prodIx)).1)
      ((exact56 ((s.chip.core core).accM x.dst.toNat + (s.chip.core core).prodOf x.a.prodIx)).2))

/-- The loads of R92 and R93: value, destination, post-modification (R68) and delay (R63), in both forms (R90, R104). -/
def Obligations.loads : Prop :=
  (∀ (s : State) (i : Instr) (op : LOp) (core : CoreId) (x : LArgs) (off : Int) (post : Option Int) (lane : Nat)
      (w : Word) (f : Nat),
    s.chip.Calm → s.chip.ready core = true → opRow i = some (core, .l op x) →
    op ∈ [LOp.ldw, .ldh, .ldhu, .ldb, .ldbu] → lOk core op x = true → core.val < 10 →
    segForm core (s.chip.core core) op x.low.toNat = (off, post, lane) →
    s.chip.ownWord core ((s.chip.core core).seg (bits x.low.toNat 16 13)) off = some (w, f) →
    Leaves i s core (((s.chip.core core).posted (bits x.low.toNat 16 13) post).flying 2 .l
          (.gpr (gprIx core (s.chip.core core) x.rt.toNat)) (loaded op w lane).toNat f (s.chip.core core).pc) 0) ∧
  (∀ (s : State) (i : Instr) (op : LOp) (core : CoreId) (x : LArgs),
    s.chip.Calm → s.chip.ready core = true → opRow i = some (core, .l op x) →
    op ∈ [LOp.ldw, .ldh, .ldhu, .ldb, .ldbu] → lOk core op x = true → core.val < 10 → ∃ t, exec i s = .next t ∧
    (t.chip.core core).flights.map (fun f => (f.wait, f.cls, f.dst)) =
      [(1, .l, (.gpr (gprIx core (s.chip.core core) x.rt.toNat)))] ∧
    { (t.chip.core core).arch with flights := [] } = { ((s.chip.core core).posted (bits x.low.toNat 16 13) (segForm core (s.chip.core core) op x.low.toNat).2.1).arch with
        pc := wrapPc core ((s.chip.core core).pc + 4 : Nat) } ∧ t.chip.flagsOf core = s.chip.flagsOf core ∧
    t.chip.mem = s.chip.mem ∧ t.otp = s.otp ∧ t.pending = s.pending ∧
    (∀ j, j < 12 → j ≠ core.val → t.chip.core j = s.chip.core j)) ∧
  (∀ (s : State) (i : Instr) (op : LOp) (core : CoreId) (x : LArgs),
    s.chip.Calm → s.chip.ready core = true → opRow i = some (core, .l op x) →
    op ∈ [LOp.ldw, .ldh, .ldhu, .ldb, .ldbu] → lOk core op x = true → 10 ≤ core.val →
    ownMem core ((s.chip.ea core x) / 4 * 4) = true → s.chip.eccOf ((s.chip.ea core x) / 4 * 4) = 0 →
    Leaves i s core ((s.chip.core core).flying 2 .l (.gpr (gprIx core (s.chip.core core) x.rt.toNat))
          (loaded op (s.chip.peek ((s.chip.ea core x) / 4 * 4)) ((s.chip.ea core x) % 4)).toNat 0
          (s.chip.core core).pc) 0) ∧
  (∀ (s : State) (i : Instr) (op : LOp) (core : CoreId) (x : LArgs) (w : Word),
    s.chip.Calm → s.chip.ready core = true → opRow i = some (core, .l op x) →
    op ∈ [LOp.ldw, .ldh, .ldhu, .ldb, .ldbu] → lOk core op x = true → 10 ≤ core.val →
    ownMem core ((s.chip.ea core x) / 4 * 4) = false →
    s.chip.busRead (coreMaster core) (s.chip.ea core x) (lSize op) = (w, s.chip, false) →
    SetsGpr i s core x.rt.toNat (loaded op w ((s.chip.ea core x) % 4)) 0)

/-- The stores of R92 and R93 in setup code and of the register-base form (R104), with the address the meaning computes. -/
def Obligations.stores : Prop :=
  (∀ (s : State) (i : Instr) (op : LOp) (core : CoreId) (x : LArgs) (off : Int) (post : Option Int) (lane : Nat)
      (vf : Nat × Nat) (n : Nat),
    s.chip.Calm → s.chip.ready core = true → opRow i = some (core, .l op x) → op ∈ [LOp.stw, .sth, .stb, .sta] →
    lOk core op x = true → core.val < 10 → segForm core (s.chip.core core) op x.low.toNat = (off, post, lane) →
    vf = (if op = .sta then roundQ23 ((s.chip.core core).mode % 4) (bitAt (s.chip.core core).mode 2)
          ((s.chip.core core).apSrc x.rt.toNat) else ((s.chip.gpr core x.rt.toNat).toNat, 0)) →
    (((s.chip.core core).seg (bits x.low.toNat 16 13)).index off = some n) →
    (((s.chip.core core).seg (bits x.low.toNat 16 13)).memCode = 0) → ∃ t, exec i s = .next t ∧
    Stores (delayAddr core ((((s.chip.core core).seg (bits x.low.toNat 16 13)).base + n) % 196608))
      (patched
          (s.chip.peek (delayAddr core ((((s.chip.core core).seg (bits x.low.toNat 16 13)).base + n) % 196608)))
          (BitVec.ofNat 32 vf.1) (lSize op) lane) s t ∧
    Issued core vf.2 ((s.chip.core core).posted (bits x.low.toNat 16 13) post) s t ∧ OnlyMem core s t) ∧
  (∀ (s : State) (i : Instr) (op : LOp) (core : CoreId) (x : LArgs) (off : Int) (post : Option Int) (lane : Nat)
      (vf : Nat × Nat) (n : Nat),
    s.chip.Calm → s.chip.ready core = true → opRow i = some (core, .l op x) → op ∈ [LOp.stw, .sth, .stb, .sta] →
    lOk core op x = true → core.val < 10 → segForm core (s.chip.core core) op x.low.toNat = (off, post, lane) →
    vf = (if op = .sta then roundQ23 ((s.chip.core core).mode % 4) (bitAt (s.chip.core core).mode 2)
          ((s.chip.core core).apSrc x.rt.toNat) else ((s.chip.gpr core x.rt.toNat).toNat, 0)) →
    (((s.chip.core core).seg (bits x.low.toNat 16 13)).index off = some n) →
    (((s.chip.core core).seg (bits x.low.toNat 16 13)).memCode = 2) → ∃ t, exec i s = .next t ∧
    Stores (relayAddr core ((((s.chip.core core).seg (bits x.low.toNat 16 13)).base + n) % 256))
      (patched (s.chip.peek (relayAddr core ((((s.chip.core core).seg (bits x.low.toNat 16 13)).base + n) % 256)))
          (BitVec.ofNat 32 vf.1) (lSize op) lane) s t ∧
    Issued core vf.2 ((s.chip.core core).posted (bits x.low.toNat 16 13) post) s t ∧ OnlyMem core s t) ∧
  (∀ (s : State) (i : Instr) (op : LOp) (core : CoreId) (x : LArgs) (off : Int) (post : Option Int) (lane : Nat)
      (vf : Nat × Nat),
    s.chip.Calm → s.chip.ready core = true → opRow i = some (core, .l op x) → op ∈ [LOp.stw, .sth, .stb, .sta] →
    lOk core op x = true → core.val < 10 → segForm core (s.chip.core core) op x.low.toNat = (off, post, lane) →
    vf = (if op = .sta then roundQ23 ((s.chip.core core).mode % 4) (bitAt (s.chip.core core).mode 2)
          ((s.chip.core core).apSrc x.rt.toNat) else ((s.chip.gpr core x.rt.toNat).toNat, 0)) →
    (((s.chip.core core).seg (bits x.low.toNat 16 13)).index off = none) →
    Leaves i s core ((s.chip.core core).posted (bits x.low.toNat 16 13) post) (8 ||| vf.2)) ∧
  (∀ (s : State) (i : Instr) (op : LOp) (core : CoreId) (x : LArgs) (off : Int) (post : Option Int) (lane : Nat)
      (vf : Nat × Nat) (n : Nat),
    s.chip.Calm → s.chip.ready core = true → opRow i = some (core, .l op x) → op ∈ [LOp.stw, .sth, .stb, .sta] →
    lOk core op x = true → core.val < 10 → segForm core (s.chip.core core) op x.low.toNat = (off, post, lane) →
    vf = (if op = .sta then roundQ23 ((s.chip.core core).mode % 4) (bitAt (s.chip.core core).mode 2)
          ((s.chip.core core).apSrc x.rt.toNat) else ((s.chip.gpr core x.rt.toNat).toNat, 0)) →
    (((s.chip.core core).seg (bits x.low.toNat 16 13)).index off = some n) →
    (((s.chip.core core).seg (bits x.low.toNat 16 13)).memCode ≠ 0) →
    (((s.chip.core core).seg (bits x.low.toNat 16 13)).memCode ≠ 2) → ∃ t, exec i s = .next t ∧
    t.chip.mem = s.chip.mem ∧ t.chip.ddr = s.chip.ddr ∧
    (t.chip.core core).arch = { ((s.chip.core core).posted (bits x.low.toNat 16 13) post).arch with
        pc := wrapPc core ((s.chip.core core).pc + 4 : Nat) } ∧ t.chip.flagsOf core = s.chip.flagsOf core ||| vf.2 ∧
    t.otp = s.otp ∧ t.pending = s.pending ∧
    (((s.chip.core core).seg (bits x.low.toNat 16 13)).memCode ∈ [1, 3, 4] →
        t.chip.fbit ⟨Reg.ENG_MEM_STATUS core, 5, 0⟩ 0 = true)) ∧
  (∀ (s : State) (i : Instr) (op : LOp) (core : CoreId) (x : LArgs) (vf : Nat × Nat),
    s.chip.Calm → s.chip.ready core = true → opRow i = some (core, .l op x) → op ∈ [LOp.stw, .sth, .stb, .sta] →
    lOk core op x = true → 10 ≤ core.val → ownMem core ((s.chip.ea core x) / 4 * 4) = true →
    0x20000 ≤ (s.chip.ea core x) / 4 * 4 →
    vf = (if op = .sta then roundQ23 ((s.chip.core core).mode % 4) (bitAt (s.chip.core core).mode 2)
          ((s.chip.core core).apSrc x.rt.toNat) else ((s.chip.gpr core x.rt.toNat).toNat, 0)) →
    ∃ t, exec i s = .next t ∧
    Stores ((s.chip.ea core x) / 4 * 4) (patched (s.chip.peek ((s.chip.ea core x) / 4 * 4)) (BitVec.ofNat 32 vf.1)
          (lSize op) ((s.chip.ea core x) % 4)) s t ∧ Issued core vf.2 (s.chip.core core) s t ∧ OnlyMem core s t) ∧
  (∀ (s : State) (i : Instr) (op : LOp) (core : CoreId) (x : LArgs) (vf : Nat × Nat) (a : Nat),
    s.chip.Calm → s.chip.ready core = true → opRow i = some (core, .l op x) → op ∈ [LOp.stw, .sth, .stb, .sta] →
    lOk core op x = true → 10 ≤ core.val →
    vf = (if op = .sta then roundQ23 ((s.chip.core core).mode % 4) (bitAt (s.chip.core core).mode 2)
          ((s.chip.core core).apSrc x.rt.toNat) else ((s.chip.gpr core x.rt.toNat).toNat, 0)) →
    s.chip.place (coreMaster core) ((s.chip.ea core x) / 4 * 4) = .serai a ∨ s.chip.place (coreMaster core)
      ((s.chip.ea core x) / 4 * 4) = .sram 10 a →
    s.chip.finds (if core.val = 11 then .secp else .cp) ((s.chip.ea core x) / 4 * 4) true = true →
    ∃ t, exec i s = .next t ∧
    Stores a (patched (s.chip.peek a) (BitVec.ofNat 32 vf.1) (lSize op) ((s.chip.ea core x) % 4)) s t ∧
    Issued core vf.2 (s.chip.core core) s t ∧ OnlyMem core s t)

/-- The descriptor operations of R93. -/
def Obligations.segmentOps : Prop :=
  (∀ (s : State) (core : CoreId) (x : LArgs),
    s.chip.Calm → s.chip.ready core = true → lOk core .segrd x = true →
    SetsGpr (.segrd core x) s core x.rt.toNat
      (BitVec.ofNat 32 (((s.chip.core core).seg (bits x.low.toNat 16 13)).word (bits x.low.toNat 12 11))) 0) ∧
  (∀ (s : State) (core : CoreId) (x : LArgs),
    s.chip.Calm → s.chip.ready core = true → lOk core .segwr x = true →
    Leaves (.segwr core x) s core ((s.chip.core core).flying 1 .l
          (.seg (bits x.low.toNat 16 13) (bits x.low.toNat 12 11)) (s.chip.gpr core x.rt.toNat).toNat 0
          (s.chip.core core).pc) 0) ∧
  (∀ (s : State) (core : CoreId) (x : LArgs),
    s.chip.Calm → s.chip.ready core = true → lOk core .ptradd x = true →
    Leaves (.ptradd core x) s core ((s.chip.core core).setSeg (bits x.low.toNat 16 13)
          (((s.chip.core core).seg (bits x.low.toNat 16 13)).advance (s.chip.gpr core x.rt.toNat).toInt)) 0)

/-- The divisions of R96 and their edges (R79). -/
def Obligations.divisions : Prop :=
  (∀ (s : State) (core : CoreId) (x : XArgs),
    s.chip.Calm → s.chip.ready core = true → xOk .idiv x = true →
    Leaves (.idiv core x) s core ((s.chip.core core).flying 11 .x (.gpr (gprIx core (s.chip.core core) x.rd.toNat))
          (if (s.chip.gpr core x.rb.toNat) = 0 then
              (if 0 ≤ (s.chip.gpr core x.ra.toNat).toInt then 0x7FFFFFFF else 0x80000000) else (exact32
                  (bitAt (s.chip.core core).mode 3)
                  ((s.chip.gpr core x.ra.toNat).toInt.tdiv (s.chip.gpr core x.rb.toNat).toInt)).1.toNat)
          (if (s.chip.gpr core x.rb.toNat) = 0 then flagDz else (exact32 (bitAt (s.chip.core core).mode 3)
                  ((s.chip.gpr core x.ra.toNat).toInt.tdiv (s.chip.gpr core x.rb.toNat).toInt)).2)
          (s.chip.core core).pc) 0) ∧
  (∀ (s : State) (core : CoreId) (x : XArgs),
    s.chip.Calm → s.chip.ready core = true → xOk .irem x = true →
    Leaves (.irem core x) s core ((s.chip.core core).flying 11 .x (.gpr (gprIx core (s.chip.core core) x.rd.toNat))
          (if (s.chip.gpr core x.rb.toNat) = 0 then (s.chip.gpr core x.ra.toNat).toNat else
              (BitVec.ofInt 32 ((s.chip.gpr core x.ra.toNat).toInt.tmod (s.chip.gpr core x.rb.toNat).toInt)).toNat)
          (if (s.chip.gpr core x.rb.toNat) = 0 then flagDz else 0) (s.chip.core core).pc) 0) ∧
  (∀ (s : State) (core : CoreId) (x : XArgs),
    s.chip.Calm → s.chip.ready core = true → xOk .udiv x = true →
    Leaves (.udiv core x) s core ((s.chip.core core).flying 11 .x (.gpr (gprIx core (s.chip.core core) x.rd.toNat))
          (if (s.chip.gpr core x.rb.toNat) = 0 then 0xFFFFFFFF else
              ((s.chip.gpr core x.ra.toNat) / (s.chip.gpr core x.rb.toNat)).toNat)
          (if (s.chip.gpr core x.rb.toNat) = 0 then flagDz else 0) (s.chip.core core).pc) 0) ∧
  (∀ (s : State) (core : CoreId) (x : XArgs),
    s.chip.Calm → s.chip.ready core = true → xOk .urem x = true →
    Leaves (.urem core x) s core ((s.chip.core core).flying 11 .x (.gpr (gprIx core (s.chip.core core) x.rd.toNat))
          (if (s.chip.gpr core x.rb.toNat) = 0 then (s.chip.gpr core x.ra.toNat).toNat else
              ((s.chip.gpr core x.ra.toNat) % (s.chip.gpr core x.rb.toNat)).toNat)
          (if (s.chip.gpr core x.rb.toNat) = 0 then flagDz else 0) (s.chip.core core).pc) 0) ∧
  (∀ (s : State) (core : CoreId) (x : XArgs),
    s.chip.Calm → s.chip.ready core = true → xOk .fdiv x = true →
    Leaves (.fdiv core x) s core ((s.chip.core core).flying 13 .x (.gpr (gprIx core (s.chip.core core) x.rd.toNat))
          (if (s.chip.gpr core x.rb.toNat) = 0 then
              (if 0 ≤ (s.chip.gpr core x.ra.toNat).toInt then 0x7FFFFFFF else 0x80000000) else (exact32
                  (!((s.chip.gpr core x.ra.toNat) == 0x80000000 && (s.chip.gpr core x.rb.toNat) == 0x80000000) ||
                      (bitAt (s.chip.core core).mode 3))
                  (((s.chip.gpr core x.ra.toNat).toInt * 2 ^ 31).tdiv (s.chip.gpr core x.rb.toNat).toInt)).1.toNat)
          (if (s.chip.gpr core x.rb.toNat) = 0 then flagDz else (exact32 true
                  (((s.chip.gpr core x.ra.toNat).toInt * 2 ^ 31).tdiv (s.chip.gpr core x.rb.toNat).toInt)).2)
          (s.chip.core core).pc) 0)

/-- R95 with the bound of R99; the deviation inside it is a free value (log entry 7). -/
def Obligations.transcendentals : Prop :=
  (∀ (s : State) (core : CoreId) (x : XArgs),
    s.chip.Calm → s.chip.ready core = true → xOk .log2 x = true →
    Leaves (.log2 core x) s core ((s.chip.core core).flying 7 .x (.gpr (gprIx core (s.chip.core core) x.rd.toNat))
          ((xLog2 x.md.toNat (s.chip.gpr core x.ra.toNat).toNat).1)
          ((xLog2 x.md.toNat (s.chip.gpr core x.ra.toNat).toNat).2) (s.chip.core core).pc) 0) ∧
  (∀ (s : State) (core : CoreId) (x : XArgs),
    s.chip.Calm → s.chip.ready core = true → xOk .exp2 x = true →
    Leaves (.exp2 core x) s core ((s.chip.core core).flying 7 .x (.gpr (gprIx core (s.chip.core core) x.rd.toNat))
          ((xExp2 x.md.toNat (s.chip.gpr core x.ra.toNat).toNat).1)
          ((xExp2 x.md.toNat (s.chip.gpr core x.ra.toNat).toNat).2) (s.chip.core core).pc) 0) ∧
  (∀ (s : State) (core : CoreId) (x : XArgs),
    s.chip.Calm → s.chip.ready core = true → xOk .sincos x = true → x.md = 1 →
    Leaves (.sincos core x) s core ((s.chip.core core).flying 9 .x (.gpr (gprIx core (s.chip.core core) x.rd.toNat))
          (xSin (s.chip.gpr core x.ra.toNat).toNat) (0) (s.chip.core core).pc) 0) ∧
  (∀ (s : State) (core : CoreId) (x : XArgs),
    s.chip.Calm → s.chip.ready core = true → xOk .sincos x = true → x.md = 2 →
    Leaves (.sincos core x) s core ((s.chip.core core).flying 9 .x (.gpr (gprIx core (s.chip.core core) x.rd.toNat))
          (xCos (s.chip.gpr core x.ra.toNat).toNat) (0) (s.chip.core core).pc) 0) ∧
  (∀ (s : State) (core : CoreId) (x : XArgs),
    s.chip.Calm → s.chip.ready core = true → xOk .sincos x = true → x.md ≠ 1 → x.md ≠ 2 →
    Leaves (.sincos core x) s core (((s.chip.core core).flying 9 .x
              (.gpr (gprIx core (s.chip.core core) x.rd.toNat)) (xSin (s.chip.gpr core x.ra.toNat).toNat) 0
              (s.chip.core core).pc).flying 9 .x (.gpr (gprIx core (s.chip.core core) x.rb.toNat))
          (xCos (s.chip.gpr core x.ra.toNat).toNat) 0 (s.chip.core core).pc) 0) ∧
  (∀ (s : State) (core : CoreId) (x : XArgs),
    s.chip.Calm → s.chip.ready core = true → xOk .tanh x = true →
    Leaves (.tanh core x) s core ((s.chip.core core).flying 9 .x (.gpr (gprIx core (s.chip.core core) x.rd.toNat))
          (xTanh x.md.toNat (s.chip.gpr core x.ra.toNat).toNat) (0) (s.chip.core core).pc) 0) ∧
  (∀ (a : Nat),
    0 < a → a < 2 ^ 32 → (xLog2 1 a).2 = 0 ∧ |sext (xLog2 1 a).1 32 - log2Fix a| ≤ 17 ∧
    xLog2 1 0 = (0x80000000, flagOv)) ∧
  (∀ (a : Word),
    a ≠ 0 → (xLog2 0 a.toNat).2 = 0 ∧ |sext (xLog2 0 a.toNat).1 32 + 31 * 2 ^ 24 - log2Fix a.toInt.natAbs| ≤ 17 ∧
    xLog2 0 0 = (0x80000000, flagOv)) ∧
  (∀ (a : Word), 7 * 2 ^ 24 ≤ a.toInt → xExp2 0 a.toNat = (0x7FFFFFFF, flagOv)) ∧
  (∀ (a : Word),
    a.toInt < 7 * 2 ^ 24 → (xExp2 0 a.toNat).2 = 0 ∧
    |((xExp2 0 a.toNat).1 : Int) - exp2At a.toInt 24| ≤ exp2At a.toInt 24 / 2 ^ 22 + 1) ∧
  (∀ (a : Word),
    |sext (xSin a.toNat) 32 - sinTurn a.toNat / 2 ^ 29| ≤ 257 ∧
    |sext (xCos a.toNat) 32 - sinTurn ((a + 0x40000000).toNat) / 2 ^ 29| ≤ 257)

/-- The generators of R97. -/
def Obligations.generators : Prop :=
  (∀ (s : State) (core : CoreId) (x : XArgs),
    s.chip.Calm → s.chip.ready core = true → xOk .noise x = true → x.md = 0 ∨ x.md = 3 →
    Leaves (.noise core x) s core ({ (s.chip.core core) with
            genN := BitVec.ofNat 32 (stepN (s.chip.core core).genN.toNat)
            genU := (s.chip.core core).genU }.flying 5 .x (.gpr (gprIx core (s.chip.core core) x.rd.toNat))
          ((stepN (s.chip.core core).genN.toNat)) 0 (s.chip.core core).pc) 0) ∧
  (∀ (s : State) (core : CoreId) (x : XArgs),
    s.chip.Calm → s.chip.ready core = true → xOk .noise x = true → x.md = 1 →
    Leaves (.noise core x) s core ({ (s.chip.core core) with
            genN := BitVec.ofNat 32 (stepN (stepN (s.chip.core core).genN.toNat))
            genU := (s.chip.core core).genU }.flying 5 .x (.gpr (gprIx core (s.chip.core core) x.rd.toNat))
          ((BitVec.ofInt 32 ((BitVec.ofNat 32 (stepN (s.chip.core core).genN.toNat)).toInt / 2 +
                      (BitVec.ofNat 32 (stepN (stepN (s.chip.core core).genN.toNat))).toInt / 2)).toNat) 0
          (s.chip.core core).pc) 0) ∧
  (∀ (s : State) (core : CoreId) (x : XArgs),
    s.chip.Calm → s.chip.ready core = true → xOk .noise x = true → x.md = 2 →
    Leaves (.noise core x) s core ({ (s.chip.core core) with
            genN := BitVec.ofNat 32 (stepN (stepN (stepN (stepN (s.chip.core core).genN.toNat))))
            genU := (s.chip.core core).genU }.flying 5 .x (.gpr (gprIx core (s.chip.core core) x.rd.toNat))
          ((BitVec.ofInt 32 ((BitVec.ofNat 32 (stepN (s.chip.core core).genN.toNat)).toInt / 4 +
                      (BitVec.ofNat 32 (stepN (stepN (s.chip.core core).genN.toNat))).toInt / 4 +
                      (BitVec.ofNat 32 (stepN (stepN (stepN (s.chip.core core).genN.toNat)))).toInt / 4 +
                      (BitVec.ofNat 32 (stepN (stepN (stepN (stepN (s.chip.core core).genN.toNat))))).toInt / 4)).toNat)
          0 (s.chip.core core).pc) 0) ∧
  (∀ (s : State) (core : CoreId) (x : XArgs),
    s.chip.Calm → s.chip.ready core = true → xOk .rand x = true →
    Leaves (.rand core x) s core ({ (s.chip.core core) with
            genN := (s.chip.core core).genN
            genU := BitVec.ofNat 32 (stepU (s.chip.core core).genU.toNat) }.flying 5 .x
          (.gpr (gprIx core (s.chip.core core) x.rd.toNat)) (if (s.chip.gpr core x.rb.toNat) = 0 then stepU
              (s.chip.core core).genU.toNat else stepU (s.chip.core core).genU.toNat *
              (s.chip.gpr core x.rb.toNat).toNat / 2 ^ 32) 0 (s.chip.core core).pc) 0) ∧
  (∀ (s : State) (core : CoreId) (x : XArgs),
    s.chip.Calm → s.chip.ready core = true → xOk .seed x = true →
    Leaves (.seed core x) s core ((s.chip.core core).flying 5 .x (.seed (if x.md = 3 then 0 else x.md.toNat))
          (if (s.chip.gpr core x.ra.toNat) = 0 then 1 else (s.chip.gpr core x.ra.toNat).toNat) 0
          (s.chip.core core).pc) 0) ∧
  (∀ (s : State) (core : CoreId) (x : XArgs),
    s.chip.Calm → s.chip.ready core = true → xOk .getstate x = true →
    Leaves (.getstate core x) s core ((s.chip.core core).flying 5 .x
          (.gpr (gprIx core (s.chip.core core) x.rd.toNat))
          (if x.md = 1 then (s.chip.core core).genU else (s.chip.core core).genN).toNat 0 (s.chip.core core).pc) 0) ∧
  (∀ (n : Word), lfsr1 n.toNat = (if n.getLsbD 0 = true then (n >>> 1) ^^^ 0x80200003 else n >>> 1).toNat) ∧
  (∀ (u : Word), stepU u.toNat = (let a := u ^^^ (u <<< 13); let b := a ^^^ (a >>> 17); b ^^^ (b <<< 5)).toNat)

/-- The interpolations of R98, written out as polynomials in the fraction. -/
def Obligations.interpolation : Prop :=
  (∀ (s : State) (core : CoreId) (x : XArgs),
    s.chip.Calm → s.chip.ready core = true → xOk .interp4 x = true → x.md = 0 ∨ x.md = 3 →
    Leaves (.interp4 core x) s core ((s.chip.core core).flying 5 .x
          (.gpr (gprIx core (s.chip.core core) x.rd.toNat)) (exact32 true (rndEven (
                      (2 * (s.chip.gpr core (x.ra.toNat + 1)).toInt) * 2 ^ 96 +
                      ((s.chip.gpr core x.rb.toNat).toNat : Int) * (
                          ((s.chip.gpr core (x.ra.toNat + 2)).toInt - (s.chip.gpr core (x.ra.toNat + 0)).toInt) * 2
                          ^ 64 + ((s.chip.gpr core x.rb.toNat).toNat : Int) * ((2 *
                                  (s.chip.gpr core (x.ra.toNat + 0)).toInt - 5 *
                                  (s.chip.gpr core (x.ra.toNat + 1)).toInt + 4 *
                                  (s.chip.gpr core (x.ra.toNat + 2)).toInt -
                                  (s.chip.gpr core (x.ra.toNat + 3)).toInt) * 2 ^ 32 +
                              ((s.chip.gpr core x.rb.toNat).toNat : Int) * (3 * (
                                      (s.chip.gpr core (x.ra.toNat + 1)).toInt -
                                      (s.chip.gpr core (x.ra.toNat + 2)).toInt) +
                                  (s.chip.gpr core (x.ra.toNat + 3)).toInt -
                                  (s.chip.gpr core (x.ra.toNat + 0)).toInt)))) (2 ^ 97))).1.toNat
          (exact32 true (rndEven ((2 * (s.chip.gpr core (x.ra.toNat + 1)).toInt) * 2 ^ 96 +
                      ((s.chip.gpr core x.rb.toNat).toNat : Int) * (
                          ((s.chip.gpr core (x.ra.toNat + 2)).toInt - (s.chip.gpr core (x.ra.toNat + 0)).toInt) * 2
                          ^ 64 + ((s.chip.gpr core x.rb.toNat).toNat : Int) * ((2 *
                                  (s.chip.gpr core (x.ra.toNat + 0)).toInt - 5 *
                                  (s.chip.gpr core (x.ra.toNat + 1)).toInt + 4 *
                                  (s.chip.gpr core (x.ra.toNat + 2)).toInt -
                                  (s.chip.gpr core (x.ra.toNat + 3)).toInt) * 2 ^ 32 +
                              ((s.chip.gpr core x.rb.toNat).toNat : Int) * (3 * (
                                      (s.chip.gpr core (x.ra.toNat + 1)).toInt -
                                      (s.chip.gpr core (x.ra.toNat + 2)).toInt) +
                                  (s.chip.gpr core (x.ra.toNat + 3)).toInt -
                                  (s.chip.gpr core (x.ra.toNat + 0)).toInt)))) (2 ^ 97))).2 (s.chip.core core).pc) 0) ∧
  (∀ (s : State) (core : CoreId) (x : XArgs),
    s.chip.Calm → s.chip.ready core = true → xOk .interp4 x = true → x.md = 1 →
    Leaves (.interp4 core x) s core ((s.chip.core core).flying 5 .x
          (.gpr (gprIx core (s.chip.core core) x.rd.toNat)) (exact32 true (rndEven ((-1) *
                      (s.chip.gpr core (x.ra.toNat + 0)).toInt * (((s.chip.gpr core x.rb.toNat).toNat : Int) *
                          (((s.chip.gpr core x.rb.toNat).toNat : Int) - 1 * 2 ^ 32) *
                          (((s.chip.gpr core x.rb.toNat).toNat : Int) - 2 * 2 ^ 32)) + (3) *
                      (s.chip.gpr core (x.ra.toNat + 1)).toInt * (
                          (((s.chip.gpr core x.rb.toNat).toNat : Int) + 1 * 2 ^ 32) *
                          (((s.chip.gpr core x.rb.toNat).toNat : Int) - 1 * 2 ^ 32) *
                          (((s.chip.gpr core x.rb.toNat).toNat : Int) - 2 * 2 ^ 32)) + (-3) *
                      (s.chip.gpr core (x.ra.toNat + 2)).toInt * (
                          (((s.chip.gpr core x.rb.toNat).toNat : Int) + 1 * 2 ^ 32) *
                          ((s.chip.gpr core x.rb.toNat).toNat : Int) *
                          (((s.chip.gpr core x.rb.toNat).toNat : Int) - 2 * 2 ^ 32)) + (1) *
                      (s.chip.gpr core (x.ra.toNat + 3)).toInt * (
                          (((s.chip.gpr core x.rb.toNat).toNat : Int) + 1 * 2 ^ 32) *
                          ((s.chip.gpr core x.rb.toNat).toNat : Int) *
                          (((s.chip.gpr core x.rb.toNat).toNat : Int) - 1 * 2 ^ 32))) (6 * 2 ^ 96))).1.toNat
          (exact32 true (rndEven ((-1) * (s.chip.gpr core (x.ra.toNat + 0)).toInt * (
                          ((s.chip.gpr core x.rb.toNat).toNat : Int) *
                          (((s.chip.gpr core x.rb.toNat).toNat : Int) - 1 * 2 ^ 32) *
                          (((s.chip.gpr core x.rb.toNat).toNat : Int) - 2 * 2 ^ 32)) + (3) *
                      (s.chip.gpr core (x.ra.toNat + 1)).toInt * (
                          (((s.chip.gpr core x.rb.toNat).toNat : Int) + 1 * 2 ^ 32) *
                          (((s.chip.gpr core x.rb.toNat).toNat : Int) - 1 * 2 ^ 32) *
                          (((s.chip.gpr core x.rb.toNat).toNat : Int) - 2 * 2 ^ 32)) + (-3) *
                      (s.chip.gpr core (x.ra.toNat + 2)).toInt * (
                          (((s.chip.gpr core x.rb.toNat).toNat : Int) + 1 * 2 ^ 32) *
                          ((s.chip.gpr core x.rb.toNat).toNat : Int) *
                          (((s.chip.gpr core x.rb.toNat).toNat : Int) - 2 * 2 ^ 32)) + (1) *
                      (s.chip.gpr core (x.ra.toNat + 3)).toInt * (
                          (((s.chip.gpr core x.rb.toNat).toNat : Int) + 1 * 2 ^ 32) *
                          ((s.chip.gpr core x.rb.toNat).toNat : Int) *
                          (((s.chip.gpr core x.rb.toNat).toNat : Int) - 1 * 2 ^ 32))) (6 * 2 ^ 96))).2
          (s.chip.core core).pc) 0) ∧
  (∀ (s : State) (core : CoreId) (x : XArgs),
    s.chip.Calm → s.chip.ready core = true → xOk .interp4 x = true → x.md = 2 →
    Leaves (.interp4 core x) s core ((s.chip.core core).flying 5 .x
          (.gpr (gprIx core (s.chip.core core) x.rd.toNat)) (exact32 true (rndEven (
                      (s.chip.gpr core (x.ra.toNat + 1)).toInt * 2 ^ 32 + ((s.chip.gpr core x.rb.toNat).toNat : Int)
                      * ((s.chip.gpr core (x.ra.toNat + 2)).toInt - (s.chip.gpr core (x.ra.toNat + 1)).toInt))
                  (2 ^ 32))).1.toNat (exact32 true (rndEven ((s.chip.gpr core (x.ra.toNat + 1)).toInt * 2 ^ 32 +
                      ((s.chip.gpr core x.rb.toNat).toNat : Int) *
                      ((s.chip.gpr core (x.ra.toNat + 2)).toInt - (s.chip.gpr core (x.ra.toNat + 1)).toInt))
                  (2 ^ 32))).2 (s.chip.core core).pc) 0) ∧
  (∀ (s : State) (core : CoreId) (x : XArgs),
    s.chip.Calm → s.chip.ready core = true → xOk .interp6 x = true →
    Leaves (.interp6 core x) s core ((s.chip.core core).flying 7 .x
          (.gpr (gprIx core (s.chip.core core) x.rd.toNat)) (exact32 true (rndEven ((-1) *
                      (s.chip.gpr core (x.ra.toNat + 0)).toInt * (
                          (((s.chip.gpr core x.rb.toNat).toNat : Int) + 1 * 2 ^ 32) *
                          ((s.chip.gpr core x.rb.toNat).toNat : Int) *
                          (((s.chip.gpr core x.rb.toNat).toNat : Int) - 1 * 2 ^ 32) *
                          (((s.chip.gpr core x.rb.toNat).toNat : Int) - 2 * 2 ^ 32) *
                          (((s.chip.gpr core x.rb.toNat).toNat : Int) - 3 * 2 ^ 32)) + (5) *
                      (s.chip.gpr core (x.ra.toNat + 1)).toInt * (
                          (((s.chip.gpr core x.rb.toNat).toNat : Int) + 2 * 2 ^ 32) *
                          ((s.chip.gpr core x.rb.toNat).toNat : Int) *
                          (((s.chip.gpr core x.rb.toNat).toNat : Int) - 1 * 2 ^ 32) *
                          (((s.chip.gpr core x.rb.toNat).toNat : Int) - 2 * 2 ^ 32) *
                          (((s.chip.gpr core x.rb.toNat).toNat : Int) - 3 * 2 ^ 32)) + (-10) *
                      (s.chip.gpr core (x.ra.toNat + 2)).toInt * (
                          (((s.chip.gpr core x.rb.toNat).toNat : Int) + 2 * 2 ^ 32) *
                          (((s.chip.gpr core x.rb.toNat).toNat : Int) + 1 * 2 ^ 32) *
                          (((s.chip.gpr core x.rb.toNat).toNat : Int) - 1 * 2 ^ 32) *
                          (((s.chip.gpr core x.rb.toNat).toNat : Int) - 2 * 2 ^ 32) *
                          (((s.chip.gpr core x.rb.toNat).toNat : Int) - 3 * 2 ^ 32)) + (10) *
                      (s.chip.gpr core (x.ra.toNat + 3)).toInt * (
                          (((s.chip.gpr core x.rb.toNat).toNat : Int) + 2 * 2 ^ 32) *
                          (((s.chip.gpr core x.rb.toNat).toNat : Int) + 1 * 2 ^ 32) *
                          ((s.chip.gpr core x.rb.toNat).toNat : Int) *
                          (((s.chip.gpr core x.rb.toNat).toNat : Int) - 2 * 2 ^ 32) *
                          (((s.chip.gpr core x.rb.toNat).toNat : Int) - 3 * 2 ^ 32)) + (-5) *
                      (s.chip.gpr core (x.ra.toNat + 4)).toInt * (
                          (((s.chip.gpr core x.rb.toNat).toNat : Int) + 2 * 2 ^ 32) *
                          (((s.chip.gpr core x.rb.toNat).toNat : Int) + 1 * 2 ^ 32) *
                          ((s.chip.gpr core x.rb.toNat).toNat : Int) *
                          (((s.chip.gpr core x.rb.toNat).toNat : Int) - 1 * 2 ^ 32) *
                          (((s.chip.gpr core x.rb.toNat).toNat : Int) - 3 * 2 ^ 32)) + (1) *
                      (s.chip.gpr core (x.ra.toNat + 5)).toInt * (
                          (((s.chip.gpr core x.rb.toNat).toNat : Int) + 2 * 2 ^ 32) *
                          (((s.chip.gpr core x.rb.toNat).toNat : Int) + 1 * 2 ^ 32) *
                          ((s.chip.gpr core x.rb.toNat).toNat : Int) *
                          (((s.chip.gpr core x.rb.toNat).toNat : Int) - 1 * 2 ^ 32) *
                          (((s.chip.gpr core x.rb.toNat).toNat : Int) - 2 * 2 ^ 32))) (120 * 2 ^ 160))).1.toNat
          (exact32 true (rndEven ((-1) * (s.chip.gpr core (x.ra.toNat + 0)).toInt * (
                          (((s.chip.gpr core x.rb.toNat).toNat : Int) + 1 * 2 ^ 32) *
                          ((s.chip.gpr core x.rb.toNat).toNat : Int) *
                          (((s.chip.gpr core x.rb.toNat).toNat : Int) - 1 * 2 ^ 32) *
                          (((s.chip.gpr core x.rb.toNat).toNat : Int) - 2 * 2 ^ 32) *
                          (((s.chip.gpr core x.rb.toNat).toNat : Int) - 3 * 2 ^ 32)) + (5) *
                      (s.chip.gpr core (x.ra.toNat + 1)).toInt * (
                          (((s.chip.gpr core x.rb.toNat).toNat : Int) + 2 * 2 ^ 32) *
                          ((s.chip.gpr core x.rb.toNat).toNat : Int) *
                          (((s.chip.gpr core x.rb.toNat).toNat : Int) - 1 * 2 ^ 32) *
                          (((s.chip.gpr core x.rb.toNat).toNat : Int) - 2 * 2 ^ 32) *
                          (((s.chip.gpr core x.rb.toNat).toNat : Int) - 3 * 2 ^ 32)) + (-10) *
                      (s.chip.gpr core (x.ra.toNat + 2)).toInt * (
                          (((s.chip.gpr core x.rb.toNat).toNat : Int) + 2 * 2 ^ 32) *
                          (((s.chip.gpr core x.rb.toNat).toNat : Int) + 1 * 2 ^ 32) *
                          (((s.chip.gpr core x.rb.toNat).toNat : Int) - 1 * 2 ^ 32) *
                          (((s.chip.gpr core x.rb.toNat).toNat : Int) - 2 * 2 ^ 32) *
                          (((s.chip.gpr core x.rb.toNat).toNat : Int) - 3 * 2 ^ 32)) + (10) *
                      (s.chip.gpr core (x.ra.toNat + 3)).toInt * (
                          (((s.chip.gpr core x.rb.toNat).toNat : Int) + 2 * 2 ^ 32) *
                          (((s.chip.gpr core x.rb.toNat).toNat : Int) + 1 * 2 ^ 32) *
                          ((s.chip.gpr core x.rb.toNat).toNat : Int) *
                          (((s.chip.gpr core x.rb.toNat).toNat : Int) - 2 * 2 ^ 32) *
                          (((s.chip.gpr core x.rb.toNat).toNat : Int) - 3 * 2 ^ 32)) + (-5) *
                      (s.chip.gpr core (x.ra.toNat + 4)).toInt * (
                          (((s.chip.gpr core x.rb.toNat).toNat : Int) + 2 * 2 ^ 32) *
                          (((s.chip.gpr core x.rb.toNat).toNat : Int) + 1 * 2 ^ 32) *
                          ((s.chip.gpr core x.rb.toNat).toNat : Int) *
                          (((s.chip.gpr core x.rb.toNat).toNat : Int) - 1 * 2 ^ 32) *
                          (((s.chip.gpr core x.rb.toNat).toNat : Int) - 3 * 2 ^ 32)) + (1) *
                      (s.chip.gpr core (x.ra.toNat + 5)).toInt * (
                          (((s.chip.gpr core x.rb.toNat).toNat : Int) + 2 * 2 ^ 32) *
                          (((s.chip.gpr core x.rb.toNat).toNat : Int) + 1 * 2 ^ 32) *
                          ((s.chip.gpr core x.rb.toNat).toNat : Int) *
                          (((s.chip.gpr core x.rb.toNat).toNat : Int) - 1 * 2 ^ 32) *
                          (((s.chip.gpr core x.rb.toNat).toNat : Int) - 2 * 2 ^ 32))) (120 * 2 ^ 160))).2
          (s.chip.core core).pc) 0)

/-- Control flow of R61, R62, R69 and R100 over one issue. -/
def Obligations.windowAndCalls : Prop :=
  (∀ (s : State) (core : CoreId) (arg : BitVec 24),
    s.chip.Calm → s.chip.ready core = true → Leaves (.nop core arg) s core (s.chip.core core) 0) ∧
  (∀ (s : State) (core : CoreId) (arg : BitVec 24) (wb : Nat),
    s.chip.Calm → s.chip.ready core = true →
    ((wb : Int) = ((s.chip.core core).wb + 8 * (BitVec.ofNat 6 arg.toNat).toInt) % (pfSize core : Int)) →
    Leaves (.win core arg) s core { (s.chip.core core) with wb := wb } (if
          (0 < (BitVec.ofNat 6 arg.toNat).toInt ∧ wb < (s.chip.core core).wb) ∨
          ((BitVec.ofNat 6 arg.toNat).toInt < 0 ∧ (s.chip.core core).wb < wb) then flagWrap else 0)) ∧
  (∀ (s : State) (core : CoreId) (arg : BitVec 24) (target wb : Nat),
    s.chip.Calm → s.chip.ready core = true →
    target = wrapPc core ((s.chip.core core).pc + 4 * (BitVec.ofNat 22 arg.toNat).toInt) →
    wb = ((s.chip.core core).wb + 8 * max 1 (bits arg.toNat 23 22)) % pfSize core →
    Chip.executable core target = true →
    Leaves (.call core arg) s core { (s.chip.core core) with
        xfer := some ⟨some target, wb, some (s.chip.core core).wb, false,
                  (if wb < (s.chip.core core).wb then flagWrap else 0) |||
                  (if (s.chip.core core).stack.length = 16 then flagRsovf else 0)⟩ } 0) ∧
  (∀ (s : State) (core : CoreId) (arg : BitVec 24) (a wb : Nat) (rest : List (Nat × Nat)),
    s.chip.Calm → s.chip.ready core = true → ((s.chip.core core).stack = (a, wb) :: rest) →
    Chip.executable core a = true →
    Leaves (.ret core arg) s core { (s.chip.core core) with
        xfer := some ⟨some a, wb, none, true, if (s.chip.core core).wb < wb then flagWrap else 0⟩ } 0) ∧
  (∀ (s : State) (core : CoreId) (arg : BitVec 24),
    s.chip.Calm → s.chip.ready core = true → ((s.chip.core core).stack = []) →
    Leaves (.ret core arg) s core
      { (s.chip.core core) with xfer := some ⟨none, (s.chip.core core).wb, none, false, flagRsunf⟩ } 0) ∧
  (∀ (s : State) (core : CoreId) (arg : BitVec 24) (g : Bool) (n : Nat),
    s.chip.Calm → s.chip.ready core = true →
    n = (if g = true then (s.chip.core core).rd core (bits arg.toNat 2 0) % 4096 else bits arg.toNat 11 0) →
    Leaves (.rep core g arg) s core { (s.chip.core core) with
        repOn := true
        repI := bitAt arg.toNat 12
        repcnt := (if n = 0 then 4096 else n) - 1 } 0) ∧
  (∀ (s : State) (core : CoreId) (arg : BitVec 24) (x : Xfer),
    s.chip.Calm → s.chip.issues core = true → ((s.chip.core core).flights.isEmpty = true) →
    ((s.chip.core core).xfer = some x) → ((s.chip.core core).repOn = false) →
    ∃ t, exec (.nop core arg) s = .next t ∧
    (t.chip.core core).arch = { (s.chip.core core).arch with
        xfer := none
        wb := x.wb
        pc := x.target.getD (wrapPc core ((s.chip.core core).pc + 4 : Nat))
        stack := (
                match x.push with
                | some w => ((wrapPc core ((s.chip.core core).pc + 4 : Nat), w) :: (s.chip.core core).stack).take 16
                | none => if x.pop = true then (s.chip.core core).stack.drop 1 else (s.chip.core core).stack) } ∧
    t.chip.flagsOf core = s.chip.flagsOf core ||| x.flags ∧ OnlyCore core s t) ∧
  (∀ (s : State) (core : CoreId) (arg : BitVec 24),
    s.chip.Calm → s.chip.issues core = true → ((s.chip.core core).flights.isEmpty = true) →
    ((s.chip.core core).xfer = none) → ((s.chip.core core).repOn = true) → ∃ t, exec (.nop core arg) s = .next t ∧
    (t.chip.core core).arch = (if (s.chip.core core).repcnt = 0 then
          { (s.chip.core core).arch with pc := wrapPc core ((s.chip.core core).pc + 4 : Nat), repOn := false } else
          { (s.chip.core core).arch with repcnt := (s.chip.core core).repcnt - 1 }) ∧ OnlyCore core s t) ∧
  (∀ (s : State) (core : CoreId) (arg : BitVec 24),
    s.chip.Calm → s.chip.ready core = true → core.val < 10 → ∃ t, exec (.tickwait core arg) s = .next t ∧
    t.chip.engState core = (if s.chip.bit (F.ENG_CTRL_TICK_EN core) = true then 3 else 2) ∧
    (t.chip.core core).arch = { (s.chip.core core).arch with pc := wrapPc core ((s.chip.core core).pc + 4 : Nat) } ∧
    Only [Reg.ENG_STATUS core] s t { s.chip with cores := t.chip.cores, aux := t.chip.aux })

/-- The compact branches of R105: the condition, the target, and the link of JAL. -/
def Obligations.branches : Prop :=
  (∀ (s : State) (core : CoreId) (x : BArgs),
    s.chip.Calm → s.chip.ready core = true →
    (core.val < 10 → s.chip.bundleRegion core (s.chip.core core).pc = false) →
    Chip.executable core (wrapPc core ((s.chip.core core).pc + 2 * x.off.toInt)) = true →
    ∃ t, exec (.b core x) s = .next t ∧
    (t.chip.core core).arch = { (s.chip.core core).arch with
        pc := if True then wrapPc core ((s.chip.core core).pc + 2 * x.off.toInt) else wrapPc core
              ((s.chip.core core).pc + 4 : Nat) } ∧ t.chip.flagsOf core = s.chip.flagsOf core ∧ OnlyCore core s t) ∧
  (∀ (s : State) (core : CoreId) (x : BArgs),
    s.chip.Calm → s.chip.ready core = true →
    (core.val < 10 → s.chip.bundleRegion core (s.chip.core core).pc = false) → isGpr x.rs.toNat = true →
    Chip.executable core (wrapPc core ((s.chip.core core).pc + 2 * x.off.toInt)) = true →
    ∃ t, exec (.beqz core x) s = .next t ∧
    (t.chip.core core).arch = { (s.chip.core core).arch with
        pc := if (s.chip.gpr core x.rs.toNat) = 0 then wrapPc core ((s.chip.core core).pc + 2 * x.off.toInt) else
              wrapPc core ((s.chip.core core).pc + 4 : Nat) } ∧ t.chip.flagsOf core = s.chip.flagsOf core ∧
    OnlyCore core s t) ∧
  (∀ (s : State) (core : CoreId) (x : BArgs),
    s.chip.Calm → s.chip.ready core = true →
    (core.val < 10 → s.chip.bundleRegion core (s.chip.core core).pc = false) → isGpr x.rs.toNat = true →
    Chip.executable core (wrapPc core ((s.chip.core core).pc + 2 * x.off.toInt)) = true →
    ∃ t, exec (.bnez core x) s = .next t ∧
    (t.chip.core core).arch = { (s.chip.core core).arch with
        pc := if (s.chip.gpr core x.rs.toNat) ≠ 0 then wrapPc core ((s.chip.core core).pc + 2 * x.off.toInt) else
              wrapPc core ((s.chip.core core).pc + 4 : Nat) } ∧ t.chip.flagsOf core = s.chip.flagsOf core ∧
    OnlyCore core s t) ∧
  (∀ (s : State) (core : CoreId) (x : BArgs),
    s.chip.Calm → s.chip.ready core = true →
    (core.val < 10 → s.chip.bundleRegion core (s.chip.core core).pc = false) → isGpr x.rs.toNat = true →
    Chip.executable core (wrapPc core ((s.chip.core core).pc + 2 * x.off.toInt)) = true →
    ∃ t, exec (.bltz core x) s = .next t ∧
    (t.chip.core core).arch = { (s.chip.core core).arch with
        pc := if (s.chip.gpr core x.rs.toNat).slt 0 = true then wrapPc core
              ((s.chip.core core).pc + 2 * x.off.toInt) else wrapPc core ((s.chip.core core).pc + 4 : Nat) } ∧
    t.chip.flagsOf core = s.chip.flagsOf core ∧ OnlyCore core s t) ∧
  (∀ (s : State) (core : CoreId) (x : BArgs),
    s.chip.Calm → s.chip.ready core = true →
    (core.val < 10 → s.chip.bundleRegion core (s.chip.core core).pc = false) → isGpr x.rs.toNat = true →
    Chip.executable core (wrapPc core ((s.chip.core core).pc + 2 * x.off.toInt)) = true →
    ∃ t, exec (.bgez core x) s = .next t ∧
    (t.chip.core core).arch = { (s.chip.core core).arch with
        pc := if (s.chip.gpr core x.rs.toNat).slt 0 = false then wrapPc core
              ((s.chip.core core).pc + 2 * x.off.toInt) else wrapPc core ((s.chip.core core).pc + 4 : Nat) } ∧
    t.chip.flagsOf core = s.chip.flagsOf core ∧ OnlyCore core s t) ∧
  (∀ (s : State) (core : CoreId) (x : BArgs),
    s.chip.Calm → s.chip.ready core = true →
    (core.val < 10 → s.chip.bundleRegion core (s.chip.core core).pc = false) → isGpr x.rs.toNat = true →
    Chip.executable core (wrapPc core ((s.chip.core core).pc + 2 * x.off.toInt)) = true →
    ∃ t, exec (.bgtz core x) s = .next t ∧
    (t.chip.core core).arch = { (s.chip.core core).arch with
        pc := if BitVec.slt 0 (s.chip.gpr core x.rs.toNat) = true then wrapPc core
              ((s.chip.core core).pc + 2 * x.off.toInt) else wrapPc core ((s.chip.core core).pc + 4 : Nat) } ∧
    t.chip.flagsOf core = s.chip.flagsOf core ∧ OnlyCore core s t) ∧
  (∀ (s : State) (core : CoreId) (x : BArgs),
    s.chip.Calm → s.chip.ready core = true →
    (core.val < 10 → s.chip.bundleRegion core (s.chip.core core).pc = false) → isGpr x.rs.toNat = true →
    Chip.executable core (wrapPc core ((s.chip.core core).pc + 2 * x.off.toInt)) = true →
    ∃ t, exec (.blez core x) s = .next t ∧
    (t.chip.core core).arch = { (s.chip.core core).arch with
        pc := if BitVec.slt 0 (s.chip.gpr core x.rs.toNat) = false then wrapPc core
              ((s.chip.core core).pc + 2 * x.off.toInt) else wrapPc core ((s.chip.core core).pc + 4 : Nat) } ∧
    t.chip.flagsOf core = s.chip.flagsOf core ∧ OnlyCore core s t) ∧
  (∀ (s : State) (core : CoreId) (x : BArgs),
    s.chip.Calm → s.chip.ready core = true →
    (core.val < 10 → s.chip.bundleRegion core (s.chip.core core).pc = false) → isGpr x.rs.toNat = true →
    Chip.executable core (wrapPc core ((s.chip.gpr core x.rs.toNat).toNat / 2 * 2 : Nat)) = true →
    ∃ t, exec (.jr core x) s = .next t ∧
    (t.chip.core core).arch = { (s.chip.core core).arch with
        pc := if True then wrapPc core ((s.chip.gpr core x.rs.toNat).toNat / 2 * 2 : Nat) else wrapPc core
              ((s.chip.core core).pc + 4 : Nat) } ∧ t.chip.flagsOf core = s.chip.flagsOf core ∧ OnlyCore core s t) ∧
  (∀ (s : State) (core : CoreId) (x : BArgs),
    s.chip.Calm → s.chip.ready core = true →
    (core.val < 10 → s.chip.bundleRegion core (s.chip.core core).pc = false) → isGpr x.rs.toNat = true →
    Chip.executable core (wrapPc core ((s.chip.core core).pc + 2 * x.off.toInt)) = true →
    ∃ t, exec (.jal core x) s = .next t ∧
    (t.chip.core core).arch = { ((s.chip.core core).setGpr (gprIx core (s.chip.core core) x.rs.toNat) (wrapPc core ((s.chip.core core).pc + 4 : Nat))).arch with
        pc := if True then wrapPc core ((s.chip.core core).pc + 2 * x.off.toInt) else wrapPc core
              ((s.chip.core core).pc + 4 : Nat) } ∧ t.chip.flagsOf core = s.chip.flagsOf core ∧ OnlyCore core s t)

/-- Traps of spec/14: entry (R321), the fault of an undefined instruction (R109, R319), return (R322), EVWAIT (R324). -/
def Obligations.trapsOfTheCores : Prop :=
  (∀ (s : State) (core : CoreId),
    s.chip.Calm → 10 ≤ core.val → s.chip.domOn core = true → ((s.chip.auxOf core).run ≠ .stopped) →
    s.chip.interruptDue core = true → ∃ t, exec (.interrupt core) s = .next t ∧
    t.chip.reg (Reg.CORE_RPC (s.chip.topEvent core).1 + bankOf core) = BitVec.ofNat 32
      ((s.chip.core core).pc / 2 * 2) ∧
    t.chip.reg (Reg.CORE_RSAVE (s.chip.topEvent core).1 + bankOf core) = BitVec.ofNat 32 (s.chip.runlvl core * 2 ^
          28 + s.chip.fld (F.CORE_ESTAT_IE.bank core) * 2 ^ 27 +
          (if (s.chip.core core).repOn = true then (s.chip.core core).repcnt + 1 else 0) % 8192 * 2 ^ 14 +
          (s.chip.topEvent core).2 * 128 + (s.chip.core core).wb % 128) ∧
    t.chip.fld (F.CORE_ESTAT_RUNLVL.bank core) = (s.chip.topEvent core).1 ∧
    t.chip.fld (F.CORE_ESTAT_IE.bank core) = s.chip.fld (F.CORE_ESTAT_IE.bank core) ∧
    (t.chip.core core).pc = ((s.chip.reg (Reg.CORE_VBASE + bankOf core)).toNat + 0x40 * (s.chip.topEvent core).1) %
      2 ^ 32 ∧ (t.chip.core core).wb = ((s.chip.core core).wb + 24) % pfSize core ∧
    (t.chip.core core).repOn = false ∧
    Only [Reg.CORE_RPC (s.chip.topEvent core).1 + bankOf core, Reg.CORE_RSAVE (s.chip.topEvent core).1 + bankOf
          core, (Reg.CORE_ESTAT + bankOf core), Reg.ENG_FLAGS core] s t
      { s.chip with cores := t.chip.cores, aux := t.chip.aux }) ∧
  (∀ (s : State) (core : CoreId),
    s.chip.Calm → s.chip.interruptDue core = false ∨ core.val < 10 → ∃ t, exec (.interrupt core) s = .next t ∧
    Only [] s t s.chip) ∧
  (∀ (s : State) (core : CoreId) (arg : BitVec 24),
    s.chip.Calm → 10 ≤ core.val → s.chip.ready core = true → s.chip.runlvl core < 9 →
    ∃ t, exec (.tickwait core arg) s = .next t ∧ t.chip.fld (F.CORE_ECAUSE_CAUSE.bank core) = 1 ∧
    t.chip.reg (Reg.CORE_EADDR + bankOf core) = BitVec.ofNat 32 (s.chip.core core).pc ∧
    t.chip.reg (Reg.CORE_RPC 9 + bankOf core) = BitVec.ofNat 32 ((s.chip.core core).pc / 2 * 2) ∧
    t.chip.reg (Reg.CORE_RSAVE 9 + bankOf core) = BitVec.ofNat 32 (s.chip.runlvl core * 2 ^ 28 + s.chip.fld
          (F.CORE_ESTAT_IE.bank core) * 2 ^ 27 +
          (if (s.chip.core core).repOn = true then (s.chip.core core).repcnt + 1 else 0) % 8192 * 2 ^ 14 + 0 * 128 +
          (s.chip.core core).wb % 128) ∧ t.chip.fld (F.CORE_ESTAT_RUNLVL.bank core) = 9 ∧
    t.chip.fld (F.CORE_ESTAT_IE.bank core) = s.chip.fld (F.CORE_ESTAT_IE.bank core) ∧
    (t.chip.core core).pc = ((s.chip.reg (Reg.CORE_VBASE + bankOf core)).toNat + 0x40 * 9) % 2 ^ 32 ∧
    (t.chip.core core).wb = ((s.chip.core core).wb + 24) % pfSize core ∧ (t.chip.core core).repOn = false ∧
    Only [Reg.CORE_RPC 9 + bankOf core, Reg.CORE_RSAVE 9 + bankOf core, Reg.CORE_ECAUSE + bankOf core,
          Reg.CORE_EADDR + bankOf core, (Reg.CORE_ESTAT + bankOf core), Reg.ENG_FLAGS core] s t
      { s.chip with cores := t.chip.cores, aux := t.chip.aux }) ∧
  (∀ (s : State) (core : CoreId) (n : Nat) (f : Word),
    s.chip.Calm → 10 ≤ core.val → s.chip.ready core = true → s.chip.runlvl core = n → 0 < n →
    s.chip.reg (Reg.CORE_RSAVE n + bankOf core) = f → ∃ t, exec (.resume core) s = .next t ∧
    (t.chip.core core).pc = (s.chip.reg (Reg.CORE_RPC n + bankOf core)).toNat ∧
    (t.chip.core core).wb = bits f.toNat 6 3 * 8 % pfSize core ∧
    (t.chip.core core).repOn = decide (0 < bits f.toNat 26 14) ∧
    (t.chip.core core).repcnt = bits f.toNat 26 14 - 1 ∧
    t.chip.fld (F.CORE_ESTAT_IE.bank core) = bits f.toNat 27 27 ∧
    t.chip.fld (F.CORE_ESTAT_RUNLVL.bank core) = min 9 (bits f.toNat 31 28) ∧
    Only [(Reg.CORE_ESTAT + bankOf core), Reg.ENG_FLAGS core] s t
      { s.chip with cores := t.chip.cores, aux := t.chip.aux }) ∧
  (∀ (s : State) (core : CoreId),
    s.chip.Calm → 10 ≤ core.val → s.chip.ready core = true → ∃ t, exec (.evwait core) s = .next t ∧
    (t.chip.auxOf core).run = (if s.chip.evwaitOver core = true then .running else .waiting) ∧
    (t.chip.core core).arch = { (s.chip.core core).arch with pc := wrapPc core ((s.chip.core core).pc + 2 : Nat) } ∧
    OnlyCore core s t)

/-- What an operation row does is what its bundle or instruction does in memory (R54, R106; log entry 9). -/
def Obligations.bundleIssue : Prop :=
  (∀ (s : State) (i : Instr) (core : CoreId) (sy : Syl) (wait : Nat) (w : Word),
    s.chip.ready core = true → core.val < 10 → s.chip.bundleRegion core (s.chip.core core).pc = true →
    s.chip.peek (engBase core + (s.chip.core core).pc) = w →
    s.chip.eccOf (engBase core + (s.chip.core core).pc) = 0 → sylStop w = true → decodeSyl w = sy →
    opRow i = some (core, sy) → exec (.bundleIssue core wait) s = exec i s) ∧
  (∀ (s : State) (i : Instr) (core : CoreId) (sy : Syl),
    s.chip.ready core = true →
    (core.val < 10 → s.chip.bundleRegion core (s.chip.core core).pc = false ∧
        s.chip.fetchEcc core [((s.chip.core core).pc / 4 * 4, 0), (((s.chip.core core).pc + 2) / 4 * 4 % 262144, 0)]
          = 0) →
    (10 ≤ core.val → Chip.executable core (s.chip.core core).pc = true ∧
        Chip.executable core ((s.chip.core core).pc + 2) = true ∧ s.chip.eccOf ((s.chip.core core).pc / 4 * 4) = 0 ∧
        s.chip.eccOf (((s.chip.core core).pc + 2) / 4 * 4) = 0) →
    s.chip.fetchCompact core (s.chip.core core).pc = (.syl sy, 4) → opRow i = some (core, sy) →
    exec (.bundleIssue core 0) s = exec i s)

/-- Undefined operations (R56) and exceptions of compact code (R109), for ADD with any operands that it does not accept. -/
def Obligations.undefinedOperation : Prop :=
  (∀ (s : State) (core : CoreId) (x : AArgs),
    s.chip.Calm → s.chip.ready core = true → aOk core .add x = false → isGpr x.rd.toNat = true → core.val < 10 →
    s.chip.bundleRegion core (s.chip.core core).pc = true → ∃ t, exec (.add core x) s = .next t ∧
    (t.chip.core core).arch = { ((s.chip.core core).setGpr (gprIx core (s.chip.core core) x.rd.toNat) 0).arch with
        pc := wrapPc core ((s.chip.core core).pc + 4 : Nat) } ∧
    t.chip.flagsOf core = s.chip.flagsOf core ||| flagUndef ∧
    (s.chip.bit (F.ENG_FLAGS_UNDEF core) = false →
        t.chip.fld (F.ENG_FAULT_PC_ADDR core) = (s.chip.core core).pc / 2 % 2 ^ 17) ∧
    Only [Reg.ENG_FLAGS core, Reg.ENG_FAULT_PC core, Reg.EVT_PEND 1] s t
      { s.chip with cores := t.chip.cores, aux := t.chip.aux }) ∧
  (∀ (s : State) (core : CoreId) (x : AArgs),
    s.chip.Calm → s.chip.ready core = true → aOk core .add x = false → core.val < 10 →
    s.chip.bundleRegion core (s.chip.core core).pc = false → ∃ t, exec (.add core x) s = .next t ∧
    t.chip.engState core = 6 ∧ t.chip.fld (F.ENG_STATUS_REASON core) = 7 ∧
    t.chip.fld (F.ENG_FAULT_PC_ADDR core) = (s.chip.core core).pc / 2 % 2 ^ 17 ∧ t.chip.pends (32 + core) = true ∧
    Only [Reg.ENG_STATUS core, Reg.ENG_FAULT_PC core, Reg.EVT_PEND 1] s t
      { s.chip with cores := t.chip.cores, aux := t.chip.aux }) ∧
  (∀ (s : State) (core : CoreId) (x : AArgs),
    s.chip.Calm → s.chip.ready core = true → aOk core .add x = false → 10 ≤ core.val → s.chip.runlvl core < 9 →
    ∃ t, exec (.add core x) s = .next t ∧ t.chip.fld (F.CORE_ECAUSE_CAUSE.bank core) = 1 ∧
    (t.chip.core core).pc = ((s.chip.reg (Reg.CORE_VBASE + bankOf core)).toNat + 0x40 * 9) % 2 ^ 32 ∧
    t.chip.reg (Reg.CORE_RPC 9 + bankOf core) = BitVec.ofNat 32 ((s.chip.core core).pc / 2 * 2))

/-- Bus accesses of R450 to the memories of the map (R24, R27), with the collisions of R126, and to external memory (R28). -/
def Obligations.busMemory : Prop :=
  (∀ (s : State) (m : Master) (a : BitVec 32) (size : Fin 3) (same : Bool) (k p : Nat),
    s.chip.Calm → s.chip.finds m (a.toNat / 4 * 4) false = true →
    s.chip.place (if m = .debug then mDbg else m.id) (a.toNat / 4 * 4) = .sram p k ∨ s.chip.place
      (if m = .debug then mDbg else m.id) (a.toNat / 4 * 4) = .serai k ∨ s.chip.place
      (if m = .debug then mDbg else m.id) (a.toNat / 4 * 4) = .prog p k ∨ s.chip.place
      (if m = .debug then mDbg else m.id) (a.toNat / 4 * 4) = .delay p k ∨ s.chip.place
      (if m = .debug then mDbg else m.id) (a.toNat / 4 * 4) = .relay p k ∨ s.chip.place
      (if m = .debug then mDbg else m.id) (a.toNat / 4 * 4) = .inputs p k ∨ s.chip.place
      (if m = .debug then mDbg else m.id) (a.toNat / 4 * 4) = .rom k →
    s.chip.eccOf k = 0 ∨ s.chip.place (if m = .debug then mDbg else m.id) (a.toNat / 4 * 4) = .rom k →
    ∃ t, exec (.busMemoryAccess m a size none same) s = .next t ∧
    t.chip.resp = .data
      (BitVec.ofNat 32 (((s.chip.peek k).rotateRight (8 * (a.toNat % 4))).toNat % 2 ^ (8 * 2 ^ size.val))) ∧
    Only [] s t s.chip) ∧
  (∀ (s : State) (m : Master) (a : BitVec 32) (size : Fin 3) (v : Word) (k p : Nat),
    s.chip.Calm → s.chip.finds m (a.toNat / 4 * 4) true = true →
    s.chip.place (if m = .debug then mDbg else m.id) (a.toNat / 4 * 4) = .sram p k ∨ s.chip.place
      (if m = .debug then mDbg else m.id) (a.toNat / 4 * 4) = .serai k ∨ (s.chip.place
          (if m = .debug then mDbg else m.id) (a.toNat / 4 * 4) = .prog p k ∨ s.chip.place
          (if m = .debug then mDbg else m.id) (a.toNat / 4 * 4) = .relay p k) ∧
    s.chip.locked73 p = false ∨ s.chip.place (if m = .debug then mDbg else m.id) (a.toNat / 4 * 4) = .delay p k ∧
    (s.chip.auxOf p).journal = [] → ∃ t, exec (.busMemoryAccess m a size (some v) false) s = .next t ∧
    t.chip.resp = .none ∧ Stores k (patched (s.chip.peek k) v (2 ^ size.val) (a.toNat % 4)) s t ∧
    (∀ j, t.chip.auxOf j = s.chip.auxOf j) ∧
    Only [Reg.SEC_REC_CTRL] s t { s.chip with
        mem := t.chip.mem
        tags := t.chip.tags
        ecc := t.chip.ecc
        aux := t.chip.aux
        strm := { s.chip.strm with last := t.chip.strm.last } }) ∧
  (∀ (s : State) (m : Master) (a : BitVec 32) (v : Word) (k : Nat) (x : Wrote),
    s.chip.Calm → s.chip.finds m (a.toNat / 4 * 4) true = true →
    s.chip.place (if m = .debug then mDbg else m.id) (a.toNat / 4 * 4) = .serai k → a.toNat % 4 = 0 →
    s.chip.strm.last = some x → x.addr = k → ∃ t, exec (.busMemoryAccess m a 2 (some v) true) s = .next t ∧
    t.chip.resp = .none ∧
    t.chip.fld F.SERAI_COLL_CNT_COLL_CNT = min (s.chip.fld F.SERAI_COLL_CNT_COLL_CNT + 1)
      F.SERAI_COLL_CNT_COLL_CNT.max ∧ (Chip.busRank (if m = .debug then mDbg else m.id) ≤ x.rank → Stores k v s t) ∧
    (x.rank < Chip.busRank (if m = .debug then mDbg else m.id) → x.mask = 15 → KeepsMem s t) ∧
    (∀ j, t.chip.auxOf j = s.chip.auxOf j) ∧
    Only [Reg.SEC_REC_CTRL, Reg.SERAI_COLL_CNT] s t { s.chip with
        mem := t.chip.mem
        tags := t.chip.tags
        ecc := t.chip.ecc
        aux := t.chip.aux
        strm := { s.chip.strm with last := t.chip.strm.last } }) ∧
  (∀ (s : State) (m : Master) (a : BitVec 32) (v : Word) (k : Nat) (p : Fin 10) (x : Wrote),
    s.chip.Calm → s.chip.finds m (a.toNat / 4 * 4) true = true →
    s.chip.place (if m = .debug then mDbg else m.id) (a.toNat / 4 * 4) = .relay p k ∧
    s.chip.locked73 p = false ∨ s.chip.place (if m = .debug then mDbg else m.id) (a.toNat / 4 * 4) = .delay p k ∧
    (s.chip.auxOf p).journal = [] → a.toNat % 4 = 0 → ((s.chip.auxOf p).lastStore = some x) → x.addr = k →
    x.rank = 2 → ∃ t, exec (.busMemoryAccess m a 2 (some v) true) s = .next t ∧ t.chip.resp = .none ∧
    t.chip.fld (F.ENG_COLL_CNT_COLL_CNT p) = min (s.chip.fld (F.ENG_COLL_CNT_COLL_CNT p) + 1)
      (F.ENG_COLL_CNT_COLL_CNT p).max ∧ t.chip.fbit ⟨Reg.ENG_MEM_STATUS p, 5, 0⟩ 5 = true ∧
    (m ≠ .debug → Stores k v s t) ∧ (m = .debug → x.mask = 15 → KeepsMem s t) ∧
    (∀ j, t.chip.auxOf j = s.chip.auxOf j) ∧
    Only [Reg.SEC_REC_CTRL, Reg.ENG_COLL_CNT p, Reg.ENG_MEM_STATUS p, Reg.EVT_PEND 1] s t
      { s.chip with mem := t.chip.mem, tags := t.chip.tags, ecc := t.chip.ecc, aux := t.chip.aux }) ∧
  (∀ (s : State) (m : Master) (a : BitVec 32) (size : Fin 3) (v : Word) (same : Bool) (k p : Nat),
    s.chip.Calm → s.chip.finds m (a.toNat / 4 * 4) true = true →
    s.chip.place (if m = .debug then mDbg else m.id) (a.toNat / 4 * 4) = .rom k ∨ s.chip.place
      (if m = .debug then mDbg else m.id) (a.toNat / 4 * 4) = .inputs p k ∨ (s.chip.place
          (if m = .debug then mDbg else m.id) (a.toNat / 4 * 4) = .prog p k ∨ s.chip.place
          (if m = .debug then mDbg else m.id) (a.toNat / 4 * 4) = .relay p k) ∧ s.chip.locked73 p = true →
    ∃ t, exec (.busMemoryAccess m a size (some v) same) s = .next t ∧ t.chip.resp = .busError ∧ Only [] s t s.chip) ∧
  (∀ (s : State) (m : Master) (a : BitVec 32) (size : Fin 3) (data : Option Word) (same : Bool),
    s.chip.Calm → m ≠ .debug → s.chip.finds m (a.toNat / 4 * 4) data.isSome = false →
    ∃ t, exec (.busMemoryAccess m a size data same) s = .next t ∧ t.chip.resp = .busError ∧ Only [] s t s.chip) ∧
  (∀ (s : State) (m : Master) (off : BitVec 31) (size : Fin 3) (v : Word) (link : Fin 3) (e : Nat),
    s.chip.Calm → s.chip.finds m ((2 ^ 31 + off.toNat) / 4 * 4) true = true →
    s.chip.place (if m = .debug then mDbg else m.id) ((2 ^ 31 + off.toNat) / 4 * 4) = .ext e →
    ∃ t, exec (.extWindowAccess m off size (some v) link) s = .next t ∧
    StoresExt (e / 4 * 4) (patched (s.chip.ddrWord (e / 4 * 4)) v (2 ^ size.val) (off.toNat % 4)) s t ∧
    Only [] s t { s.chip with ddr := t.chip.ddr }) ∧
  (∀ (s : State) (m : Master) (off : BitVec 31) (size : Fin 3) (link : Fin 3) (e : Nat),
    s.chip.Calm → s.chip.finds m ((2 ^ 31 + off.toNat) / 4 * 4) false = true →
    s.chip.place (if m = .debug then mDbg else m.id) ((2 ^ 31 + off.toNat) / 4 * 4) = .ext e →
    s.chip.linkEcc = false ∨ link = 0 → ∃ t, exec (.extWindowAccess m off size none link) s = .next t ∧
    t.chip.resp = .data (BitVec.ofNat 32
          (((s.chip.ddrWord (e / 4 * 4)).rotateRight (8 * (off.toNat % 4))).toNat % 2 ^ (8 * 2 ^ size.val))) ∧
    Only [] s t s.chip) ∧
  (∀ (s : State) (m : Master) (off : BitVec 31) (size : Fin 3) (e : Nat),
    s.chip.Calm → s.chip.finds m ((2 ^ 31 + off.toNat) / 4 * 4) false = true →
    s.chip.place (if m = .debug then mDbg else m.id) ((2 ^ 31 + off.toNat) / 4 * 4) = .ext e →
    s.chip.linkEcc = true → ∃ t, exec (.extWindowAccess m off size none 2) s = .next t ∧ t.chip.resp = .busError ∧
    Raised F.DDR_STATUS_ECC_UE 95 s t ∧
    t.chip.fld F.DDR_ECC_CNT_UE_CNT = min (s.chip.fld F.DDR_ECC_CNT_UE_CNT + 1) F.DDR_ECC_CNT_UE_CNT.max ∧
    Only [Reg.DDR_STATUS, Reg.DDR_ECC_CNT, Reg.EVT_PEND 2] s t s.chip)

/-- R157 and R158, by the roles of R156. -/
def Obligations.coefficientWrites : Prop :=
  (∀ (s : State) (m : Master) (p : Fin 10) (w : BitVec 15) (v : Word),
    s.chip.Calm → s.chip.finds m (engBase p + 0x100000 + 4 * w.toNat) true = true →
    s.chip.frontRefused p w.toNat = false → ∃ t, exec (.frontRoleWrite m p w v) s = .next t ∧
    Stores (coefAddr p (if s.chip.fbit F.PAN_ROLE_FRONT p = true then 1 else 0) w.toNat) v s t ∧
    Only [Reg.SEC_REC_CTRL] s t { s.chip with mem := t.chip.mem, tags := t.chip.tags, ecc := t.chip.ecc }) ∧
  (∀ (s : State) (m : Master) (p : Fin 10) (w : BitVec 15) (v : Word),
    s.chip.Calm → s.chip.finds m (engBase p + 0x100000 + 4 * w.toNat) true = true →
    s.chip.frontRefused p w.toNat = true → ∃ t, exec (.frontRoleWrite m p w v) s = .next t ∧
    t.chip.resp = .busError ∧ t.chip.fbit F.PAN_STATUS_FRONT_WR p = true ∧ Only [Reg.PAN_STATUS] s t s.chip) ∧
  (∀ (s : State) (m : Master) (p : Fin 10) (w : BitVec 15) (v : Word),
    s.chip.Calm → s.chip.finds m (engBase p + 0x120000 + 4 * w.toNat) true = true → s.chip.panRefused p = false →
    ∃ t, exec (.pannierRoleWrite m p w v) s = .next t ∧
    Stores (coefAddr p (if s.chip.fbit F.PAN_ROLE_FRONT p = true then 0 else 1) w.toNat) v s t ∧
    t.chip.dirty (s.chip.logi p) w.toNat = true ∧
    Only [Reg.SEC_REC_CTRL] s t { s.chip with
        mem := t.chip.mem
        tags := t.chip.tags
        ecc := t.chip.ecc
        pan := { s.chip.pan with dirty := t.chip.pan.dirty } }) ∧
  (∀ (s : State) (m : Master) (p : Fin 10) (w : BitVec 15) (v : Word),
    s.chip.Calm → s.chip.finds m (engBase p + 0x120000 + 4 * w.toNat) true = true → s.chip.panRefused p = true →
    ∃ t, exec (.pannierRoleWrite m p w v) s = .next t ∧ t.chip.resp = .busError ∧
    t.chip.fbit F.PAN_STATUS_ARMED_WR p = true ∧ Only [Reg.PAN_STATUS] s t s.chip)

/-- The access codes of R11 for registers a write of which does nothing more, and for every register with RC fields. -/
def Obligations.registerAccess : Prop :=
  (∀ (s : State) (m : Master) (a : BitVec 32) (v : Word) (r : RegRow),
    s.chip.Calm →
    a.toNat ∈ [Reg.DDR_CFG, Reg.STRM_SEL, Reg.STRM_AT_LO, Reg.STRM_STATUS, Reg.DDR_STATUS, Reg.STC_ALARM_LO,
          Reg.TICK_CHANGE_AT_LO, Reg.SPARE_CFG, Reg.REPLAY_CFG, Reg.REPLAY_STATUS, Reg.SERAI_SCRUB] →
    s.chip.writes m a.toNat = true → Reg.row a.toNat = some r → ∃ t, exec (.registerWrite m a v) s = .next t ∧
    t.chip.reg a.toNat = (((s.chip.reg a.toNat &&& ~~~BitVec.ofNat 32 r.rw) ||| (v &&& BitVec.ofNat 32 r.rw)) &&&
          ~~~(v &&& BitVec.ofNat 32 r.w1c)) ||| (v &&& BitVec.ofNat 32 r.w1s) ∧ Only [a.toNat] s t s.chip) ∧
  (∀ (s : State) (m : Master) (a : BitVec 32) (r : RegRow),
    s.chip.Calm → m = .secp ∨ m = .cp → a.toNat % 4 = 0 → s.chip.reads m a.toNat = true → Reg.row a.toNat = some r →
    r.rc ≠ 0 → a.toNat ≥ 0x30000000 → s.chip.place m.id a.toNat = .reg a.toNat →
    ∃ t, exec (.clearOnRead m a) s = .next t ∧ t.chip.resp = .data (s.chip.regValue m.id a.toNat) ∧
    t.chip.reg a.toNat = s.chip.reg a.toNat &&& ~~~BitVec.ofNat 32 r.rc ∧ Only [a.toNat] s t s.chip)

/-- R128, R129, R132 and R133. -/
def Obligations.eccAndScrub : Prop :=
  (∀ (s : State) (a : BitVec 32) (k : Nat),
    s.chip.Calm → (((List.range 12).find? fun j => (s.chip.auxOf j).fix.contains a.toNat) = some k) →
    s.chip.eccOf a.toNat = 1 → ∃ t, exec (.eccWriteBack a) s = .next t ∧ t.chip.eccOf a.toNat = 0 ∧
    (∀ b, b ≠ a.toNat → t.chip.eccOf b = s.chip.eccOf b) ∧
    (t.chip.auxOf k).fix = (s.chip.auxOf k).fix.filter (· != a.toNat) ∧
    Only [] s t { s.chip with ecc := t.chip.ecc, aux := t.chip.aux }) ∧
  (∀ (s : State) (p : Fin 10) (bank : Fin 25),
    s.chip.Calm → s.chip.domOn p = true → s.chip.fld (F.ENG_SCRUB_RATE p) ≠ 0 →
    s.chip.eccOf (Chip.scrubAddr p bank (s.chip.scrubbed (p.val * 32 + bank.val) % Chip.scrubRows bank)) = 0 →
    ∃ t, exec (.scrubRead p bank) s = .next t ∧
    t.chip.scrubbed (p.val * 32 + bank.val) = s.chip.scrubbed (p.val * 32 + bank.val) + 1 ∧
    (∀ j, j ≠ p.val * 32 + bank.val → t.chip.scrubbed j = s.chip.scrubbed j) ∧
    Only [Reg.ENG_SCRUB p] s t { s.chip with scrub := t.chip.scrub }) ∧
  (∀ (s : State) (p : Fin 10) (bank : Fin 25),
    s.chip.Calm → s.chip.fld (F.ENG_SCRUB_RATE p) = 0 → ∃ t, exec (.scrubRead p bank) s = .next t ∧
    Only [] s t s.chip) ∧
  (∀ (s : State) (bank : Fin 32) (k : Nat),
    s.chip.Calm → s.chip.seraiState bank = 0 → s.chip.fld F.SERAI_SCRUB_RATE ≠ 0 →
    k = s.chip.scrubbed (512 + bank.val) →
    s.chip.eccOf (seraiAddr (bank.val / 8 * 2 ^ 20 + k % 131072 * 8 + bank.val % 8)) = 0 →
    ∃ t, exec (.seraiScrubRead bank) s = .next t ∧ t.chip.scrubbed (512 + bank.val) = k + 1 ∧
    (∀ j, j ≠ 512 + bank.val → t.chip.scrubbed j = s.chip.scrubbed j) ∧
    Only [Reg.SERAI_SCRUB] s t { s.chip with scrub := t.chip.scrub }) ∧
  (∀ (s : State) (p : Fin 10) (e : WEntry) (rest : List WEntry),
    s.chip.Calm → ((s.chip.auxOf p).wbuf = e :: rest) → s.chip.tick.phase ≠ .p1 →
    s.chip.seraiBankOn (seraiAddr e.word) = true → ∃ t, exec (.seraiWriteBufferDrain p) s = .next t ∧
    Stores (seraiAddr e.word) (merge (s.chip.peek (seraiAddr e.word)) e.data e.mask) s t ∧
    (t.chip.auxOf p).wbuf = rest ∧
    Only [Reg.SEC_REC_CTRL] s t { s.chip with
        mem := t.chip.mem
        tags := t.chip.tags
        ecc := t.chip.ecc
        aux := t.chip.aux
        strm := { s.chip.strm with last := some ⟨seraiAddr e.word, e.mask, 2⟩ } })

/-- R136, R137 and what a burst's completion does (R138, R144, R149). -/
def Obligations.externalMemory : Prop :=
  (∀ (s : State) (m : Master) (v : Word),
    s.chip.Calm → s.chip.writes m Reg.DDR_CTRL = true → s.chip.bit F.STRM_CFG_EN = false →
    ∃ t, exec (.ddrInit m v) s = .next t ∧ t.chip.strm.training = true ∧ t.chip.strm.cfg = s.chip.reg Reg.DDR_CFG ∧
    t.chip.bit F.DDR_STATUS_READY = false ∧ t.chip.bit F.DDR_STATUS_TRAIN_FAIL = false ∧
    t.chip.fld F.DDR_STATUS_FAIL_STEP = 0 ∧
    Only [Reg.DDR_CTRL, Reg.DDR_STATUS] s t
      { s.chip with strm := { s.chip.strm with training := true, cfg := s.chip.reg Reg.DDR_CFG } }) ∧
  (∀ (s : State) (m : Master) (v : Word),
    s.chip.Calm → s.chip.writes m Reg.DDR_CTRL = true → s.chip.bit F.STRM_CFG_EN = true →
    ∃ t, exec (.ddrInit m v) s = .next t ∧ Only [Reg.DDR_CTRL] s t s.chip) ∧
  (∀ (s : State) (fail : Fin 7),
    s.chip.Calm → s.chip.strm.training = true → ∃ t, exec (.ddrTrainingComplete fail) s = .next t ∧
    t.chip.strm.training = false ∧ (fail = 0 → t.chip.bit F.DDR_STATUS_READY = true) ∧
    (fail ≠ 0 → t.chip.bit F.DDR_STATUS_READY = s.chip.bit F.DDR_STATUS_READY ∧
        t.chip.bit F.DDR_STATUS_TRAIN_FAIL = true ∧ t.chip.fld F.DDR_STATUS_FAIL_STEP = fail.val) ∧
    Raised F.DDR_STATUS_TRAINED 96 s t ∧
    Only [Reg.DDR_STATUS, Reg.EVT_PEND 3] s t { s.chip with strm := { s.chip.strm with training := false } }) ∧
  (∀ (s : State),
    s.chip.Calm → (∃ t, exec .ddrRefresh s = .next t ∧ Only [] s t s.chip) ∧
    (∃ t, exec .ddrRetrain s = .next t ∧ Only [] s t s.chip)) ∧
  (∀ (s : State) (code : BitVec 4) (above hot : Bool),
    s.chip.Calm → s.chip.domOn 16 = true → s.chip.bit F.DDR_STATUS_READY = true →
    ∃ t, exec (.mr4Poll code above hot) s = .next t ∧
    t.chip.fld F.DDR_STATUS_MR4_RATE = code.toNat % F.DDR_STATUS_MR4_RATE.max.succ ∧
    t.chip.bit F.DDR_STATUS_DERATE = above ∧ (above = true → Raised F.DDR_STATUS_DERATE 97 s t) ∧
    (hot = true → Raised F.DDR_STATUS_HOT 97 s t) ∧ Only [Reg.DDR_STATUS, Reg.EVT_PEND 3] s t s.chip) ∧
  (∀ (s : State) (link : Fin 3) (b : Burst) (q : Int),
    s.chip.Calm → s.chip.domOn 16 = true → s.chip.bit F.DDR_STATUS_READY = true → s.chip.nextBurst = some b →
    b.drain = some q → ∃ t, exec (.burstComplete link) s = .next t ∧
    t.chip.strm.bursts = s.chip.strm.bursts.erase b ∧
    Only [] s t { s.chip with strm := { s.chip.strm with bursts := s.chip.strm.bursts.erase b }, ddr := t.chip.ddr }) ∧
  (∀ (s : State) (b : Burst),
    s.chip.Calm → s.chip.domOn 16 = true → s.chip.bit F.DDR_STATUS_READY = true → s.chip.nextBurst = some b →
    b.drain = none → s.chip.linkEcc = true → ∃ t, exec (.burstComplete 2) s = .next t ∧
    t.chip.strm.bursts = s.chip.strm.bursts.erase b ∧ Raised F.DDR_STATUS_ECC_UE 95 s t ∧
    Only [Reg.DDR_STATUS, Reg.DDR_ECC_CNT, Reg.EVT_PEND 2] s t
      { s.chip with strm := { s.chip.strm with bursts := s.chip.strm.bursts.erase b } }) ∧
  (∀ (s : State) (b : Burst),
    s.chip.Calm → s.chip.domOn 16 = true → s.chip.bit F.DDR_STATUS_READY = true → s.chip.nextBurst = some b →
    b.drain = none → ∃ t, exec (.burstComplete 0) s = .next t ∧ t.chip.strm.bursts = s.chip.strm.bursts.erase b ∧
    (∀ k, k ≠ b.stream → t.chip.stream k = s.chip.stream k) ∧ t.chip.ddr = s.chip.ddr ∧
    Only [Reg.SEC_REC_CTRL] s t
      { s.chip with strm := t.chip.strm, mem := t.chip.mem, tags := t.chip.tags, ecc := t.chip.ecc })

/-- The streamer's command register (R141): the queue, and each command on a stopped streamer. -/
def Obligations.streamerCommands : Prop :=
  (∀ (s : State) (m : Master) (v : Word),
    s.chip.Calm → s.chip.writes m Reg.STRM_CMD = true → s.chip.bit F.STRM_CFG_EN = true →
    s.chip.strm.queue.length < 64 →
    (∃ t, exec (.strmLoad m v) s = .next t ∧
        t.chip.strm.queue = s.chip.strm.queue ++ [(⟨1, s.chip.fld F.STRM_SEL_STREAM, (List.range 8).map fun k =>
                      s.chip.reg (Reg.STRM_D k), s.chip.reg64 Reg.STRM_AT_LO Reg.STRM_AT_HI⟩ : StrmCmd)] ∧
        Only [] s t { s.chip with strm := { s.chip.strm with queue := t.chip.strm.queue } }) ∧
    (∃ t, exec (.strmRead m v) s = .next t ∧
        t.chip.strm.queue = s.chip.strm.queue ++ [(⟨2, s.chip.fld F.STRM_SEL_STREAM, (List.range 8).map fun k =>
                      s.chip.reg (Reg.STRM_D k), s.chip.reg64 Reg.STRM_AT_LO Reg.STRM_AT_HI⟩ : StrmCmd)] ∧
        Only [] s t { s.chip with strm := { s.chip.strm with queue := t.chip.strm.queue } }) ∧
    (∃ t, exec (.strmStart m v) s = .next t ∧
        t.chip.strm.queue = s.chip.strm.queue ++ [(⟨3, s.chip.fld F.STRM_SEL_STREAM, (List.range 8).map fun k =>
                      s.chip.reg (Reg.STRM_D k), s.chip.reg64 Reg.STRM_AT_LO Reg.STRM_AT_HI⟩ : StrmCmd)] ∧
        Only [] s t { s.chip with strm := { s.chip.strm with queue := t.chip.strm.queue } }) ∧
    (∃ t, exec (.strmStop m v) s = .next t ∧
        t.chip.strm.queue = s.chip.strm.queue ++ [(⟨4, s.chip.fld F.STRM_SEL_STREAM, (List.range 8).map fun k =>
                      s.chip.reg (Reg.STRM_D k), s.chip.reg64 Reg.STRM_AT_LO Reg.STRM_AT_HI⟩ : StrmCmd)] ∧
        Only [] s t { s.chip with strm := { s.chip.strm with queue := t.chip.strm.queue } }) ∧
    (∃ t, exec (.clearMiss m v) s = .next t ∧
        t.chip.strm.queue = s.chip.strm.queue ++ [(⟨5, s.chip.fld F.STRM_SEL_STREAM, (List.range 8).map fun k =>
                      s.chip.reg (Reg.STRM_D k), s.chip.reg64 Reg.STRM_AT_LO Reg.STRM_AT_HI⟩ : StrmCmd)] ∧
        Only [] s t { s.chip with strm := { s.chip.strm with queue := t.chip.strm.queue } })) ∧
  (∀ (s : State) (m : Master) (v : Word),
    s.chip.Calm → s.chip.writes m Reg.STRM_CMD = true → s.chip.bit F.STRM_CFG_EN = true →
    64 ≤ s.chip.strm.queue.length →
    (∃ t, exec (.strmLoad m v) s = .next t ∧ Raised F.STRM_STATUS_CMD_OVF 99 s t ∧
        Only [Reg.STRM_STATUS, Reg.EVT_PEND 3] s t s.chip) ∧
    (∃ t, exec (.strmRead m v) s = .next t ∧ Raised F.STRM_STATUS_CMD_OVF 99 s t ∧
        Only [Reg.STRM_STATUS, Reg.EVT_PEND 3] s t s.chip) ∧
    (∃ t, exec (.strmStart m v) s = .next t ∧ Raised F.STRM_STATUS_CMD_OVF 99 s t ∧
        Only [Reg.STRM_STATUS, Reg.EVT_PEND 3] s t s.chip) ∧
    (∃ t, exec (.strmStop m v) s = .next t ∧ Raised F.STRM_STATUS_CMD_OVF 99 s t ∧
        Only [Reg.STRM_STATUS, Reg.EVT_PEND 3] s t s.chip) ∧
    (∃ t, exec (.clearMiss m v) s = .next t ∧ Raised F.STRM_STATUS_CMD_OVF 99 s t ∧
        Only [Reg.STRM_STATUS, Reg.EVT_PEND 3] s t s.chip)) ∧
  (∀ (s : State) (m : Master) (v : Word) (d : List (Nat × Word)),
    s.chip.Calm → s.chip.writes m Reg.STRM_CMD = true → s.chip.bit F.STRM_CFG_EN = false →
    (d = (List.range 8).map fun k => (k, s.chip.reg (Reg.STRM_D k))) →
    s.chip.loadReject (s.chip.fld F.STRM_SEL_STREAM) d = 0 → dKind d = 3 ∨ dKind d = 0 →
    ∃ t, exec (.strmLoad m v) s = .next t ∧ (t.chip.stream (s.chip.fld F.STRM_SEL_STREAM)).d0 = d ∧
    (t.chip.stream (s.chip.fld F.STRM_SEL_STREAM)).d1 = d ∧ (t.chip.stream (s.chip.fld F.STRM_SEL_STREAM)).d2 = d ∧
    (∀ k, k ≠ (s.chip.fld F.STRM_SEL_STREAM) → t.chip.stream k = s.chip.stream k) ∧
    Only [] s t { s.chip with strm := { s.chip.strm with streams := t.chip.strm.streams } }) ∧
  (∀ (s : State) (m : Master) (v : Word) (d : List (Nat × Word)) (why : Nat),
    s.chip.Calm → s.chip.writes m Reg.STRM_CMD = true → s.chip.bit F.STRM_CFG_EN = false →
    (d = (List.range 8).map fun k => (k, s.chip.reg (Reg.STRM_D k))) →
    s.chip.loadReject (s.chip.fld F.STRM_SEL_STREAM) d = why → why ≠ 0 → ∃ t, exec (.strmLoad m v) s = .next t ∧
    t.chip.fld F.STRM_REJ_REASON = why ∧ t.chip.fld F.STRM_REJ_STREAM = (s.chip.fld F.STRM_SEL_STREAM) ∧
    Raised F.STRM_STATUS_REJECT 99 s t ∧ Only [Reg.STRM_REJ, Reg.STRM_STATUS, Reg.EVT_PEND 3] s t s.chip) ∧
  (∀ (s : State) (m : Master) (v : Word),
    s.chip.Calm → s.chip.writes m Reg.STRM_CMD = true → s.chip.bit F.STRM_CFG_EN = false →
    (∃ t, exec (.strmRead m v) s = .next t ∧
        (∀ k, k < 8 → t.chip.reg (Reg.STRM_D k) = if k = 5 ∧
            dKind (s.chip.stream (s.chip.fld F.STRM_SEL_STREAM)).d2 = 3 then BitVec.ofInt 32 (
                  (s.chip.stream (s.chip.fld F.STRM_SEL_STREAM)).head %
                  (max (dLen (s.chip.stream (s.chip.fld F.STRM_SEL_STREAM)).d2) 1 : Nat)) else BitVec.ofNat 32
              (dword (s.chip.stream (s.chip.fld F.STRM_SEL_STREAM)).d2 k)) ∧
        Only ((List.range 8).map Reg.STRM_D) s t s.chip) ∧
    (∃ t, exec (.clearMiss m v) s = .next t ∧
        t.chip.stream (s.chip.fld F.STRM_SEL_STREAM) =
          { (s.chip.stream (s.chip.fld F.STRM_SEL_STREAM)) with missCnt := 0 } ∧
        (∀ k, k ≠ (s.chip.fld F.STRM_SEL_STREAM) → t.chip.stream k = s.chip.stream k) ∧
        Only [] s t { s.chip with strm := { s.chip.strm with streams := t.chip.strm.streams } })) ∧
  (∀ (s : State) (m : Master) (v : Word),
    s.chip.Calm → s.chip.writes m Reg.STRM_CMD = true → s.chip.bit F.STRM_CFG_EN = false →
    dKind (s.chip.stream (s.chip.fld F.STRM_SEL_STREAM)).d2 = 2 → ∃ t, exec (.strmStart m v) s = .next t ∧
    t.chip.stream (s.chip.fld F.STRM_SEL_STREAM) = { (s.chip.stream (s.chip.fld F.STRM_SEL_STREAM)) with
        startAt := some (max (s.chip.reg64 Reg.STRM_AT_LO Reg.STRM_AT_HI) (s.chip.now + 2)) } ∧
    (∀ k, k ≠ (s.chip.fld F.STRM_SEL_STREAM) → t.chip.stream k = s.chip.stream k) ∧
    ((s.chip.reg64 Reg.STRM_AT_LO Reg.STRM_AT_HI) < s.chip.now + 2 → Raised F.STRM_STATUS_START_LATE 99 s t) ∧
    Only [Reg.STRM_STATUS, Reg.EVT_PEND 3] s t
      { s.chip with strm := { s.chip.strm with streams := t.chip.strm.streams } }) ∧
  (∀ (s : State) (m : Master) (v : Word),
    s.chip.Calm → s.chip.writes m Reg.STRM_CMD = true → s.chip.bit F.STRM_CFG_EN = false →
    dKind (s.chip.stream (s.chip.fld F.STRM_SEL_STREAM)).d2 = 2 → ∃ t, exec (.strmStop m v) s = .next t ∧
    t.chip.stream (s.chip.fld F.STRM_SEL_STREAM) = (if ∃ u ∈ (s.chip.stream (s.chip.fld F.STRM_SEL_STREAM)).startAt,
          max (s.chip.reg64 Reg.STRM_AT_LO Reg.STRM_AT_HI) (s.chip.now + 2) ≤ u then
          { (s.chip.stream (s.chip.fld F.STRM_SEL_STREAM)) with startAt := none } else { (s.chip.stream (s.chip.fld F.STRM_SEL_STREAM)) with
            stopAt := some (max (s.chip.reg64 Reg.STRM_AT_LO Reg.STRM_AT_HI) (s.chip.now + 2)) }) ∧
    (∀ k, k ≠ (s.chip.fld F.STRM_SEL_STREAM) → t.chip.stream k = s.chip.stream k) ∧
    ((s.chip.reg64 Reg.STRM_AT_LO Reg.STRM_AT_HI) < s.chip.now + 2 → Raised F.STRM_STATUS_START_LATE 99 s t) ∧
    Only [Reg.STRM_STATUS, Reg.EVT_PEND 3] s t
      { s.chip with strm := { s.chip.strm with streams := t.chip.strm.streams } }) ∧
  (∀ (s : State) (m : Master) (v : Word),
    s.chip.Calm → s.chip.writes m Reg.STRM_CMD = true → s.chip.bit F.STRM_CFG_EN = false →
    dKind (s.chip.stream (s.chip.fld F.STRM_SEL_STREAM)).d2 ≠ 2 →
    (∃ t, exec (.strmStart m v) s = .next t ∧ t.chip.fld F.STRM_REJ_REASON = 8 ∧
        Raised F.STRM_STATUS_REJECT 99 s t ∧ Only [Reg.STRM_REJ, Reg.STRM_STATUS, Reg.EVT_PEND 3] s t s.chip) ∧
    (∃ t, exec (.strmStop m v) s = .next t ∧ t.chip.fld F.STRM_REJ_REASON = 8 ∧ Raised F.STRM_STATUS_REJECT 99 s t ∧
        Only [Reg.STRM_REJ, Reg.STRM_STATUS, Reg.EVT_PEND 3] s t s.chip))

/-- Group swaps (R159 to R163) and copy-forward (R164). -/
def Obligations.swapsAndCopyForward : Prop :=
  (∀ (s : State) (m : Master) (k : Fin 4) (v : Word),
    s.chip.Calm → s.chip.writes m (Reg.SWAP_CTRL k) = true → bitAt v.toNat 30 = false →
    s.chip.armReject k (bits v.toNat 9 0) = 0 → ∃ t, exec (.swapSlotArm m k v) s = .next t ∧
    t.chip.bit (F.SWAP_CTRL_ARMED k) = true ∧ t.chip.fld (F.SWAP_CTRL_MASK k) = bits v.toNat 9 0 ∧
    t.chip.bit (F.SWAP_CTRL_IMM k) = bitAt v.toNat 29 ∧ t.chip.bit (F.SWAP_CTRL_CF k) = bitAt v.toNat 28 ∧
    t.chip.bit (F.SWAP_CTRL_SWAPPED k) = false ∧ t.chip.fld (F.SWAP_CTRL_REASON k) = 0 ∧
    (t.chip.slot k).target = s.chip.reg64 (Reg.SWAP_AT_LO k) (Reg.SWAP_AT_HI k) ∧
    (t.chip.slot k).late = decide (s.chip.reg64 (Reg.SWAP_AT_LO k) (Reg.SWAP_AT_HI k) ≤ s.chip.now) ∧
    (∀ j, j ≠ k.val → t.chip.slot j = s.chip.slot j) ∧
    Only [Reg.SWAP_CTRL k] s t { s.chip with pan := { s.chip.pan with slots := t.chip.pan.slots } }) ∧
  (∀ (s : State) (m : Master) (k : Fin 4) (v : Word) (why : Nat),
    s.chip.Calm → s.chip.writes m (Reg.SWAP_CTRL k) = true → bitAt v.toNat 30 = false →
    s.chip.armReject k (bits v.toNat 9 0) = why → why ≠ 0 → ∃ t, exec (.swapSlotArm m k v) s = .next t ∧
    t.chip.fld (F.SWAP_CTRL_REASON k) = why ∧ t.chip.bit (F.SWAP_CTRL_ARMED k) = s.chip.bit (F.SWAP_CTRL_ARMED k) ∧
    Only [Reg.SWAP_CTRL k] s t s.chip) ∧
  (∀ (s : State) (m : Master) (k : Fin 4) (v : Word),
    s.chip.Calm → s.chip.writes m (Reg.SWAP_CTRL k) = true → bitAt v.toNat 31 = false →
    s.chip.tick.stage = 0 ∨ s.chip.tick.due.contains k.val = false → ∃ t, exec (.swapSlotDisarm m k v) s = .next t ∧
    t.chip.bit (F.SWAP_CTRL_ARMED k) = false ∧
    (∀ ch, (t.chip.glide ch).own = (s.chip.glide ch).own ∧ (t.chip.glide ch).v = (s.chip.glide ch).v) ∧
    Only [Reg.SWAP_CTRL k] s t { s.chip with pan := { s.chip.pan with glides := t.chip.pan.glides } }) ∧
  (∀ (s : State) (k : Fin 4),
    s.chip.Calm → s.chip.panOn = true → s.chip.bit (F.SWAP_CTRL_ARMED k) = true →
    s.chip.bit (F.SWAP_CTRL_IMM k) = true → s.chip.bit F.TICK_STATUS_RUNNING = false →
    s.chip.bit (F.SWAP_CTRL_CF k) = false → (((List.range 10).map s.chip.phys).Nodup) →
    ∃ t, exec (.swapExecute k) s = .next t ∧
    (∀ p, p < 10 →
        t.chip.fbit F.PAN_ROLE_FRONT p = (s.chip.fbit F.PAN_ROLE_FRONT p != (List.range 10).any
              (fun l => bitAt (s.chip.fld (F.SWAP_CTRL_MASK k)) l && s.chip.phys l == p))) ∧
    t.chip.bit (F.SWAP_CTRL_ARMED k) = false ∧ t.chip.bit (F.SWAP_CTRL_SWAPPED k) = true ∧
    Raised (F.SWAP_CTRL_DONE k) 55 s t ∧
    Only [Reg.PAN_ROLE, Reg.SWAP_CTRL k, Reg.EVT_PEND 1] s t { s.chip with pan := t.chip.pan }) ∧
  (∀ (s : State) (k : Fin 4),
    s.chip.Calm → s.chip.bit (F.SWAP_CTRL_ARMED k) = false → s.chip.bit F.TICK_STATUS_RUNNING = false →
    ∃ t, exec (.swapExecute k) s = .next t ∧ Only [] s t s.chip) ∧
  (∀ (s : State) (l : Fin 10) (p w : Nat),
    s.chip.Calm → s.chip.panOn = true → s.chip.fbit F.PAN_STATUS_CF_BUSY l = true → s.chip.phys l = p → p < 10 →
    s.chip.domOn p = true → w < 32768 → ∃ t, exec (.copyForwardDone l) s = .next t ∧
    t.chip.fbit F.PAN_STATUS_CF_BUSY l = false ∧
    (s.chip.dirty l w = false → s.chip.eccOf (s.chip.frontAddr p w) = 0 →
        t.chip.peek (s.chip.panAddr p w) = s.chip.peek (s.chip.frontAddr p w)) ∧
    (s.chip.dirty l w = true → t.chip.peek (s.chip.panAddr p w) = s.chip.peek (s.chip.panAddr p w)) ∧
    t.chip.peek (s.chip.frontAddr p w) = s.chip.peek (s.chip.frontAddr p w) ∧
    (∀ k, k < 4 → (t.chip.slot k).cfWait = dropBit (s.chip.slot k).cfWait l) ∧ t.chip.cores = s.chip.cores ∧
    t.otp = s.otp ∧ t.pending = s.pending) ∧
  (∀ (s : State) (l : Fin 10),
    s.chip.Calm → s.chip.fbit F.PAN_STATUS_CF_BUSY l = false → ∃ t, exec (.copyForwardDone l) s = .next t ∧
    Only [] s t s.chip)

/-- GO (R167, R169) and adoption (R168) of a glide channel. -/
def Obligations.glideChannels : Prop :=
  (∀ (s : State) (m : Master) (ch : Fin 1024) (v : Word),
    s.chip.Calm → s.chip.writes m (Reg.GLD_CTRL ch) = true → ∃ t, exec (.glideGo m ch v) s = .next t ∧
    (
        let n : GldSet := ⟨t.chip.reg (Reg.GLD_CTRL ch), s.chip.reg (Reg.GLD_TARGET ch), s.chip.reg
              (Reg.GLD_RATE ch), false, s.chip.tick.stage != 0⟩
        let why := s.chip.goReject ch n
        (why = 0 → t.chip.glide ch = { s.chip.glide ch with next := some n } ∧
            t.chip.reg Reg.GLD_STATUS = s.chip.reg Reg.GLD_STATUS) ∧
        (why ≠ 0 → t.chip.glide ch = s.chip.glide ch ∧ t.chip.bit F.GLD_STATUS_REJ = true ∧
            t.chip.fld F.GLD_STATUS_REJ_CH = ch.val ∧ t.chip.fld F.GLD_STATUS_REJ_REASON = why)) ∧
    (∀ j, j ≠ ch.val → t.chip.glide j = s.chip.glide j) ∧
    Only [Reg.GLD_CTRL ch, Reg.GLD_STATUS] s t
      { s.chip with pan := { s.chip.pan with glides := t.chip.pan.glides } }) ∧
  (∀ (s : State) (ch : Fin 1024) (n : GldSet),
    s.chip.Calm → s.chip.tick.phase = .p0 → s.chip.tick.stage = 3 → s.chip.panOn = true →
    ((s.chip.glide ch).next = some n) → Chip.adoptsNow n s.chip.tick.executed = true →
    ∃ t, exec (.glideAdopt ch) s = .next t ∧ (t.chip.glide ch).next = none ∧
    (t.chip.glide ch).own = (if n.en = true then some n else none) ∧ t.chip.tick.stage = 0 ∧ t.otp = s.otp ∧
    t.pending = s.pending)

/-- The spare's migration (R189 to R191). -/
def Obligations.spareMigration : Prop :=
  (∀ (s : State) (m : Master) (v : Word),
    s.chip.Calm → s.chip.writes m Reg.MIG_CTRL = true → bitAt v.toNat 30 = false →
    s.chip.bit F.SPARE_CFG_EN = true → s.chip.fld F.SPARE_CFG_SPARE < 10 →
    s.chip.engState (s.chip.fld F.SPARE_CFG_SPARE) = 0 ∨ s.chip.engState (s.chip.fld F.SPARE_CFG_SPARE) = 6 →
    s.chip.domOn (s.chip.fld F.SPARE_CFG_SPARE) = true → bits v.toNat 19 16 < 10 →
    s.chip.inTick (s.chip.phys (bits v.toNat 19 16)) = true →
    s.chip.phys (bits v.toNat 19 16) ≠ s.chip.fld F.SPARE_CFG_SPARE → ∃ t, exec (.migrationStart m v) s = .next t ∧
    t.chip.fld F.MIG_STATUS_PHASE = 1 ∧ t.chip.engState (s.chip.fld F.SPARE_CFG_SPARE) = 6 ∧
    t.chip.spare.mig = some (bits v.toNat 19 16, s.chip.fld F.SPARE_CFG_SPARE) ∧
    t.chip.fld F.MIG_CTRL_CLEAN = bits v.toNat 15 0 ∧
    Only [Reg.MIG_CTRL, Reg.MIG_STATUS, Reg.ENG_STATUS (s.chip.fld F.SPARE_CFG_SPARE)] s t
      { s.chip with spare := { s.chip.spare with mig := t.chip.spare.mig, copied := false, miss := false } }) ∧
  (∀ (s : State) (m : Master) (v : Word),
    s.chip.Calm → s.chip.writes m Reg.MIG_CTRL = true → bitAt v.toNat 30 = false →
    s.chip.bit F.SPARE_CFG_EN = false ∨ 9 < s.chip.fld F.SPARE_CFG_SPARE ∨ s.chip.domOn
      (s.chip.fld F.SPARE_CFG_SPARE) = false → ∃ t, exec (.migrationStart m v) s = .next t ∧
    t.chip.bit F.MIG_STATUS_ABORTED = true ∧ t.chip.fld F.MIG_STATUS_REASON = 1 ∧ t.chip.pends 52 = true ∧
    Only [Reg.MIG_CTRL, Reg.MIG_STATUS, Reg.EVT_PEND 1] s t s.chip) ∧
  (∀ (s : State) (m : Master) (v : Word) (src sp : Nat),
    s.chip.spare.mig = some (src, sp) → s.chip.mbWake = 0 → s.chip.fuseDue = 0 →
    s.chip.writes m Reg.MIG_CTRL = true → bitAt v.toNat 31 = false → s.chip.domOn sp = true → sp < 10 →
    ∃ t, exec (.migrationAbort m v) s = .next t ∧ t.chip.spare.mig = none ∧ t.chip.fld F.MIG_STATUS_PHASE = 0 ∧
    t.chip.bit F.MIG_STATUS_ABORTED = true ∧ t.chip.fld F.MIG_STATUS_REASON = 5 ∧ t.chip.pends 52 = true ∧
    t.chip.engState sp = 6 ∧ t.chip.core sp = {} ∧ (∀ j, j < 12 → j ≠ sp → t.chip.core j = s.chip.core j) ∧
    Only [Reg.MIG_CTRL, Reg.MIG_STATUS, Reg.ENG_STATUS sp, Reg.EVT_PEND 1] s t { s.chip with
        spare := { s.chip.spare with mig := none, copied := false, miss := false }
        cores := t.chip.cores
        aux := t.chip.aux
        mem := t.chip.mem
        lost := t.chip.lost
        ecc := t.chip.ecc
        tags := t.chip.tags }) ∧
  (∀ (s : State) (m : Master) (v : Word),
    s.chip.Calm → s.chip.writes m Reg.MIG_CTRL = true → bitAt v.toNat 31 = false →
    ∃ t, exec (.migrationAbort m v) s = .next t ∧ Only [Reg.MIG_CTRL] s t s.chip) ∧
  (∀ (s : State) (src sp off n w : Nat),
    s.chip.spare.mig = some (src, sp) → s.chip.mbWake = 0 → s.chip.fuseDue = 0 → s.chip.fld F.MIG_STATUS_PHASE = 1 →
    s.chip.spare.copied = false → ((s.chip.ecc.all fun x => x.2 != 2) = true) →
    (((List.range 4).all fun k => Tab.get (fun _ => 0) s.chip.lost (8 * s.chip.phys src + k) == 0) = true) →
    s.chip.phys src ≠ sp → s.chip.phys src < 10 → sp < 10 → s.chip.inTick (s.chip.phys src) = true →
    s.chip.domOn sp = true → ((off, n) ∈ engMemories.take 4) → w < n → ∃ t, exec .migrationShadow s = .next t ∧
    t.chip.spare.copied = true ∧ t.chip.spare.mig = some (src, sp) ∧
    t.chip.peek (engBase sp + off + 4 * w) = s.chip.peek (engBase (s.chip.phys src) + off + 4 * w) ∧
    t.chip.peek (engBase (s.chip.phys src) + off + 4 * w) = s.chip.peek (engBase (s.chip.phys src) + off + 4 * w) ∧
    t.chip.reg (Reg.ENG_ENC sp) = s.chip.reg (Reg.ENG_ENC (s.chip.phys src)) ∧
    t.chip.reg (Reg.ENG_PLEN sp) = s.chip.reg (Reg.ENG_PLEN (s.chip.phys src)) ∧ t.chip.cores = s.chip.cores ∧
    t.otp = s.otp ∧ t.pending = s.pending) ∧
  (∀ (s : State), s.chip.Calm → ∃ t, exec .migrationShadow s = .next t ∧ Only [] s t s.chip)

/-- R192, R193 and a detection outside tick mode (R187). -/
def Obligations.testsAndDetection : Prop :=
  (∀ (s : State) (m : Master) (v : Word) (p : Nat),
    s.chip.Calm → s.chip.writes m Reg.BIST_CTRL = true → p = bits v.toNat 3 0 → p < 10 →
    s.chip.engState p = 0 ∨ s.chip.engState p = 6 → s.chip.domOn p = true → s.chip.spare.bist = none →
    ∃ t, exec (.bistStart m v) s = .next t ∧ t.chip.bit F.BIST_STATUS_BUSY = true ∧ t.chip.spare.bist = some p ∧
    Only [Reg.BIST_CTRL, Reg.BIST_STATUS] s t { s.chip with spare := { s.chip.spare with bist := some p } }) ∧
  (∀ (s : State) (m : Master) (v : Word) (p : Nat),
    s.chip.Calm → s.chip.writes m Reg.BIST_CTRL = true → p = bits v.toNat 3 0 → 9 < p ∨ s.chip.engState p ≠ 0 ∧
    s.chip.engState p ≠ 6 ∨ s.chip.domOn p = false → ∃ t, exec (.bistStart m v) s = .next t ∧
    Only [Reg.BIST_CTRL] s t s.chip) ∧
  (∀ (s : State) (at_ : BitVec 3) (addr : BitVec 18) (p off n w : Nat),
    s.chip.Calm → s.chip.spare.bist = some p → p < 10 → ((off, n) ∈ engMemories) → w < n →
    ∃ t, exec (.bistDone at_ addr) s = .next t ∧ t.chip.spare.bist = none ∧ t.chip.engState p = 0 ∧
    t.chip.core p = {} ∧ t.chip.peek (engBase p + off + 4 * w) = 0 ∧ t.chip.eccOf (engBase p + off + 4 * w) = 0 ∧
    t.chip.bit F.BIST_STATUS_BUSY = false ∧ t.chip.bit F.BIST_STATUS_DONE = true ∧
    t.chip.fld F.BIST_STATUS_WHERE = s.chip.bistWhere at_.toNat ∧
    t.chip.bit F.BIST_STATUS_FAIL = (s.chip.bistWhere at_.toNat != 0) ∧ t.chip.pends 52 = true ∧
    (∀ j, j < 12 → j ≠ p → t.chip.core j = s.chip.core j) ∧ t.otp = s.otp ∧ t.pending = s.pending) ∧
  (∀ (s : State) (at_ : BitVec 3) (addr : BitVec 18),
    s.chip.Calm → s.chip.spare.bist = none → ∃ t, exec (.bistDone at_ addr) s = .next t ∧ Only [] s t s.chip) ∧
  (∀ (s : State) (m : Master) (v : Word),
    s.chip.Calm → s.chip.writes m Reg.LOOP_CTRL = true → bitAt v.toNat 30 = false → s.chip.spare.loop = none →
    ∃ t, exec (.loopStart m v) s = .next t ∧ t.chip.bit F.LOOP_STATUS_BUSY = true ∧
    t.chip.bit F.LOOP_STATUS_SYNC = false ∧
    t.chip.spare.loop = some
      (bits v.toNat 18 16, (if bits v.toNat 15 0 = 0 then none else some (bits v.toNat 15 0)), false) ∧
    Only [Reg.LOOP_CTRL, Reg.LOOP_STATUS] s t
      { s.chip with spare := { s.chip.spare with loop := t.chip.spare.loop, prbs := 0, prbsReg := 0 } }) ∧
  (∀ (s : State) (m : Master) (v : Word),
    s.chip.Calm → s.chip.writes m Reg.LOOP_CTRL = true → bitAt v.toNat 31 = false →
    ∃ t, exec (.loopStop m v) s = .next t ∧
    t.chip.spare.loop = s.chip.spare.loop.map (fun x => (x.1, x.2.1, true)) ∧
    Only [Reg.LOOP_CTRL] s t { s.chip with spare := { s.chip.spare with loop := t.chip.spare.loop } }) ∧
  (∀ (s : State) (p : Nat) (b : Bool),
    s.chip.Calm → s.chip.spare.loop = some (p, some 0, b) → ∃ t, exec .loopDone s = .next t ∧
    t.chip.bit F.LOOP_STATUS_BUSY = false ∧ t.chip.bit F.LOOP_STATUS_DONE = true ∧ t.chip.spare.loop = none ∧
    Only [Reg.LOOP_STATUS] s t { s.chip with spare := { s.chip.spare with loop := none } }) ∧
  (∀ (s : State), s.chip.Calm → s.chip.spare.loop = none → ∃ t, exec .loopDone s = .next t ∧ Only [] s t s.chip) ∧
  (∀ (s : State) (p : Fin 10) (code : BitVec 4) (late : Option (Fin 6)),
    s.chip.Calm → s.chip.engState p = 1 → 1 ≤ code.toNat ∧ code.toNat ≤ 5 → s.chip.logi p < 10 →
    ∃ t, exec (.detection p code late) s = .next t ∧ t.chip.fld (F.REPLAY_REC_DET (s.chip.logi p)) = code.toNat ∧
    t.chip.fld (F.REPLAY_REC_OUTCOME (s.chip.logi p)) = 0 ∧
    t.chip.fld (F.REPLAY_REC_CONE (s.chip.logi p)) = 2 ^ s.chip.logi p ∧
    t.chip.fld (F.REPLAY_REC_CYCLE (s.chip.logi p)) = 0 ∧ t.chip.pends (42 + s.chip.logi p) = true ∧
    Only [Reg.REPLAY_REC (s.chip.logi p), Reg.EVT_PEND 1] s t s.chip) ∧
  (∀ (s : State) (p : Fin 10) (code : BitVec 4) (late : Option (Fin 6)),
    s.chip.Calm → s.chip.engState p ≠ 1 → s.chip.tick.phase ≠ .p1 ∨ s.chip.runs p = false ∨ code = 0 →
    ∃ t, exec (.detection p code late) s = .next t ∧ Only [] s t s.chip) ∧
  (∀ (s : State) (p : Fin 10) (code : BitVec 4) (late : Option (Fin 6)),
    s.chip.Calm → s.chip.tick.phase = .p1 → s.chip.runs p = true → 6 ≤ code.toNat →
    ∃ t, exec (.detection p code late) s = .next t ∧ (t.chip.auxOf p).corrupt = true ∧
    Only [] s t { s.chip with aux := t.chip.aux })

/-- Pairing and the loss of the link (spec/09). -/
def Obligations.tandemPairing : Prop :=
  (∀ (s : State) (m : Master) (v : Word),
    s.chip.Calm → s.chip.writes m Reg.TLK_CFG = true → s.chip.tandem = false →
    ∃ t, exec (.tandemEnable m v) s = .next t ∧ t.chip.tandem = true ∧
    t.chip.bit F.TLK_CFG_ROLE = bitAt v.toNat 30 ∧ t.chip.bit F.TLK_CFG_MODE_REQ = bitAt v.toNat 28 ∧
    t.chip.leader = (!bitAt v.toNat 30) ∧ t.chip.tlkState = (if s.chip.latched = true then 9 else 1) ∧
    Only [Reg.TLK_CFG, Reg.TLK_STATUS] s t { s.chip with tlk := { s.chip.tlk with tokenInit := bitAt v.toNat 29 } }) ∧
  (∀ (s : State),
    s.chip.Calm → s.chip.tandem = true → s.chip.linkUp = false → ∃ t, exec .linkTrained s = .next t ∧
    t.chip.linkUp = true ∧ RaisedBit F.TLK_EVT_EVT 0 100 s t ∧
    t.chip.tlkState = (if s.chip.tlkState = 1 ∨ s.chip.tlkState = 8 then 2 else s.chip.tlkState) ∧
    Only [Reg.TLK_STATUS, Reg.TLK_EVT, Reg.EVT_PEND 3] s t s.chip) ∧
  (∀ (s : State),
    s.chip.Calm → s.chip.tandem = false ∨ s.chip.linkUp = true → ∃ t, exec .linkTrained s = .next t ∧
    Only [] s t s.chip) ∧
  (∀ (s : State) (f : NegFrame),
    s.chip.Calm → s.chip.tandem = true → s.chip.linkUp = true → s.chip.tlkState = 2 →
    ∃ t, exec (.negotiationFrame f false) s = .next t ∧ t.chip.fld F.TLK_PART_INFO_REV = f.rev.toNat ∧
    t.chip.fld F.TLK_PART_INFO_MAJORS = (f.others.toNat &&& 0xF9) + (if f.minor1.isSome = true then 2 else 0) +
      (if f.minor2.isSome = true then 4 else 0) ∧ t.chip.reg Reg.TLK_PART_BUILD = f.build ∧
    Only [Reg.TLK_PART_INFO, Reg.TLK_PART_BUILD] s t
      { s.chip with tlk := { s.chip.tlk with partCap := f.capacity } }) ∧
  (∀ (s : State) (f : NegFrame),
    s.chip.Calm → s.chip.tandem = true → s.chip.linkUp = true → s.chip.tlkState = 2 →
    ∃ t, exec (.negotiationFrame f true) s = .next t ∧
    (f.minor1 = none ∧ f.minor2 = none → t.chip.tlkState = 3 ∧ t.chip.fld F.TLK_STATUS_FAIL_REASON = 1) ∧
    (f.minor1.isSome = true ∨ f.minor2.isSome = true → f.role = s.chip.bit F.TLK_CFG_ROLE → t.chip.tlkState = 3 ∧
        t.chip.fld F.TLK_STATUS_FAIL_REASON = 2) ∧
    (f.minor1.isSome = true ∨ f.minor2.isSome = true → f.role ≠ s.chip.bit F.TLK_CFG_ROLE → f.token = true →
        s.chip.bit F.TLK_CFG_TOKEN_INIT = true → t.chip.tlkState = 3 ∧ t.chip.fld F.TLK_STATUS_FAIL_REASON = 3) ∧
    RaisedBit F.TLK_EVT_EVT 5 105 s t ∧
    Only [Reg.TLK_PART_INFO, Reg.TLK_PART_BUILD, Reg.TLK_STATUS, Reg.TLK_EVT, Reg.EVT_PEND 3] s t
      { s.chip with
        tlk := { s.chip.tlk with partCap := f.capacity, marker := t.chip.tlk.marker, onWay := t.chip.tlk.onWay } }) ∧
  (∀ (s : State) (f : NegFrame) (n : Nat),
    s.chip.Calm → s.chip.tandem = true → s.chip.linkUp = true → s.chip.tlkState = 2 → f.minor2 = some n →
    f.role ≠ s.chip.bit F.TLK_CFG_ROLE → f.token = false →
    f.lockstep = false ∨ s.chip.bit F.TLK_CFG_MODE_REQ = false → ∃ t, exec (.negotiationFrame f true) s = .next t ∧
    t.chip.tlkState = 7 ∧ t.chip.fld F.TLK_STATUS_MAJOR = 2 ∧ t.chip.fld F.TLK_STATUS_MINOR = min 1 n ∧
    t.chip.bit F.TLK_STATUS_ARMED = (!(s.chip.holdsToken || s.chip.tlk.tokenInit)) ∧
    RaisedBit F.TLK_EVT_EVT 5 105 s t ∧
    t.chip.tlk.marker = (if s.chip.leader = true then s.chip.tlk.marker else some f.stc)) ∧
  (∀ (s : State) (f : NegFrame) (n : Nat),
    s.chip.Calm → s.chip.tandem = true → s.chip.linkUp = true → s.chip.tlkState = 2 → f.minor2 = some n →
    f.role ≠ s.chip.bit F.TLK_CFG_ROLE → f.token = false → f.lockstep = true ∧
    s.chip.bit F.TLK_CFG_MODE_REQ = true → f.image = s.chip.tlk.image ∧ f.build = s.chip.tlk.build ∧
    f.fwd = s.chip.reg Reg.TLK_FWD →
    ((if s.chip.leader = true then decide (s.chip.ddrSize ≤ f.capacity) else decide (f.capacity ≤ s.chip.ddrSize)) =
          true) → ∃ t, exec (.negotiationFrame f true) s = .next t ∧ RaisedBit F.TLK_EVT_EVT 5 105 s t ∧
    (s.chip.loadFits = false → t.chip.tlkState = 3 ∧ t.chip.fld F.TLK_STATUS_FAIL_REASON = 4) ∧
    (s.chip.loadFits = true → (s.chip.holdsToken || s.chip.tlk.tokenInit) = true → t.chip.tlkState = 6) ∧
    (s.chip.loadFits = true → (s.chip.holdsToken || s.chip.tlk.tokenInit) = false → t.chip.tlkState = 2 ∧
        t.chip.tlk.onWay = true)) ∧
  (∀ (s : State) (v : BitVec 64),
    s.chip.Calm → s.chip.tlk.marker = some v → ∃ t, exec .markerStcLoad s = .next t ∧ t.chip.tlk.marker = none ∧
    (
        let x := BitVec.ofNat 64 ((v.toNat / 4096 + 1) * 4096)
        if s.chip.halted = true ∧
        s.chip.tick.phase = .idle then t.chip.tick.stc = x else t.chip.tick.load = some x ∧
        t.chip.tick.stc = s.chip.tick.stc) ∧
    Only [] s t { s.chip with tlk := { s.chip.tlk with marker := none }, tick := t.chip.tick }) ∧
  (∀ (s : State),
    s.chip.Calm → s.chip.tlkState = 6 ∨ s.chip.tlkState = 7 → 4 ≤ s.chip.tlk.silent → s.chip.linkUp = true →
    ∃ t, exec .linkLoss s = .next t ∧ t.chip.linkUp = false ∧ t.chip.tlkState = 8 ∧
    RaisedBit F.TLK_EVT_EVT 0 100 s t ∧
    t.chip.bit F.TLK_STATUS_ARMED = (s.chip.holdsToken && s.chip.bit F.TLK_STATUS_ARMED) ∧
    t.chip.tlk.entries = (if s.chip.leader = true then s.chip.tlk.entries else []) ∧ t.chip.tlk.missing = [] ∧
    t.chip.tlk.fwd = [] ∧ Only [Reg.TLK_STATUS, Reg.TLK_EVT, Reg.EVT_PEND 3] s t { s.chip with tlk := t.chip.tlk }) ∧
  (∀ (s : State),
    s.chip.Calm → s.chip.paired = false ∨ s.chip.tlk.silent < 4 → ∃ t, exec .linkLoss s = .next t ∧
    Only [] s t s.chip) ∧
  (∀ (s : State),
    s.chip.Calm → s.chip.tandem = true → s.chip.leader = false → s.chip.bit F.TICK_STATUS_PAUSED = false →
    s.chip.trkSrc ≠ 11 → ∃ t, exec .tlkTickLoss s = .next t ∧ t.chip.leader = s.chip.holdsToken ∧
    Only [Reg.TLK_STATUS] s t { s.chip with tlk := { s.chip.tlk with tickLost := true } })

/-- What the link brings and what the ledger takes (spec/09). How entries are numbered and segments laid out is the
model's (log entry 24). -/
def Obligations.tandemTraffic : Prop :=
  (∀ (s : State) (f : TFrame) (ok1 ok2 : Bool),
    s.chip.Calm → s.chip.tandem = true → s.chip.linkUp = true → ok1 = true ∨ ok2 = true →
    (s.chip.paired = true → f.tick = BitVec.ofNat 32 (s.chip.now - 1)) → f.div = false → f.latched = false →
    s.chip.fld F.TLK_REJOIN_STATUS_PHASE ≠ 3 → s.chip.tlkState ≠ 4 ∧ s.chip.tlkState ≠ 8 →
    ∃ t, exec (.tickFrameReceive f ok1 ok2) s = .next t ∧ t.chip.bit F.TLK_STATUS_PART_ARMED = f.armed ∧
    t.chip.tlk.heard = true ∧ t.chip.tlk.ack = f.fseq.toNat ∧
    t.chip.tlk.queue = s.chip.tlk.queue.filter
      (fun q => q.2.all fun x => decide (128 ≤ (f.ack.toNat + 256 - x) % 256)) ∧
    t.chip.tlk.part = s.chip.tlk.part ++ [(s.chip.now - 1, f.digest, false)] ∧
    (s.chip.lockstep = true → s.chip.leader = false → t.chip.tlk.fwd = f.fwd ∧
        t.chip.tlk.entries = s.chip.tlk.entries ++ f.entries.filter
          (fun e => !s.chip.tlk.entries.any (·.id == e.id))) ∧
    (s.chip.lockstep = false ∨ s.chip.leader = true → t.chip.tlk.fwd = s.chip.tlk.fwd ∧
        t.chip.tlk.entries = s.chip.tlk.entries) ∧
    Only [Reg.TLK_STATUS, Reg.TLK_LINK_CNT] s t { s.chip with tlk := t.chip.tlk }) ∧
  (∀ (s : State) (f : TFrame) (ok1 ok2 : Bool),
    s.chip.Calm → s.chip.tandem = true → s.chip.linkUp = true → ok1 = true ∨ ok2 = true →
    s.chip.tlkState = 6 ∨ s.chip.tlkState = 7 → f.tick ≠ BitVec.ofNat 32 (s.chip.now - 1) →
    ∃ t, exec (.tickFrameReceive f ok1 ok2) s = .next t ∧ t.chip.linkUp = false ∧ t.chip.tlkState = 8 ∧
    RaisedBit F.TLK_EVT_EVT 0 100 s t) ∧
  (∀ (s : State) (f : TFrame),
    s.chip.Calm → s.chip.tandem = true → s.chip.linkUp = true → f.fwd = [] →
    ∃ t, exec (.tickFrameReceive f false false) s = .next t ∧
    t.chip.fld F.TLK_LINK_CNT_CRC_ERR = min (s.chip.fld F.TLK_LINK_CNT_CRC_ERR + 2) 65535 ∧
    t.chip.fld F.TLK_LINK_CNT_FRAME_LOST = min (s.chip.fld F.TLK_LINK_CNT_FRAME_LOST + 1) 65535 ∧
    Only [Reg.TLK_LINK_CNT] s t { s.chip with
        tlk := { s.chip.tlk with
                missing := s.chip.tlk.missing ++ f.entries.filter (fun e => !s.chip.tlk.entries.any (·.id == e.id)) } }) ∧
  (∀ (s : State) (f : TFrame) (ok1 ok2 : Bool),
    s.chip.Calm → s.chip.tandem = false ∨ s.chip.linkUp = false →
    ∃ t, exec (.tickFrameReceive f ok1 ok2) s = .next t ∧ Only [] s t s.chip) ∧
  (∀ (s : State) (n : BitVec 32) (items : List SegItem),
    s.chip.Calm → s.chip.tandem = true → s.chip.linkUp = true →
    ∃ t, exec (.segmentReceive n items false) s = .next t ∧
    t.chip.fld F.TLK_LINK_CNT_CRC_ERR = min (s.chip.fld F.TLK_LINK_CNT_CRC_ERR + 1) 65535 ∧
    t.chip.tlk.again = s.chip.tlk.again.filter (· != n.toNat) ++ [n.toNat] ∧
    Only [Reg.TLK_LINK_CNT] s t { s.chip with tlk := { s.chip.tlk with again := t.chip.tlk.again } }) ∧
  (∀ (s : State) (n : BitVec 32) (a : Nat) (w : Word),
    s.chip.Calm → s.chip.tandem = true → s.chip.linkUp = true → s.chip.recovering = true → a % 4 = 0 →
    isDelay a = false →
    ∃ t, exec (.segmentReceive n [.word a w false, .epoch (BitVec.ofNat 8 (s.chip.fld (F.EPOCH_EPOCH mPart)))] true)
      s = .next t ∧ Stores a w s t ∧ t.chip.tlk.seg = n.toNat ∧
    Only [Reg.SEC_REC_CTRL] s t { s.chip with
        tlk := { s.chip.tlk with seg := n.toNat, again := s.chip.tlk.again.filter (· != n.toNat) }
        mem := t.chip.mem
        tags := t.chip.tags
        ecc := t.chip.ecc }) ∧
  (∀ (s : State) (n : BitVec 32) (a : Nat) (w : Word),
    s.chip.Calm → s.chip.tandem = true → s.chip.linkUp = true → s.chip.recovering = false →
    ∃ t, exec (.segmentReceive n [.word a w false, .reg a w, .ext a w] true) s = .next t ∧
    Only [] s t
      { s.chip with tlk := { s.chip.tlk with seg := n.toNat, again := s.chip.tlk.again.filter (· != n.toNat) } }) ∧
  (∀ (s : State) (tick : BitVec 32) (first : Byte) (ws : List Word) (ok2 : Bool),
    s.chip.Calm → s.chip.tandem = true → s.chip.linkUp = true → s.chip.lockstep = true → s.chip.leader = false →
    s.chip.bit F.TLK_FWD_SENSE = true → tick.toNat = s.chip.now % 2 ^ 32 →
    ∃ t, exec (.expressGroupReceive tick first ws true ok2) s = .next t ∧
    t.chip.tlk.sense = s.chip.tlk.sense.filter
      (fun x => decide (x.1 < 4 * first.toNat ∨ 4 * first.toNat + 16 ≤ x.1)) ++ (List.range 16).map
      (fun i => (4 * first.toNat + i, ws.getD i 0)) ∧
    Only [Reg.TLK_LINK_CNT] s t { s.chip with tlk := { s.chip.tlk with sense := t.chip.tlk.sense } }) ∧
  (∀ (s : State) (tick : BitVec 32) (first : Byte) (ws : List Word),
    s.chip.Calm → s.chip.tandem = true → s.chip.linkUp = true → s.chip.tlkState = 6 →
    s.chip.bit F.TLK_STATUS_PART_ARMED = true → s.chip.leader = false → s.chip.bit F.TLK_FWD_SENSE = true →
    ∃ t, exec (.expressGroupReceive tick first ws false false) s = .next t ∧ t.chip.latched = true ∧
    t.chip.fld F.TLK_LATCH_CAUSE = 4 ∧ RaisedBit F.TLK_EVT_EVT 7 107 s t ∧
    t.chip.fld F.TLK_LINK_CNT_CRC_ERR = min (s.chip.fld F.TLK_LINK_CNT_CRC_ERR + 2) 65535) ∧
  (∀ (s : State) (tick : BitVec 32) (first : Byte) (ws : List Word) (ok1 ok2 : Bool),
    s.chip.Calm →
    s.chip.lockstep = false ∨ s.chip.leader = true ∨ s.chip.linkUp = false ∨ s.chip.bit F.TLK_FWD_SENSE = false →
    ∃ t, exec (.expressGroupReceive tick first ws ok1 ok2) s = .next t ∧ Only [] s t s.chip) ∧
  (∀ (s : State) (m : Master) (v : Word) (k T : Nat),
    s.chip.Calm → s.chip.writes m Reg.TLK_LDG_CMD = true → s.chip.ldgReject = 0 →
    k = (s.chip.tlk.queue.filter (·.2.isNone)).length →
    T = s.chip.ldgRoom (max (s.chip.reg64 Reg.TLK_LDG_AT_LO Reg.TLK_LDG_AT_HI)
          (s.chip.now + max 3 (s.chip.fld F.TLK_CFG_LEAD) + (k + s.chip.ldgPerFrame - 1) / s.chip.ldgPerFrame)) →
    ∃ t, exec (.ledgerSubmit m v) s = .next t ∧
    t.chip.tlk.entries = s.chip.tlk.entries ++
      [⟨(s.chip.reg Reg.TLK_LDG_ADDR).toNat, s.chip.reg Reg.TLK_LDG_DATA, T, s.chip.tlk.nextId⟩] ∧
    t.chip.reg64 Reg.TLK_LDG_STAMP_LO Reg.TLK_LDG_STAMP_HI = T % 2 ^ 64 ∧
    (T ≠ s.chip.reg64 Reg.TLK_LDG_AT_LO Reg.TLK_LDG_AT_HI → t.chip.bit F.TLK_LDG_CMD_RESTAMPED = true) ∧
    (s.chip.linkUp = true → t.chip.fld F.TLK_LDG_CMD_QDEPTH = k + 1) ∧
    Only [Reg.TLK_LDG_CMD, Reg.TLK_LDG_STAMP_LO, Reg.TLK_LDG_STAMP_HI] s t { s.chip with
        tlk := { s.chip.tlk with
                entries := t.chip.tlk.entries
                nextId := s.chip.tlk.nextId + 1
                queue := t.chip.tlk.queue } }) ∧
  (∀ (s : State) (m : Master) (v : Word),
    s.chip.Calm → s.chip.writes m Reg.TLK_LDG_CMD = true → s.chip.ldgReject ≠ 0 →
    ∃ t, exec (.ledgerSubmit m v) s = .next t ∧ t.chip.fld F.TLK_LDG_CMD_REJ = s.chip.ldgReject ∧
    (s.chip.ldgReject = 3 → RaisedBit F.TLK_EVT_EVT 6 106 s t) ∧
    Only [Reg.TLK_LDG_CMD, Reg.TLK_EVT, Reg.EVT_PEND 3] s t s.chip)

/-- The fail-silent latch (R215, R217, R221). -/
def Obligations.tandemLatch : Prop :=
  (∀ (s : State),
    s.chip.Calm → ∃ t, exec (.tlkKillIn true) s = .next t ∧ t.chip.bit F.TLK_STATUS_KILL_IN = true ∧
    t.chip.latched = true ∧ t.chip.fld F.TLK_LATCH_CAUSE = 2 ∧ t.chip.bit F.TLK_STATUS_ARMED = false ∧
    t.chip.tlkState = (if s.chip.tlkState = 0 then 0 else 9) ∧ RaisedBit F.TLK_EVT_EVT 7 107 s t ∧
    Only [Reg.TLK_STATUS, Reg.TLK_LATCH, Reg.TLK_EVT, Reg.EVT_PEND 3] s t s.chip) ∧
  (∀ (s : State),
    s.chip.Calm → ∃ t, exec (.tlkKillIn false) s = .next t ∧ t.chip.bit F.TLK_STATUS_KILL_IN = false ∧
    Only [Reg.TLK_STATUS] s t s.chip) ∧
  (∀ (s : State) (m : Master) (v : Word),
    s.chip.Calm → s.chip.writes m Reg.TLK_LATCH = true → ∃ t, exec (.force m v) s = .next t ∧
    t.chip.latched = true ∧ t.chip.fld F.TLK_LATCH_CAUSE = 5 ∧ t.chip.bit F.TLK_STATUS_ARMED = false ∧
    RaisedBit F.TLK_EVT_EVT 7 107 s t ∧
    Only [Reg.TLK_STATUS, Reg.TLK_LATCH, Reg.TLK_EVT, Reg.EVT_PEND 3] s t
      { s.chip with tlk := { s.chip.tlk with killOut := t.chip.tlk.killOut } }) ∧
  (∀ (s : State) (m : Master) (v : Word),
    s.chip.Calm → s.chip.writes m Reg.TLK_LATCH = true → bitAt v.toNat 31 = false → bitAt v.toNat 29 = false →
    ∃ t, exec (.killPartner m v) s = .next t ∧
    Only [Reg.TLK_LATCH] s t { s.chip with tlk := { s.chip.tlk with killOut := 2 } }) ∧
  (∀ (s : State) (m : Master) (v : Word),
    s.chip.Calm → s.chip.writes m Reg.TLK_LATCH = true → bitAt v.toNat 31 = false → bitAt v.toNat 30 = false →
    s.chip.latched = true → s.chip.holdsToken = false → ∃ t, exec (.latchClear m v) s = .next t ∧
    t.chip.latched = false ∧ t.chip.bit F.TLK_STATUS_ARMED = false ∧
    t.chip.tlkState = (if s.chip.tlkState = 9 then 8 else s.chip.tlkState) ∧
    Only [Reg.TLK_LATCH, Reg.TLK_STATUS] s t s.chip) ∧
  (∀ (s : State) (m : Master) (v : Word),
    s.chip.Calm → s.chip.writes m Reg.TLK_LATCH = true → bitAt v.toNat 31 = false → bitAt v.toNat 30 = false →
    s.chip.latched = false ∨ s.chip.holdsToken = true → ∃ t, exec (.latchClear m v) s = .next t ∧
    Only [Reg.TLK_LATCH] s t s.chip) ∧
  (∀ (s : State),
    s.chip.Calm → s.chip.tandem = true → s.chip.holdsToken = true → ∃ t, exec .clockFailureRelease s = .next t ∧
    t.chip.holdsToken = false ∧ RaisedBit F.TLK_EVT_EVT 2 102 s t ∧ t.chip.latched = true ∧
    t.chip.fld F.TLK_LATCH_CAUSE = 6 ∧ t.chip.bit F.TLK_STATUS_ARMED = false ∧
    t.chip.tlkState = (if s.chip.tlkState = 0 then 0 else 9) ∧ RaisedBit F.TLK_EVT_EVT 7 107 s t ∧
    Only [Reg.TLK_STATUS, Reg.TLK_LATCH, Reg.TLK_EVT, Reg.EVT_PEND 3] s t
      { s.chip with tlk := { s.chip.tlk with driveOut := false, released := true } }) ∧
  (∀ (s : State),
    s.chip.Calm → s.chip.tandem = false ∨ s.chip.holdsToken = false ∧ s.chip.tlk.released = false →
    ∃ t, exec .clockFailureRelease s = .next t ∧ Only [] s t s.chip)

/-- The course of a rejoin (R226) and its ends (R227). -/
def Obligations.rejoin : Prop :=
  (∀ (s : State) (m : Master) (v : Word),
    s.chip.Calm → s.chip.writes m Reg.TLK_REJOIN_CTRL = true → bitAt v.toNat 30 = false → s.chip.latched = false →
    s.chip.holdsToken = false → s.chip.tlkState = 8 → s.chip.domOn 16 = true →
    s.chip.bit F.DDR_STATUS_READY = true → s.chip.tlk.partCap ≤ s.chip.ddrSize →
    ∃ t, exec (.rejoinStart m v) s = .next t ∧ t.chip.tlkState = 4 ∧ t.chip.fld F.TLK_REJOIN_STATUS_PHASE = 1 ∧
    t.chip.fld F.TLK_REJOIN_STATUS_REASON = 0 ∧ t.chip.fld F.TLK_REJOIN_CTRL_CLEAN = bits v.toNat 15 0 ∧
    t.chip.tlk.source = false ∧ t.chip.tlk.again = [] ∧
    Only [Reg.TLK_REJOIN_CTRL, Reg.TLK_REJOIN_STATUS, Reg.TLK_STATUS, Reg.TLK_EVT, Reg.EVT_PEND 3] s t
      { s.chip with tlk := t.chip.tlk }) ∧
  (∀ (s : State) (m : Master) (v : Word),
    s.chip.Calm → s.chip.writes m Reg.TLK_REJOIN_CTRL = true → bitAt v.toNat 30 = false →
    s.chip.latched = true ∨ s.chip.holdsToken = true ∨ s.chip.tlkState ≠ 8 ∧ s.chip.tlkState ≠ 2 →
    ∃ t, exec (.rejoinStart m v) s = .next t ∧ t.chip.fld F.TLK_REJOIN_STATUS_REASON = 1 ∧
    t.chip.bit F.TLK_REJOIN_STATUS_ABORTED = true ∧ RaisedBit F.TLK_EVT_EVT 4 104 s t ∧
    t.chip.tlkState = s.chip.tlkState ∧
    t.chip.fld F.TLK_REJOIN_STATUS_PHASE = s.chip.fld F.TLK_REJOIN_STATUS_PHASE ∧
    Only [Reg.TLK_REJOIN_CTRL, Reg.TLK_REJOIN_STATUS, Reg.TLK_STATUS, Reg.TLK_EVT, Reg.EVT_PEND 3] s t s.chip) ∧
  (∀ (s : State) (m : Master) (v : Word),
    s.chip.Calm → s.chip.writes m Reg.TLK_REJOIN_CTRL = true → bitAt v.toNat 31 = false →
    s.chip.tlkState = 4 ∨ s.chip.tlkState = 5 → s.chip.fld F.TLK_REJOIN_STATUS_PHASE ≠ 0 →
    ∃ t, exec (.rejoinAbort m v) s = .next t ∧ t.chip.fld F.TLK_REJOIN_STATUS_PHASE = 0 ∧
    t.chip.fld F.TLK_REJOIN_STATUS_REASON = 7 ∧ t.chip.bit F.TLK_REJOIN_STATUS_ABORTED = true ∧
    t.chip.tlkState = 8 ∧ RaisedBit F.TLK_EVT_EVT 4 104 s t ∧
    Only [Reg.TLK_REJOIN_CTRL, Reg.TLK_REJOIN_STATUS, Reg.TLK_STATUS, Reg.TLK_EVT, Reg.EVT_PEND 3] s t
      { s.chip with tlk := t.chip.tlk }) ∧
  (∀ (s : State) (m : Master) (v : Word),
    s.chip.Calm → s.chip.writes m Reg.TLK_REJOIN_CTRL = true → bitAt v.toNat 31 = false →
    s.chip.fld F.TLK_REJOIN_STATUS_PHASE = 0 → ∃ t, exec (.rejoinAbort m v) s = .next t ∧
    Only [Reg.TLK_REJOIN_CTRL] s t s.chip) ∧
  (∀ (s : State) (most : Nat),
    s.chip.Calm → s.chip.fld F.TLK_REJOIN_STATUS_PHASE = 1 → s.chip.tlk.again = [] →
    (most = (List.range 10).foldl (fun m p => max m (s.chip.plen p)) 0) → ∃ t, exec .rejoinSnap s = .next t ∧
    (most + 256 ≤ s.chip.budget → t.chip.fld F.TLK_REJOIN_STATUS_PHASE = 2 ∧
        t.chip.fld F.TLK_REJOIN_STATUS_LEFT = 0 ∧ Only [Reg.TLK_REJOIN_STATUS] s t s.chip) ∧
    (s.chip.budget < most + 256 → t.chip.fld F.TLK_REJOIN_STATUS_PHASE = 0 ∧
        t.chip.fld F.TLK_REJOIN_STATUS_REASON = 2 ∧ t.chip.bit F.TLK_REJOIN_STATUS_ABORTED = true ∧
        RaisedBit F.TLK_EVT_EVT 4 104 s t ∧
        Only [Reg.TLK_REJOIN_CTRL, Reg.TLK_REJOIN_STATUS, Reg.TLK_STATUS, Reg.TLK_EVT, Reg.EVT_PEND 3] s t
          { s.chip with tlk := t.chip.tlk })) ∧
  (∀ (s : State),
    s.chip.Calm → s.chip.fld F.TLK_REJOIN_STATUS_PHASE = 2 → ∃ t, exec .rejoinCatchup s = .next t ∧
    t.chip.fld F.TLK_REJOIN_STATUS_PHASE = (if s.chip.windowsLanded = true then 3 else 2) ∧
    Only [Reg.TLK_REJOIN_STATUS] s t s.chip) ∧
  (∀ (s : State),
    s.chip.Calm → s.chip.fld F.TLK_REJOIN_STATUS_PHASE = 3 → s.chip.fld F.TLK_REJOIN_STATUS_LAG = 0 →
    ∃ t, exec .rejoinShadow s = .next t ∧ t.chip.fld F.TLK_REJOIN_STATUS_PHASE = 4 ∧ t.chip.tlkState = 5 ∧
    Only [Reg.TLK_REJOIN_STATUS, Reg.TLK_STATUS] s t
      { s.chip with tlk := { s.chip.tlk with clean := 0, own := [], part := [] } }) ∧
  (∀ (s : State),
    s.chip.Calm → s.chip.fld F.TLK_REJOIN_STATUS_PHASE = 4 →
    max 1 (s.chip.fld F.TLK_REJOIN_CTRL_CLEAN) * 1024 ≤ s.chip.tlk.clean → ∃ t, exec .rejoinDone s = .next t ∧
    t.chip.fld F.TLK_REJOIN_STATUS_PHASE = 0 ∧ t.chip.bit F.TLK_REJOIN_STATUS_DONE = true ∧
    t.chip.bit F.TLK_STATUS_ARMED = true ∧ t.chip.tlkState = 6 ∧ RaisedBit F.TLK_EVT_EVT 4 104 s t ∧
    Only [Reg.TLK_REJOIN_CTRL, Reg.TLK_REJOIN_STATUS, Reg.TLK_STATUS, Reg.TLK_EVT, Reg.EVT_PEND 3] s t s.chip) ∧
  (∀ (s : State),
    s.chip.Calm → s.chip.fld F.TLK_REJOIN_STATUS_PHASE = 0 →
    (∃ t, exec .rejoinSnap s = .next t ∧ Only [] s t s.chip) ∧
    (∃ t, exec .rejoinCatchup s = .next t ∧ Only [] s t s.chip) ∧
    (∃ t, exec .rejoinShadow s = .next t ∧ Only [] s t s.chip) ∧
    (∃ t, exec .rejoinDone s = .next t ∧ Only [] s t s.chip))

/-- The serial audio ports (R231, R232, R235 to R238, R241, R242); status bits raise event 60 + k unless masked (R249). -/
def Obligations.audioPorts : Prop :=
  (∀ (s : State) (m : Master) (k : Fin 8) (v : Word) (w : Word),
    s.chip.Calm → s.chip.writes m (Reg.SAP_CTRL k) = true → s.chip.bit (F.SAP_CTRL_EN k) = false →
    w = (v &&& 0x3FF8007F) ||| 0x80000000 →
    s.chip.sapSlots k * s.chip.sapBits k * 2 ^ (s.chip.rate / 2) ≤ 1024 ∨ bitAt v.toNat 27 = true ∧
    bitAt v.toNat 29 = false → ∃ t, exec (.sapStart m k v) s = .next t ∧ t.chip.reg (Reg.SAP_CTRL k) = w ∧
    (bitAt v.toNat 29 = true → t.chip.sapOf k = { mode := .wait } ∧
        t.chip.reg (Reg.SAP_STATUS k) = s.chip.reg (Reg.SAP_STATUS k)) ∧
    (bitAt v.toNat 29 = false → t.chip.sapOf k = { mode := .measure } ∧ t.chip.bit (F.SAP_STATUS_MUTED k) = true) ∧
    (∀ j, j ≠ k.val → t.chip.sapOf j = s.chip.sapOf j) ∧
    (∀ i, i < 32 → (t.chip.protOf (32 * k + i)).dc = 0 ∧ (t.chip.protOf (32 * k + i)).cnt = 0) ∧
    Only [Reg.SAP_CTRL k, Reg.SAP_STATUS k] s t
      { s.chip with sap := t.chip.sap, rtr := { s.chip.rtr with prot := t.chip.rtr.prot } }) ∧
  (∀ (s : State) (m : Master) (k : Fin 8) (v : Word),
    s.chip.Calm → s.chip.writes m (Reg.SAP_CTRL k) = true → s.chip.bit (F.SAP_CTRL_EN k) = false →
    1024 < s.chip.sapSlots k * s.chip.sapBits k * 2 ^ (s.chip.rate / 2) →
    bitAt v.toNat 27 = false ∨ bitAt v.toNat 29 = true →
    (∀ g : Nat, g < 4 → s.chip.fld (F.ASRC_GCTRL_PORT g) = k.val → s.chip.bit (F.ASRC_GSTATUS_SETTLED g) = false) →
    ∃ t, exec (.sapStart m k v) s = .next t ∧ t.chip.sapOf k = {} ∧ t.chip.bit (F.SAP_STATUS_FMT_ERR k) = true ∧
    (s.chip.fbit ⟨Reg.SAP_STATUS k, 8, 0⟩ 8 = false → s.chip.fbit (F.SAP_MASK_MASK k) 8 = false →
        t.chip.pends (60 + k) = true) ∧ t.chip.bit (F.SAP_STATUS_RUNNING k) = false ∧
    (∀ j, j ≠ k.val → t.chip.sapOf j = s.chip.sapOf j) ∧
    Only [Reg.SAP_CTRL k, Reg.SAP_STATUS k, Reg.EVT_PEND ((60 + k.val) / 32)] s t
      { s.chip with sap := t.chip.sap, rtr := { s.chip.rtr with prot := t.chip.rtr.prot } }) ∧
  (∀ (s : State) (m : Master) (k : Fin 8) (v : Word),
    s.chip.Calm → s.chip.writes m (Reg.SAP_CTRL k) = true → s.chip.bit (F.SAP_CTRL_EN k) = true →
    ((s.chip.sapOf k).mode = .run) → ∃ t, exec (.sapStop m k v) s = .next t ∧ t.chip.bit (F.SAP_CTRL_EN k) = false ∧
    t.chip.sapOf k = { s.chip.sapOf k with mode := .stop, restart := (s.chip.sapOf k).restart || bitAt v.toNat 30 }
      ∧ (∀ j, j ≠ k.val → t.chip.sapOf j = s.chip.sapOf j) ∧
    Only [Reg.SAP_CTRL k] s t { s.chip with sap := t.chip.sap }) ∧
  (∀ (s : State) (m : Master) (k : Fin 8) (v : Word),
    s.chip.Calm → s.chip.writes m (Reg.SAP_CTRL k) = true → s.chip.bit (F.SAP_CTRL_EN k) = true →
    ((s.chip.sapOf k).mode ≠ .run) →
    (∀ g : Nat, g < 4 → s.chip.fld (F.ASRC_GCTRL_PORT g) = k.val → s.chip.bit (F.ASRC_GSTATUS_SETTLED g) = false) →
    ∃ t, exec (.sapStop m k v) s = .next t ∧ t.chip.bit (F.SAP_CTRL_EN k) = false ∧ t.chip.sapOf k = {} ∧
    t.chip.bit (F.SAP_STATUS_RUNNING k) = false ∧ t.chip.bit (F.SAP_STATUS_MUTED k) = false ∧
    t.chip.bit (F.SAP_STATUS_SUBST_ACT k) = false ∧ (∀ j, j ≠ k.val → t.chip.sapOf j = s.chip.sapOf j) ∧
    Only [Reg.SAP_CTRL k, Reg.SAP_STATUS k] s t { s.chip with sap := t.chip.sap }) ∧
  (∀ (s : State) (m : Master) (k : Fin 8) (v : Word),
    s.chip.Calm → s.chip.writes m (Reg.SAP_CTRL k) = true → s.chip.bit (F.SAP_CTRL_EN k) = true →
    bitAt v.toNat 31 = true → ((s.chip.sapOf k).mode ≠ .off ∧ (s.chip.sapOf k).mode ≠ .changed) →
    ∃ t, exec (.restart m k v) s = .next t ∧ t.chip.sapOf k = { s.chip.sapOf k with restart := true } ∧
    (∀ j, j ≠ k.val → t.chip.sapOf j = s.chip.sapOf j) ∧ Only [Reg.SAP_CTRL k] s t { s.chip with sap := t.chip.sap }) ∧
  (∀ (s : State) (m : Master) (k : Fin 8) (v : Word),
    s.chip.Calm → s.chip.writes m (Reg.SAP_CTRL k) = true → s.chip.bit (F.SAP_CTRL_EN k) = true →
    bitAt v.toNat 31 = true → ((s.chip.sapOf k).mode = .changed) → ∃ t, exec (.restart m k v) s = .next t ∧
    (t.chip.sapOf k).mode = .run ∧ t.chip.bit (F.SAP_STATUS_RUNNING k) = true ∧
    t.chip.bit (F.SAP_STATUS_MUTED k) = false ∧ (∀ j, j ≠ k.val → t.chip.sapOf j = s.chip.sapOf j) ∧
    Only [Reg.SAP_CTRL k, Reg.SAP_STATUS k] s t { s.chip with sap := t.chip.sap }) ∧
  (∀ (s : State) (k : Fin 8) (words : List Word) (count phase : Nat),
    s.chip.Calm → ((s.chip.sapOf k).mode = .run) → s.chip.looped k = false →
    s.chip.bit F.TICK_STATUS_PAUSED = false →
    s.chip.bit (F.SAP_CTRL_MASTER k) = true ∨ s.chip.bit (F.SAP_CTRL_LOOSE k) = false ∧
    count = s.chip.sapSlots k * s.chip.sapBits k → ∃ t, exec (.sapFrameReceive k words count phase) s = .next t ∧
    (
        let ws := (List.range (s.chip.sapSlots k)).map fun i => words.getD i 0
        t.chip.sapOf k = { s.chip.sapOf k with
            got := (s.chip.sapOf k).got ++ [some (ws.map (s.chip.sapKeep k))]
            rawPrev := (s.chip.sapOf k).raw
            raw := ws }) ∧
    (s.chip.bit (F.SAP_CTRL_MASTER k) = false ∧ s.chip.bit (F.SAP_CTRL_ASRC k) = false →
        t.chip.fld (F.SAP_MEAS_PHASE k) = phase % 65536) ∧ (∀ j, j ≠ k.val → t.chip.sapOf j = s.chip.sapOf j) ∧
    Only [Reg.SAP_MEAS k] s t { s.chip with sap := t.chip.sap }) ∧
  (∀ (s : State) (k : Fin 8) (words : List Word) (count phase : Nat),
    s.chip.Calm → ((s.chip.sapOf k).mode = .run) → s.chip.looped k = false →
    s.chip.bit F.TICK_STATUS_PAUSED = false → s.chip.bit (F.SAP_CTRL_MASTER k) = false →
    s.chip.bit (F.SAP_CTRL_LOOSE k) = false → count ≠ s.chip.sapSlots k * s.chip.sapBits k →
    ∃ t, exec (.sapFrameReceive k words count phase) s = .next t ∧
    (t.chip.sapOf k).got = (s.chip.sapOf k).got ++ [none] ∧ (t.chip.sapOf k).mode = .run ∧
    t.chip.bit (F.SAP_STATUS_GLITCH k) = true ∧
    (s.chip.fbit ⟨Reg.SAP_STATUS k, 8, 0⟩ 3 = false → s.chip.fbit (F.SAP_MASK_MASK k) 3 = false →
        t.chip.pends (60 + k) = true) ∧
    t.chip.fld (F.SAP_CNT_GLITCH_CNT k) = min (s.chip.fld (F.SAP_CNT_GLITCH_CNT k) + 1) 65535 ∧
    (∀ j, j ≠ k.val → t.chip.sapOf j = s.chip.sapOf j) ∧
    Only [Reg.SAP_MEAS k, Reg.SAP_STATUS k, Reg.SAP_CNT k, Reg.EVT_PEND ((60 + k.val) / 32)] s t
      { s.chip with sap := t.chip.sap }) ∧
  (∀ (s : State) (k : Fin 8) (words : List Word) (count phase : Nat),
    s.chip.Calm → ((s.chip.sapOf k).mode = .run) → s.chip.looped k = false →
    s.chip.bit F.TICK_STATUS_PAUSED = false → s.chip.bit (F.SAP_CTRL_MASTER k) = false →
    s.chip.bit (F.SAP_CTRL_LOOSE k) = true → ∃ t, exec (.sapFrameReceive k words count phase) s = .next t ∧
    (t.chip.sapOf k).aligned = true ∧ (t.chip.sapOf k).restart = false ∧
    (
        let x := s.chip.sapOf k
        (t.chip.sapOf k).ctr = if x.aligned = false ∨ x.restart = true then 0 else (x.ctr + count) %
          (s.chip.sapSlots k * s.chip.sapBits k)) ∧
    ((t.chip.sapOf k).ctr ≠ 0 → t.chip.bit (F.SAP_STATUS_SLOTSLIP k) = true ∧
        (s.chip.fbit ⟨Reg.SAP_STATUS k, 8, 0⟩ 2 = false → s.chip.fbit (F.SAP_MASK_MASK k) 2 = false →
            t.chip.pends (60 + k) = true)) ∧ (t.chip.sapOf k).got.length = (s.chip.sapOf k).got.length + 1 ∧
    (∀ j, j ≠ k.val → t.chip.sapOf j = s.chip.sapOf j) ∧
    Only [Reg.SAP_MEAS k, Reg.SAP_STATUS k, Reg.EVT_PEND ((60 + k.val) / 32)] s t { s.chip with sap := t.chip.sap }) ∧
  (∀ (s : State) (k : Fin 8) (words : List Word) (count phase : Nat),
    s.chip.Calm →
    ((s.chip.sapOf k).mode = .off ∨ (s.chip.sapOf k).mode = .measure ∨ (s.chip.sapOf k).mode = .changed ∨
          (s.chip.sapOf k).mode = .lost) → ∃ t, exec (.sapFrameReceive k words count phase) s = .next t ∧
    Only [] s t s.chip) ∧
  (∀ (s : State) (k : Fin 8) (lane : List Word),
    s.chip.Calm → ((s.chip.sapOf k).mode = .run) → s.chip.sapAsrc k = false → s.chip.looped k = false →
    s.chip.bit (F.SAP_CTRL_MASTER k) = true ∨ (s.chip.sapOf k).sent ≠ 1 →
    (∀ j : Nat, j < 16 → s.chip.fld (F.FL_CTRL_DST_PORT j) ≠ k.val) →
    ∃ t, exec (.sapFrameTransmit k lane) s = .next t ∧
    t.chip.resp = .slots ((List.range (s.chip.sapSlots k)).map fun i => if s.chip.bit (F.SAP_CTRL_TX_EN k) = true ∧
        s.chip.fbit (F.SAP_TXSLOT_DRIVE k) i = true ∧
        (s.chip.bit F.TLK_STATUS_TOKEN = true ∨ s.chip.tlkState = 0 ∧ s.chip.latched = false) then some
          (s.chip.sapKeep k (Tab.get (fun _ => 0) s.chip.rtr.sink (32 * k + i))) else none) ∧
    t.chip.sapOf k = { s.chip.sapOf k with sent := (s.chip.sapOf k).sent + 1 } ∧
    (∀ j, j ≠ k.val → t.chip.sapOf j = s.chip.sapOf j) ∧ Only [] s t { s.chip with sap := t.chip.sap }) ∧
  (∀ (s : State) (k : Fin 8) (lane : List Word),
    s.chip.Calm → ((s.chip.sapOf k).mode ≠ .run ∧ (s.chip.sapOf k).mode ≠ .stop) →
    ∃ t, exec (.sapFrameTransmit k lane) s = .next t ∧ Only [] s t s.chip) ∧
  (∀ (s : State) (k : Fin 8),
    s.chip.Calm → s.chip.bit (F.SAP_CTRL_MASTER k) = false →
    ((s.chip.sapOf k).mode = .run ∨ (s.chip.sapOf k).mode = .measure ∨ (s.chip.sapOf k).mode = .changed) →
    (∀ g : Nat, g < 4 → s.chip.fld (F.ASRC_GCTRL_PORT g) = k.val → s.chip.bit (F.ASRC_GSTATUS_SETTLED g) = false) →
    s.chip.trkSrc ≠ k.val + 2 → ∃ t, exec (.sapClockLost k) s = .next t ∧
    t.chip.sapOf k = { s.chip.sapOf k with mode := .lost, got := [] } ∧ t.chip.bit (F.SAP_STATUS_LOST k) = true ∧
    (s.chip.fbit ⟨Reg.SAP_STATUS k, 8, 0⟩ 4 = false → s.chip.fbit (F.SAP_MASK_MASK k) 4 = false →
        t.chip.pends (60 + k) = true) ∧ t.chip.bit (F.SAP_STATUS_MUTED k) = true ∧
    t.chip.bit (F.SAP_STATUS_RUNNING k) = false ∧ (∀ j, j ≠ k.val → t.chip.sapOf j = s.chip.sapOf j) ∧
    Only [Reg.SAP_STATUS k, Reg.EVT_PEND ((60 + k.val) / 32)] s t { s.chip with sap := t.chip.sap }) ∧
  (∀ (s : State) (k : Fin 8),
    s.chip.Calm → s.chip.bit (F.SAP_CTRL_MASTER k) = false → ((s.chip.sapOf k).mode = .run) →
    s.chip.trkSrc = k.val + 2 → s.chip.trkState = 2 → ∃ t, exec (.sapClockLost k) s = .next t ∧
    (t.chip.sapOf k).mode = .lost ∧ t.chip.trkState = 3 ∧ t.chip.fld F.TRK_STATUS_LOSS = 1 ∧
    t.chip.bit F.TRK_STATUS_GATED = true) ∧
  (∀ (s : State) (k : Fin 8),
    s.chip.Calm → s.chip.bit (F.SAP_CTRL_MASTER k) = true ∨ (s.chip.sapOf k).mode = .off →
    ∃ t, exec (.sapClockLost k) s = .next t ∧ Only [] s t s.chip) ∧
  (∀ (s : State) (k : Fin 8) (dev : Int),
    s.chip.Calm → s.chip.bit (F.SAP_CTRL_MASTER k) = false → s.chip.bit (F.SAP_CTRL_ASRC k) = false →
    ((s.chip.sapOf k).mode = .lost ∨ (s.chip.sapOf k).mode = .measure ∨ (s.chip.sapOf k).mode = .changed) →
    -1000 ≤ dev ∧ dev ≤ 1000 → ∃ t, exec (.sapRateMeasured k dev) s = .next t ∧
    t.chip.fld (F.SAP_MEAS_DEV k) = (dev % 65536).toNat ∧ (t.chip.sapOf k).mode = .run ∧
    (t.chip.sapOf k).retLen = 64 ∧ t.chip.bit (F.SAP_STATUS_RUNNING k) = true ∧
    t.chip.bit (F.SAP_STATUS_MUTED k) = false ∧ (∀ j, j ≠ k.val → t.chip.sapOf j = s.chip.sapOf j) ∧
    Only [Reg.SAP_MEAS k, Reg.SAP_STATUS k] s t { s.chip with sap := t.chip.sap }) ∧
  (∀ (s : State) (k : Fin 8) (dev : Int),
    s.chip.Calm → s.chip.bit (F.SAP_CTRL_MASTER k) = false → s.chip.bit (F.SAP_CTRL_ASRC k) = false →
    ((s.chip.sapOf k).mode = .lost ∨ (s.chip.sapOf k).mode = .measure ∨ (s.chip.sapOf k).mode = .changed) →
    dev < -1000 ∨ 1000 < dev → ∃ t, exec (.sapRateMeasured k dev) s = .next t ∧ (t.chip.sapOf k).mode = .changed ∧
    t.chip.bit (F.SAP_STATUS_RATE_CHANGE k) = true ∧
    (s.chip.fbit ⟨Reg.SAP_STATUS k, 8, 0⟩ 5 = false → s.chip.fbit (F.SAP_MASK_MASK k) 5 = false →
        t.chip.pends (60 + k) = true) ∧ t.chip.bit (F.SAP_STATUS_RUNNING k) = s.chip.bit (F.SAP_STATUS_RUNNING k) ∧
    (∀ j, j ≠ k.val → t.chip.sapOf j = s.chip.sapOf j) ∧
    Only [Reg.SAP_MEAS k, Reg.SAP_STATUS k, Reg.EVT_PEND ((60 + k.val) / 32)] s t { s.chip with sap := t.chip.sap })

/-- The ASRC pool (R245 to R247), the clock outputs (R248), the router's commands (R254, R255), its detectors (R261,
R269), fast lanes (R262) and meters (R267). -/
def Obligations.rateConversionAndRouting : Prop :=
  (∀ (s : State) (g : Fin 4) (rho : Word),
    s.chip.Calm → s.chip.asrcRuns g = true → s.chip.bit (F.ASRC_GSTATUS_SETTLED g) = false → 2 ^ 25 ≤ rho.toNat ∧
    rho.toNat ≤ 2 ^ 31 → ∃ t, exec (.asrcSettle g rho) s = .next t ∧ t.chip.reg (Reg.ASRC_RATIO g) = rho ∧
    t.chip.bit (F.ASRC_GSTATUS_SETTLED g) = true ∧ t.chip.bit (F.ASRC_GSTATUS_SETTLE g) = true ∧
    (s.chip.bit (F.ASRC_GSTATUS_SETTLE g) = false → t.chip.pends (68 + g) = true) ∧
    (∀ ch, ch < 64 → t.chip.asrcOf ch = if s.chip.bit (F.ASRC_CH_EN ch) = true ∧
        s.chip.fld (F.ASRC_CH_GROUP ch) = g.val then .up 0 else s.chip.asrcOf ch) ∧
    (
        let p := s.chip.fld (F.ASRC_GCTRL_PORT g)
        ((s.chip.sapOf p).mode = .changed → (t.chip.sapOf p).mode = .run) ∧
        ((s.chip.sapOf p).mode ≠ .changed → t.chip.sap = s.chip.sap) ∧
        Only [Reg.ASRC_RATIO g, Reg.ASRC_GSTATUS g, Reg.EVT_PEND 2, Reg.SAP_STATUS p] s t
          { s.chip with asrc := t.chip.asrc, sap := t.chip.sap })) ∧
  (∀ (s : State) (g : Fin 4) (rho : Word),
    s.chip.Calm →
    s.chip.asrcRuns g = false ∨ s.chip.bit (F.ASRC_GSTATUS_SETTLED g) = true ∨ rho.toNat < 2 ^ 25 ∨ 2 ^ 31 <
      rho.toNat → ∃ t, exec (.asrcSettle g rho) s = .next t ∧ Only [] s t s.chip) ∧
  (∀ (s : State) (g : Fin 4) (why : Fin 4),
    s.chip.Calm → s.chip.bit (F.ASRC_GSTATUS_SETTLED g) = true → ∃ t, exec (.asrcUnsettle g why) s = .next t ∧
    t.chip.bit (F.ASRC_GSTATUS_SETTLED g) = false ∧ RaisedBit ⟨Reg.ASRC_GSTATUS g, 6, 0⟩ (2 + why) (68 + g) s t ∧
    (∀ ch, ch < 64 → s.chip.bit (F.ASRC_CH_EN ch) = true → s.chip.fld (F.ASRC_CH_GROUP ch) = g.val →
        t.chip.asrcOf ch = if s.chip.asrcOf ch = .muted then .muted else .down 0) ∧
    Only [Reg.ASRC_GSTATUS g, Reg.EVT_PEND 2] s t { s.chip with asrc := t.chip.asrc }) ∧
  (∀ (s : State) (g : Fin 4) (why : Fin 4),
    s.chip.Calm → s.chip.bit (F.ASRC_GSTATUS_SETTLED g) = false → ∃ t, exec (.asrcUnsettle g why) s = .next t ∧
    Only [] s t s.chip) ∧
  (∀ (s : State) (m : Master) (k : Fin 4) (v : Word),
    s.chip.Calm → s.chip.writes m (Reg.MCLK_CTRL k) = true → ∃ t, exec (.mclkChange m k v) s = .next t ∧
    t.chip.bit (F.MCLK_CTRL_EN k) = bitAt v.toNat 31 ∧ t.chip.bit (F.MCLK_CTRL_SLAVED k) = bitAt v.toNat 30 ∧
    t.chip.fld (F.MCLK_CTRL_SRC k) = bits v.toNat 29 29 ∧ t.chip.fld (F.MCLK_CTRL_DIV k) = bits v.toNat 26 24 ∧
    (bitAt v.toNat 31 = false ∨ bits v.toNat 29 29 ≠ s.chip.fld (F.MCLK_CTRL_SRC k) ∨ bits v.toNat 26 24 ≠
          s.chip.fld (F.MCLK_CTRL_DIV k) → t.chip.bit (F.MCLK_CTRL_RUNNING k) = false) ∧
    (bitAt v.toNat 31 = true → bits v.toNat 29 29 = s.chip.fld (F.MCLK_CTRL_SRC k) →
        bits v.toNat 26 24 = s.chip.fld (F.MCLK_CTRL_DIV k) → bitAt v.toNat 30 = false →
        t.chip.bit (F.MCLK_CTRL_RUNNING k) = s.chip.bit (F.MCLK_CTRL_RUNNING k)) ∧ Only [Reg.MCLK_CTRL k] s t s.chip) ∧
  (∀ (s : State) (m : Master) (k : Fin 4096) (v : Word),
    s.chip.Calm → s.chip.writes m (Reg.RT_EP k) = true → ((s.chip.route k).cur = 0 ∧ (s.chip.route k).tgt = 0) →
    s.chip.tick.stage ≠ 1 ∨ s.chip.rtr.effect = false → ∃ t, exec (.routeEndpointWrite m k v) s = .next t ∧
    t.chip.fld (F.RT_EP_SRC k) = bits v.toNat 26 16 ∧ t.chip.fld (F.RT_EP_SINK k) = bits v.toNat 10 0 ∧
    Only [Reg.RT_EP k] s t s.chip) ∧
  (∀ (s : State) (m : Master) (k : Fin 4096) (v : Word),
    s.chip.Calm → s.chip.writes m (Reg.RT_EP k) = true → ((s.chip.route k).cur ≠ 0 ∨ (s.chip.route k).tgt ≠ 0) →
    ∃ t, exec (.routeEndpointWrite m k v) s = .next t ∧ Raised F.RTR_STATUS_EP_BUSY 72 s t ∧
    t.chip.resp = .busError ∧ Only [Reg.RTR_STATUS, Reg.EVT_PEND 2] s t s.chip) ∧
  (∀ (s : State) (m : Master) (v : Word),
    s.chip.Calm → s.chip.writes m Reg.RTR_COMMIT = true →
    s.chip.bit F.RTR_COMMIT_PENDING = false ∨ bitAt v.toNat 30 = true → ∃ t, exec (.routeCommit m v) s = .next t ∧
    t.chip.bit F.RTR_COMMIT_PENDING = true ∧
    (
        let at_ := s.chip.reg64 Reg.RTR_AT_LO Reg.RTR_AT_HI
        let tick := if bitAt v.toNat 29 = true then at_ else 0
        t.chip.rtr.pend = some ((if bits v.toNat 7 0 = 0 then 256 else bits v.toNat 7 0), bitAt v.toNat 28,
              (if tick = 0 ∧ s.chip.tick.phase = .p0 then s.chip.now + 1 else tick),
              (bitAt v.toNat 29 && decide (at_ ≤ s.chip.now)))) ∧
    Only [Reg.RTR_COMMIT] s t { s.chip with rtr := { s.chip.rtr with pend := t.chip.rtr.pend } }) ∧
  (∀ (s : State) (m : Master) (v : Word),
    s.chip.Calm → s.chip.writes m Reg.RTR_COMMIT = true → s.chip.bit F.RTR_COMMIT_PENDING = true →
    bitAt v.toNat 30 = false → ∃ t, exec (.routeCommit m v) s = .next t ∧ Raised F.RTR_STATUS_REJ 72 s t ∧
    t.chip.rtr = s.chip.rtr ∧ Only [Reg.RTR_COMMIT, Reg.RTR_STATUS, Reg.EVT_PEND 2] s t s.chip) ∧
  (∀ (s : State) (m : Master) (v : Word),
    s.chip.Calm → s.chip.writes m Reg.RTR_COMMIT = true → bitAt v.toNat 31 = false →
    ∃ t, exec (.routeCancel m v) s = .next t ∧ t.chip.bit F.RTR_COMMIT_PENDING = false ∧
    t.chip.rtr = { s.chip.rtr with pend := none } ∧
    Only [Reg.RTR_COMMIT] s t { s.chip with rtr := { s.chip.rtr with pend := none } }) ∧
  (∀ (s : State) (code : Byte),
    s.chip.Calm → max 1 (s.chip.fld (F.PROT_DC_HOLD (code.toNat / 32))) * 16 ≤ (s.chip.protOf code.toNat).cnt →
    ∃ t, exec (.dcTrip code) s = .next t ∧
    RaisedBit ⟨Reg.PROT_TRIP (code.toNat / 32), 31, 0⟩ (code.toNat % 32) 75 s t ∧
    Only [Reg.PROT_TRIP (code.toNat / 32), Reg.EVT_PEND 2] s t s.chip) ∧
  (∀ (s : State) (code : Byte),
    s.chip.Calm → ((s.chip.protOf code.toNat).cnt < max 1 (s.chip.fld (F.PROT_DC_HOLD (code.toNat / 32))) * 16) →
    ∃ t, exec (.dcTrip code) s = .next t ∧ Only [] s t s.chip) ∧
  (∀ (s : State) (j : Fin 16),
    s.chip.Calm → s.chip.bit (F.FL_CTRL_EN j) = true → ∃ t, exec (.fastLaneActivate j) s = .next t ∧
    (s.chip.flOk j = true → t.chip.flActive j = true ∧ t.chip.fld F.FL_STATUS_FAULT = s.chip.fld F.FL_STATUS_FAULT)
      ∧ (s.chip.flOk j = false → t.chip.flActive j = false ∧ RaisedBit F.FL_STATUS_FAULT j 72 s t) ∧
    (∀ i, i < 16 → i ≠ j.val → t.chip.flActive i = s.chip.flActive i) ∧
    Only [Reg.FL_STATUS, Reg.EVT_PEND 2] s t s.chip) ∧
  (∀ (s : State) (j : Fin 16),
    s.chip.Calm → s.chip.bit (F.FL_CTRL_EN j) = false → ∃ t, exec (.fastLaneActivate j) s = .next t ∧
    Only [] s t s.chip) ∧
  (∀ (s : State) (m : Master) (k : Byte) (v : Word),
    s.chip.Calm → s.chip.writes m (Reg.MTR_CFG k.toNat) = true → ∃ t, exec (.meterConfigWrite m k v) s = .next t ∧
    t.chip.reg (Reg.MTR_CFG k.toNat) = v ∧ t.chip.reg (Reg.MTR_PEAK k.toNat) = 0 ∧
    t.chip.reg (Reg.MTR_MS k.toNat) = 0 ∧ t.chip.fbit ⟨Reg.SIL_STATE (k.toNat / 32), 31, 0⟩ (k.toNat % 32) = false ∧
    Tab.get (fun _ => 0) t.chip.rtr.quiet k.toNat = 0 ∧
    Only [Reg.MTR_CFG k.toNat, Reg.MTR_PEAK k.toNat, Reg.MTR_MS k.toNat, Reg.SIL_STATE (k.toNat / 32)] s t
      { s.chip with rtr := { s.chip.rtr with quiet := t.chip.rtr.quiet } }) ∧
  (∀ (s : State) (k : Byte),
    s.chip.Calm → s.chip.bit (F.MTR_CFG_EN k.toNat) = true →
    s.chip.fbit ⟨Reg.SIL_STATE (k.toNat / 32), 31, 0⟩ (k.toNat % 32) = false →
    (max 1 (s.chip.fld (F.MTR_CFG_HOLD k.toNat)) * 64 ≤ Tab.get (fun _ => 0) s.chip.rtr.quiet k.toNat) →
    ∃ t, exec (.silenceEnter k) s = .next t ∧
    t.chip.fbit ⟨Reg.SIL_STATE (k.toNat / 32), 31, 0⟩ (k.toNat % 32) = true ∧
    RaisedBit ⟨Reg.SIL_CHG (k.toNat / 32), 31, 0⟩ (k.toNat % 32) 73 s t ∧
    Only [Reg.SIL_STATE (k.toNat / 32), Reg.SIL_CHG (k.toNat / 32), Reg.EVT_PEND 2] s t s.chip) ∧
  (∀ (s : State) (k : Byte),
    s.chip.Calm →
    s.chip.bit (F.MTR_CFG_EN k.toNat) = false ∨ s.chip.fbit ⟨Reg.SIL_STATE (k.toNat / 32), 31, 0⟩ (k.toNat % 32) =
      true → ∃ t, exec (.silenceEnter k) s = .next t ∧ Only [] s t s.chip)

/-- Reference tracking (spec/12): R272, R274, R277 to R282, R285. -/
def Obligations.referenceTracking : Prop :=
  (∀ (s : State) (m : Master) (v : Word),
    s.chip.Calm → s.chip.writes m Reg.AUD_CFG = true → ∃ t, exec (.seedLoad m v) s = .next t ∧
    t.chip.fld F.AUD_CFG_SEED = bits v.toNat 22 0 ∧ t.chip.bit F.AUD_CFG_DITHER = bitAt v.toNat 31 ∧
    t.chip.clk = { s.chip.clk with lfsr := BitVec.ofNat 23 (max 1 (bits v.toNat 22 0)) } ∧
    Only [Reg.AUD_CFG] s t { s.chip with clk := t.chip.clk }) ∧
  (∀ (s : State) (m : Master) (v : Word),
    s.chip.Calm → s.chip.writes m Reg.TRK_CTRL = true →
    (
        let n := s.chip.setReg Reg.TRK_CTRL v
        n.trkSrc = s.chip.trkSrc ∧ n.trkNum = s.chip.trkNum ∧ n.trkDen = s.chip.trkDen) →
    ∃ t, exec (.trkSourceWrite m v) s = .next t ∧ t.chip.fld F.TRK_CTRL_RET = bits v.toNat 25 24 ∧
    t.chip.fld F.TRK_CTRL_BW = bits v.toNat 27 26 ∧
    t.chip.clk = { s.chip.clk with snapReq := s.chip.clk.snapReq || bitAt v.toNat 23 } ∧
    Only [Reg.TRK_CTRL] s t { s.chip with clk := t.chip.clk }) ∧
  (∀ (s : State) (m : Master) (v : Word),
    s.chip.Calm → s.chip.writes m Reg.TRK_CTRL = true →
    (
        let n := s.chip.setReg Reg.TRK_CTRL v
        n.trkSrc ≠ s.chip.trkSrc ∨ n.trkNum ≠ s.chip.trkNum ∨ n.trkDen ≠ s.chip.trkDen) →
    ((s.chip.setReg Reg.TRK_CTRL v).trkSrc = 0) → s.chip.trkState ≠ 2 ∧ s.chip.trkState ≠ 4 ∧ s.chip.trkState ≠ 5 →
    ∃ t, exec (.trkSourceWrite m v) s = .next t ∧ t.chip.trkState = 0 ∧ t.chip.bit F.TRK_STATUS_GATED = false ∧
    t.chip.cval = s.chip.cval ∧ Only [Reg.TRK_CTRL, Reg.TRK_STATUS] s t { s.chip with clk := t.chip.clk }) ∧
  (∀ (s : State) (m : Master) (v : Word),
    s.chip.Calm → s.chip.writes m Reg.TRK_CTRL = true →
    (
        let n := s.chip.setReg Reg.TRK_CTRL v
        n.trkSrc ≠ s.chip.trkSrc ∨ n.trkNum ≠ s.chip.trkNum ∨ n.trkDen ≠ s.chip.trkDen) →
    ((s.chip.setReg Reg.TRK_CTRL v).trkSrc ≠ 0) → s.chip.trkState = 0 ∨ s.chip.trkState = 1 →
    ∃ t, exec (.trkSourceWrite m v) s = .next t ∧ t.chip.trkState = 1 ∧ t.chip.clk.acquired = false ∧
    t.chip.cval = s.chip.cval ∧ t.chip.bit F.TRK_STATUS_GATED = true ∧ t.chip.bit F.WCLK_CTRL_RUNNING = false ∧
    (∀ k, k < 4 → s.chip.bit (F.MCLK_CTRL_SLAVED k) = true → t.chip.bit (F.MCLK_CTRL_RUNNING k) = false) ∧
    Only [Reg.TRK_CTRL, Reg.TRK_STATUS, Reg.WCLK_CTRL, Reg.MCLK_CTRL 0, Reg.MCLK_CTRL 1, Reg.MCLK_CTRL 2,
          Reg.MCLK_CTRL 3] s t { s.chip with clk := t.chip.clk }) ∧
  (∀ (s : State) (m : Master) (v : Word),
    s.chip.Calm → s.chip.writes m Reg.TRK_CTRL = true →
    (
        let n := s.chip.setReg Reg.TRK_CTRL v
        n.trkSrc ≠ s.chip.trkSrc ∨ n.trkNum ≠ s.chip.trkNum ∨ n.trkDen ≠ s.chip.trkDen) →
    ((s.chip.setReg Reg.TRK_CTRL v).trkSrc ≠ 0) → s.chip.trkState = 2 ∨ s.chip.trkState = 4 ∨ s.chip.trkState = 5 →
    ∃ t, exec (.trkSourceWrite m v) s = .next t ∧ t.chip.trkState = 3 ∧ t.chip.fld F.TRK_STATUS_LOSS = 3 ∧
    Raised F.TRK_STATUS_FREEWHEEL 78 s t ∧ t.chip.cval = Chip.cLimit s.chip.cMean ∧
    t.chip.fld F.TRK_CVAL_C_HOLD = natOf 16 (Chip.cLimit s.chip.cMean) ∧ t.chip.bit F.TRK_STATUS_GATED = true ∧
    t.chip.bit F.WCLK_CTRL_RUNNING = false ∧
    (∀ k, k < 4 → s.chip.bit (F.MCLK_CTRL_SLAVED k) = true → t.chip.bit (F.MCLK_CTRL_RUNNING k) = false) ∧
    Only [Reg.TRK_CTRL, Reg.TRK_STATUS, Reg.TRK_CVAL, Reg.AUD_FRAC, Reg.SYS_FRAC, Reg.WCLK_CTRL, Reg.MCLK_CTRL 0,
          Reg.MCLK_CTRL 1, Reg.MCLK_CTRL 2, Reg.MCLK_CTRL 3, Reg.EVT_PEND 2] s t { s.chip with clk := t.chip.clk }) ∧
  (∀ (s : State) (m : Master) (v : Word),
    s.chip.Calm → s.chip.writes m Reg.TRK_CTRL = true →
    (
        let n := s.chip.setReg Reg.TRK_CTRL v
        n.trkSrc ≠ s.chip.trkSrc ∨ n.trkNum ≠ s.chip.trkNum ∨ n.trkDen ≠ s.chip.trkDen) →
    ((s.chip.setReg Reg.TRK_CTRL v).trkSrc = 0) → s.chip.trkState = 2 ∨ s.chip.trkState = 4 ∨ s.chip.trkState = 5 →
    ∃ t, exec (.trkSourceWrite m v) s = .next t ∧ t.chip.trkState = 0 ∧ t.chip.fld F.TRK_STATUS_LOSS = 3 ∧
    Raised F.TRK_STATUS_FREEWHEEL 78 s t ∧ t.chip.bit F.TRK_STATUS_GATED = false ∧
    t.chip.cval = Chip.cLimit s.chip.cMean ∧
    Only [Reg.TRK_CTRL, Reg.TRK_STATUS, Reg.TRK_CVAL, Reg.AUD_FRAC, Reg.SYS_FRAC, Reg.WCLK_CTRL, Reg.MCLK_CTRL 0,
          Reg.MCLK_CTRL 1, Reg.MCLK_CTRL 2, Reg.MCLK_CTRL 3, Reg.EVT_PEND 2] s t { s.chip with clk := t.chip.clk }) ∧
  (∀ (s : State) (cRef perr : Int),
    s.chip.Calm → s.chip.trkState = 1 → s.chip.clk.acquired = false →
    s.chip.halted = true ∨ s.chip.phaseTracked = false → ∃ t, exec (.trkAcquire cRef perr) s = .next t ∧
    t.chip.trkState = 1 ∧ t.chip.clk.acquired = true ∧ t.chip.cval = Chip.cLimit cRef ∧
    t.chip.fld F.TRK_STATUS_PERR = 0 ∧
    Only [Reg.TRK_STATUS, Reg.TRK_CVAL, Reg.AUD_FRAC, Reg.SYS_FRAC] s t { s.chip with clk := t.chip.clk }) ∧
  (∀ (s : State) (cRef perr : Int),
    s.chip.Calm → s.chip.trkState = 1 → s.chip.clk.acquired = false → s.chip.halted = false →
    s.chip.phaseTracked = true → s.chip.trkSrc ≠ 11 → -32768 ≤ perr ∧ perr < 32768 →
    ∃ t, exec (.trkAcquire cRef perr) s = .next t ∧
    t.chip.trkState = (if s.chip.fld F.TRK_CTRL_RET = 0 then 4 else 5) ∧ t.chip.clk.acquired = true ∧
    t.chip.clk.slewed = false ∧ t.chip.cval = Chip.cLimit cRef ∧ t.chip.perr = perr ∧
    Only [Reg.TRK_STATUS, Reg.TRK_CVAL, Reg.AUD_FRAC, Reg.SYS_FRAC] s t { s.chip with clk := t.chip.clk }) ∧
  (∀ (s : State) (cRef perr : Int),
    s.chip.Calm → s.chip.trkState ≠ 1 ∨ s.chip.clk.acquired = true → ∃ t, exec (.trkAcquire cRef perr) s = .next t ∧
    Only [] s t s.chip) ∧
  (∀ (s : State) (perr : Int),
    s.chip.Calm → s.chip.trkState = 1 ∧ s.chip.clk.acquired = true ∨ (s.chip.trkState = 4 ∨ s.chip.trkState = 5) ∧
    s.chip.clk.slewed = true → ∃ t, exec (.trkLock perr) s = .next t ∧ t.chip.trkState = 2 ∧
    t.chip.bit F.TRK_STATUS_GATED = false ∧ (s.chip.phaseTracked = false → t.chip.perr = 0) ∧
    (s.chip.phaseTracked = true → -256 ≤ t.chip.perr ∧ t.chip.perr ≤ 256) ∧
    (s.chip.clk.back = true → Raised F.TRK_STATUS_PHASE_DONE 79 s t) ∧
    (s.chip.clk.back = false → t.chip.reg (Reg.EVT_PEND 2) = s.chip.reg (Reg.EVT_PEND 2)) ∧
    t.chip.clk.back = false ∧ Only [Reg.TRK_STATUS, Reg.EVT_PEND 2] s t { s.chip with clk := t.chip.clk }) ∧
  (∀ (s : State) (perr : Int),
    s.chip.Calm → s.chip.trkState ≠ 1 ∧ s.chip.trkState ≠ 4 ∧ s.chip.trkState ≠ 5 →
    ∃ t, exec (.trkLock perr) s = .next t ∧ Only [] s t s.chip) ∧
  (∀ (s : State) (why : BitVec 2),
    s.chip.Calm → s.chip.trkState = 2 ∨ s.chip.trkState = 4 ∨ s.chip.trkState = 5 →
    s.chip.trkSrc ≠ 11 ∨ s.chip.bit F.TICK_STATUS_PAUSED = false → ∃ t, exec (.trkReferenceLoss why) s = .next t ∧
    t.chip.trkState = 3 ∧ t.chip.fld F.TRK_STATUS_LOSS = why.toNat ∧ Raised F.TRK_STATUS_FREEWHEEL 78 s t ∧
    t.chip.cval = Chip.cLimit s.chip.cMean ∧ t.chip.fld F.TRK_CVAL_C_HOLD = natOf 16 (Chip.cLimit s.chip.cMean) ∧
    t.chip.bit F.TRK_STATUS_GATED = true ∧ t.chip.bit F.WCLK_CTRL_RUNNING = false ∧
    (∀ k, k < 4 → s.chip.bit (F.MCLK_CTRL_SLAVED k) = true → t.chip.bit (F.MCLK_CTRL_RUNNING k) = false) ∧
    Only [Reg.TRK_STATUS, Reg.TRK_CVAL, Reg.AUD_FRAC, Reg.SYS_FRAC, Reg.WCLK_CTRL, Reg.MCLK_CTRL 0, Reg.MCLK_CTRL 1,
          Reg.MCLK_CTRL 2, Reg.MCLK_CTRL 3, Reg.EVT_PEND 2] s t { s.chip with clk := t.chip.clk }) ∧
  (∀ (s : State) (why : BitVec 2),
    s.chip.Calm →
    ((s.chip.trkState ≠ 2 ∧ s.chip.trkState ≠ 4 ∧ s.chip.trkState ≠ 5) ∨ s.chip.trkSrc = 11 ∧
        s.chip.bit F.TICK_STATUS_PAUSED = true) → ∃ t, exec (.trkReferenceLoss why) s = .next t ∧ Only [] s t s.chip) ∧
  (∀ (s : State) (cRef perr : Int),
    s.chip.Calm → s.chip.trkState = 3 → s.chip.trkSrc ≠ 0 → ∃ t, exec (.trkRefBack cRef perr) s = .next t ∧
    Raised F.TRK_STATUS_REF_BACK 79 s t ∧ t.chip.clk.cRef = Chip.cLimit cRef ∧ t.chip.clk.back = true ∧
    t.chip.cval = s.chip.cval ∧
    t.chip.trkState = (if s.chip.phaseTracked = false ∨ s.chip.trkSrc = 11 then 1 else if s.chip.fld F.TRK_CTRL_RET
          = 0 then 4 else 5) ∧ Only [Reg.TRK_STATUS, Reg.EVT_PEND 2] s t { s.chip with clk := t.chip.clk }) ∧
  (∀ (s : State) (cRef perr : Int),
    s.chip.Calm → s.chip.trkState ≠ 3 → ∃ t, exec (.trkRefBack cRef perr) s = .next t ∧ Only [] s t s.chip) ∧
  (∀ (s : State),
    s.chip.Calm → s.chip.trkState = 4 → s.chip.clk.slewed = false →
    s.chip.clk.fine ≤ 256 * (256 * s.chip.trkNum : Nat) → ∃ t, exec .slewComplete s = .next t ∧
    t.chip.clk.slewed = true ∧ t.chip.cval = Chip.cLimit s.chip.clk.cRef ∧
    Only [Reg.TRK_CVAL, Reg.AUD_FRAC, Reg.SYS_FRAC] s t { s.chip with clk := t.chip.clk }) ∧
  (∀ (s : State), s.chip.Calm → s.chip.trkState ≠ 4 → ∃ t, exec .slewComplete s = .next t ∧ Only [] s t s.chip) ∧
  (∀ (s : State) (m : Master) (v : Word),
    s.chip.Calm → s.chip.writes m Reg.TRK_CTRL = true →
    (
        let n := s.chip.setReg Reg.TRK_CTRL v
        n.trkSrc = s.chip.trkSrc ∧ n.trkNum = s.chip.trkNum ∧ n.trkDen = s.chip.trkDen) →
    ∃ t, exec (.snapCmd m v) s = .next t ∧ t.chip.clk = { s.chip.clk with snapReq := true } ∧
    Only [Reg.TRK_CTRL] s t { s.chip with clk := t.chip.clk })

/-- The PLLs, the safe clock and the reference (R273, R286 to R288), with the actuators (R311), ports (R244) and scan
(R294) that follow. -/
def Obligations.clockFailures : Prop :=
  (∀ (s : State) (m : Master) (v : Word),
    s.chip.Calm → s.chip.writes m Reg.CLK_CFG = true → ∃ t, exec (.sysRestart m v) s = .next t ∧
    t.chip.bit F.CLK_STATUS_SYS_LOCK = false ∧ Raised F.CLK_STATUS_SYS_UNLOCK 76 s t ∧
    t.chip.bit F.CLK_STATUS_SAFE = true ∧ t.chip.bit F.TICK_STATUS_SAFE_ECLK = true ∧
    t.chip.clk = { s.chip.clk with sysTry := false, backDue := false } ∧
    Only ([Reg.CLK_CFG, Reg.CLK_STATUS, Reg.TICK_STATUS, Reg.EVT_PEND 2] ++ ((List.range 32).map Reg.ACT_OUT)) s t
      { s.chip with clk := t.chip.clk, act := t.chip.act } ∧
    (s.chip.bit F.CLK_STATUS_SAFE = true ∨ s.chip.domOn 14 = false → t.chip.act = s.chip.act ∧
        (∀ k, k < 32 → t.chip.reg (Reg.ACT_OUT k) = s.chip.reg (Reg.ACT_OUT k))) ∧
    (s.chip.bit F.CLK_STATUS_SAFE = false → s.chip.domOn 14 = true → ∀ k, k < 32 →
        t.chip.bit (F.ACT_OUT_OFF k) = true ∧ t.chip.fld (F.ACT_OUT_DUTY k) = 0)) ∧
  (∀ (s : State),
    s.chip.Calm → ∃ t, exec .syspllUnlock s = .next t ∧ t.chip.bit F.CLK_STATUS_SYS_LOCK = false ∧
    Raised F.CLK_STATUS_SYS_UNLOCK 76 s t ∧ t.chip.bit F.CLK_STATUS_SAFE = true ∧
    t.chip.bit F.TICK_STATUS_SAFE_ECLK = true ∧ t.chip.clk = { s.chip.clk with sysTry := false, backDue := false } ∧
    Only ([Reg.CLK_STATUS, Reg.TICK_STATUS, Reg.EVT_PEND 2] ++ ((List.range 32).map Reg.ACT_OUT)) s t
      { s.chip with clk := t.chip.clk, act := t.chip.act } ∧
    (s.chip.bit F.CLK_STATUS_SAFE = true ∨ s.chip.domOn 14 = false → t.chip.act = s.chip.act ∧
        (∀ k, k < 32 → t.chip.reg (Reg.ACT_OUT k) = s.chip.reg (Reg.ACT_OUT k))) ∧
    (s.chip.bit F.CLK_STATUS_SAFE = false → s.chip.domOn 14 = true → ∀ k, k < 32 →
        t.chip.bit (F.ACT_OUT_OFF k) = true ∧ t.chip.fld (F.ACT_OUT_DUTY k) = 0)) ∧
  (∀ (s : State),
    s.chip.Calm → s.chip.bit F.CLK_STATUS_SYS_LOCK = false → s.chip.bit F.CLK_STATUS_SAFE = true →
    s.chip.tick.phase = .idle → (∀ p : Nat, p < 10 → s.chip.inTick p = true → s.chip.plen p ≤ s.chip.budget) →
    ∃ t, exec .syspllLock s = .next t ∧ t.chip.bit F.CLK_STATUS_SYS_LOCK = true ∧
    t.chip.bit F.CLK_STATUS_SAFE = false ∧ t.chip.bit F.TICK_STATUS_SAFE_ECLK = false ∧
    Raised F.CLK_STATUS_SYS_RELOCK 76 s t ∧
    Only [Reg.CLK_STATUS, Reg.TICK_STATUS, Reg.EVT_PEND 2] s t
      { s.chip with clk := { s.chip.clk with sysTry := false, backDue := false } }) ∧
  (∀ (s : State),
    s.chip.Calm → s.chip.bit F.CLK_STATUS_SYS_LOCK = false →
    s.chip.bit F.CLK_STATUS_SAFE = false ∨ s.chip.tick.phase ≠ .idle → ∃ t, exec .syspllLock s = .next t ∧
    t.chip.bit F.CLK_STATUS_SYS_LOCK = true ∧
    t.chip.clk.backDue = (s.chip.clk.backDue || s.chip.bit F.CLK_STATUS_SAFE) ∧
    Only [Reg.CLK_STATUS] s t
      { s.chip with clk := { s.chip.clk with sysTry := false, backDue := t.chip.clk.backDue } }) ∧
  (∀ (s : State),
    s.chip.Calm → s.chip.bit F.CLK_STATUS_SYS_LOCK = true →
    (∃ t, exec .syspllLock s = .next t ∧ Only [] s t s.chip) ∧
    (∃ t, exec .syspllTimeout s = .next t ∧ Only [] s t s.chip)) ∧
  (∀ (s : State),
    s.chip.Calm → s.chip.bit F.CLK_STATUS_SYS_LOCK = false → ∃ t, exec .syspllTimeout s = .next t ∧
    t.chip.clk = { s.chip.clk with sysTry := !s.chip.clk.sysTry } ∧
    (s.chip.clk.sysTry = true → Raised F.CLK_STATUS_SYS_FAIL 76 s t) ∧
    (s.chip.clk.sysTry = false → t.chip.reg Reg.CLK_STATUS = s.chip.reg Reg.CLK_STATUS ∧
        t.chip.reg (Reg.EVT_PEND 2) = s.chip.reg (Reg.EVT_PEND 2)) ∧
    Only [Reg.CLK_STATUS, Reg.EVT_PEND 2] s t { s.chip with clk := t.chip.clk }) ∧
  (∀ (s : State),
    s.chip.Calm → s.chip.bit F.TICK_STATUS_RUNNING = false ∨ s.chip.tick.phase ≠ .idle →
    ∃ t, exec .audpllUnlock s = .next t ∧ t.chip.bit F.CLK_STATUS_AUD_LOCK = false ∧
    Raised F.CLK_STATUS_AUD_UNLOCK 77 s t ∧
    Only [Reg.CLK_STATUS, Reg.EVT_PEND 2] s t { s.chip with
        clk :=
              { s.chip.clk with audTry := false, pauseDue := s.chip.clk.pauseDue || s.chip.bit F.TICK_STATUS_RUNNING } }) ∧
  (∀ (s : State),
    s.chip.Calm → s.chip.bit F.TICK_STATUS_RUNNING = true → s.chip.tick.phase = .idle →
    ∃ t, exec .audpllUnlock s = .next t ∧ t.chip.bit F.CLK_STATUS_AUD_LOCK = false ∧
    Raised F.CLK_STATUS_AUD_UNLOCK 77 s t ∧ t.chip.bit F.TICK_STATUS_PAUSED = true ∧
    (s.chip.bit F.TICK_STATUS_PAUSED = false →
        (s.chip.domOn 13 = true → t.chip.bit F.SENSE_STATUS_RUNNING = false) ∧
        (s.chip.domOn 12 = true → ∀ k, k < 8 → s.chip.sapMaster k = true → (t.chip.sapOf k).mode ≠ .run)) ∧
    (s.chip.bit F.TICK_STATUS_PAUSED = true ∨ s.chip.domOn 12 = false ∧ s.chip.domOn 13 = false →
        Only [Reg.CLK_STATUS, Reg.TICK_STATUS, Reg.EVT_PEND 2] s t
          { s.chip with clk := { s.chip.clk with audTry := false } })) ∧
  (∀ (s : State),
    s.chip.Calm → s.chip.bit F.CLK_STATUS_AUD_LOCK = false → ∃ t, exec .audpllLock s = .next t ∧
    t.chip.bit F.CLK_STATUS_AUD_LOCK = true ∧ Raised F.CLK_STATUS_AUD_LOCKED 77 s t ∧
    (s.chip.tick.family = none → t.chip.bit F.TICK_STATUS_PAUSED = false ∧ t.chip.tick = s.chip.tick) ∧
    (s.chip.tick.family ≠ none → t.chip.tick = { s.chip.tick with famReady := true } ∧
        t.chip.reg Reg.TICK_STATUS = s.chip.reg Reg.TICK_STATUS) ∧
    Only [Reg.CLK_STATUS, Reg.TICK_STATUS, Reg.EVT_PEND 2] s t { s.chip with
        tick := t.chip.tick
        clk := { s.chip.clk with
                lfsr := BitVec.ofNat 23 (max 1 (s.chip.fld F.AUD_CFG_SEED))
                audTry := false
                pauseDue := false } }) ∧
  (∀ (s : State),
    s.chip.Calm → s.chip.bit F.CLK_STATUS_AUD_LOCK = true →
    (∃ t, exec .audpllLock s = .next t ∧ Only [] s t s.chip) ∧
    (∃ t, exec .audpllTimeout s = .next t ∧ Only [] s t s.chip)) ∧
  (∀ (s : State),
    s.chip.Calm → s.chip.bit F.CLK_STATUS_AUD_LOCK = false → ∃ t, exec .audpllTimeout s = .next t ∧
    t.chip.clk = { s.chip.clk with audTry := !s.chip.clk.audTry } ∧
    (s.chip.clk.audTry = true → Raised F.CLK_STATUS_AUD_FAIL 77 s t) ∧
    (s.chip.clk.audTry = false → t.chip.reg Reg.CLK_STATUS = s.chip.reg Reg.CLK_STATUS) ∧
    Only [Reg.CLK_STATUS, Reg.EVT_PEND 2] s t { s.chip with clk := t.chip.clk }) ∧
  (∀ (s : State),
    s.chip.Calm → s.chip.bit F.TICK_STATUS_RUNNING = false ∨ s.chip.tick.phase ≠ .idle →
    ∃ t, exec .xtalFail s = .next t ∧ t.chip.bit F.CLK_STATUS_XTAL_OK = false ∧
    Raised F.CLK_STATUS_XTAL_FAIL 76 s t ∧ t.chip.bit F.CLK_STATUS_SAFE = true ∧
    t.chip.bit F.TICK_STATUS_SAFE_ECLK = true ∧
    t.chip.clk = { s.chip.clk with pauseDue := s.chip.clk.pauseDue || s.chip.bit F.TICK_STATUS_RUNNING } ∧
    Only ([Reg.CLK_STATUS, Reg.TICK_STATUS, Reg.EVT_PEND 2] ++ ((List.range 32).map Reg.ACT_OUT)) s t
      { s.chip with clk := t.chip.clk, act := t.chip.act } ∧
    (s.chip.bit F.CLK_STATUS_SAFE = true ∨ s.chip.domOn 14 = false → t.chip.act = s.chip.act ∧
        (∀ k, k < 32 → t.chip.reg (Reg.ACT_OUT k) = s.chip.reg (Reg.ACT_OUT k))) ∧
    (s.chip.bit F.CLK_STATUS_SAFE = false → s.chip.domOn 14 = true → ∀ k, k < 32 →
        t.chip.bit (F.ACT_OUT_OFF k) = true ∧ t.chip.fld (F.ACT_OUT_DUTY k) = 0)) ∧
  (∀ (s : State),
    s.chip.Calm → s.chip.bit F.TICK_STATUS_RUNNING = true → s.chip.tick.phase = .idle →
    ∃ t, exec .xtalFail s = .next t ∧ t.chip.bit F.CLK_STATUS_XTAL_OK = false ∧
    Raised F.CLK_STATUS_XTAL_FAIL 76 s t ∧ t.chip.bit F.CLK_STATUS_SAFE = true ∧
    t.chip.bit F.TICK_STATUS_SAFE_ECLK = true ∧ t.chip.bit F.TICK_STATUS_PAUSED = true ∧
    (s.chip.bit F.TICK_STATUS_PAUSED = true → t.chip.clk = s.chip.clk ∧
        Only ([Reg.CLK_STATUS, Reg.TICK_STATUS, Reg.EVT_PEND 2] ++ ((List.range 32).map Reg.ACT_OUT)) s t
          { s.chip with clk := t.chip.clk, act := t.chip.act } ∧
        (s.chip.bit F.CLK_STATUS_SAFE = true ∨ s.chip.domOn 14 = false → t.chip.act = s.chip.act ∧
            (∀ k, k < 32 → t.chip.reg (Reg.ACT_OUT k) = s.chip.reg (Reg.ACT_OUT k))) ∧
        (s.chip.bit F.CLK_STATUS_SAFE = false → s.chip.domOn 14 = true → ∀ k, k < 32 →
            t.chip.bit (F.ACT_OUT_OFF k) = true ∧ t.chip.fld (F.ACT_OUT_DUTY k) = 0))) ∧
  (∀ (s : State),
    s.chip.Calm → s.chip.bit F.CLK_STATUS_XTAL_OK = false →
    s.chip.bit F.CLK_STATUS_SAFE = false ∨ s.chip.bit F.TICK_STATUS_RUNNING = false ∨ s.chip.tick.phase ≠ .idle ∨
      s.chip.bit F.TICK_STATUS_PAUSED = true → ∃ t, exec .xtalOk s = .next t ∧
    t.chip.bit F.CLK_STATUS_XTAL_OK = true ∧
    (s.chip.bit F.CLK_STATUS_SAFE = true → t.chip.bit F.CLK_STATUS_SYS_LOCK = false ∧
        Raised F.CLK_STATUS_SYS_UNLOCK 76 s t ∧ t.chip.bit F.CLK_STATUS_AUD_LOCK = false ∧
        Raised F.CLK_STATUS_AUD_UNLOCK 77 s t) ∧ t.chip.bit F.CLK_STATUS_SAFE = s.chip.bit F.CLK_STATUS_SAFE ∧
    Only [Reg.CLK_STATUS, Reg.TICK_STATUS, Reg.EVT_PEND 2] s t { s.chip with clk := t.chip.clk }) ∧
  (∀ (s : State),
    s.chip.Calm → s.chip.bit F.CLK_STATUS_XTAL_OK = true → ∃ t, exec .xtalOk s = .next t ∧ Only [] s t s.chip)

/-- The sense front end (spec/13): R292 to R294, R296, R297, R299 to R301, R304, R306. -/
def Obligations.senseFrontEnd : Prop :=
  (∀ (s : State) (m : Master) (v : Word),
    s.chip.Calm → s.chip.writes m Reg.SENSE_CTRL = true →
    bitAt v.toNat 30 = false ∨ s.chip.bit F.SENSE_STATUS_RUNNING = true → s.chip.bit F.SENSE_CTRL_EN = true →
    ∃ t, exec (.senseScanStop m v) s = .next t ∧ t.chip.bit F.SENSE_CTRL_EN = false ∧
    t.chip.fld F.SENSE_CTRL_ORDER = s.chip.fld F.SENSE_CTRL_ORDER ∧
    t.chip.sense = { s.chip.sense with ending := s.chip.bit F.SENSE_STATUS_RUNNING, paused := false } ∧
    Only [Reg.SENSE_CTRL] s t { s.chip with sense := t.chip.sense }) ∧
  (∀ (s : State) (codes : BitVec 256) (a : Nat),
    s.chip.Calm → s.chip.domOn 13 = true → s.chip.bit F.SENSE_STATUS_RUNNING = true →
    s.chip.sense.slot < s.chip.slotsPerTick → a = s.chip.muxAddr s.chip.sense.slot →
    (∀ j : Nat, j < 32 → s.chip.bit (F.ACT_CS_CS_EN j) = false) → ∃ t, exec (.senseConversion codes) s = .next t ∧
    t.chip.sense.slot = s.chip.sense.slot + 1 ∧
    (∀ k, k < 16 → t.chip.fld (F.SENSE_PT_STAT_RAW (16 * k + a)) = codes.toNat / 2 ^ (16 * k) % 65536) ∧
    (∀ p, p < 256 → p % 16 ≠ a ∨ s.chip.ptType p = 0 → t.chip.point p = s.chip.point p) ∧
    Only ([Reg.SENSE_ADC_FAULT, Reg.SENSE_FIFO_CTRL 0, Reg.SENSE_FIFO_CTRL 1, Reg.ACT_TRIP, Reg.EVT_PEND 2] ++
          (List.range 256).map Reg.SENSE_PT_STAT ++ (List.range 8).map Reg.SENSE_PTFAULT ++ (List.range 32).map
          Reg.ACT_OUT ++ (List.range 4).map Reg.ACT_CAUSE) s t { s.chip with sense := t.chip.sense }) ∧
  (∀ (s : State) (codes : BitVec 256) (k p code out : Nat),
    s.chip.Calm → s.chip.domOn 13 = true → s.chip.bit F.SENSE_STATUS_RUNNING = true →
    s.chip.sense.slot < s.chip.slotsPerTick → k < 16 → p = 16 * k + s.chip.muxAddr s.chip.sense.slot →
    code = codes.toNat / 2 ^ (16 * k) % 65536 → 0x40 ≤ code ∧ code ≤ 0xFFBF → s.chip.ptType p = 1 →
    s.chip.ptBad p = false → out = s.chip.linOut p code → ∃ t, exec (.senseConversion codes) s = .next t ∧
    (
        let x := s.chip.point p
        let y := t.chip.point p
        y.out = out ∧ y.conv = x.conv + 1 ∧ y.fresh = true ∧
        y.y = (if x.conv = 0 then (out : Int) else x.y + ((out : Int) - x.y) /
              (2 ^ s.chip.fld (F.SENSE_PT_CFG_F p) : Nat)) ∧ y.pos = y.y * 128 ∧
        y.vel = satI (y.v * (2 ^ s.chip.fld (F.SENSE_PT_CFG_VSH p) : Nat) * 128) 24 ∧
        (x.suppr = false → s.chip.fld (F.SENSE_PT_THR_OFF_THR p) < s.chip.fld (F.SENSE_PT_THR_ON_THR p) →
            (y.down = if x.down = true then decide (s.chip.fld (F.SENSE_PT_THR_OFF_THR p) < out) else decide
                  (s.chip.fld (F.SENSE_PT_THR_ON_THR p) ≤ out)) ∧
            (x.down = false → y.down = true → y.ons = x.ons + 1 ∧ y.strike = y.vel ∧ y.count = (x.count + 1) % 256)))) ∧
  (∀ (s : State) (codes : BitVec 256) (k p code out : Nat),
    s.chip.Calm → s.chip.domOn 13 = true → s.chip.bit F.SENSE_STATUS_RUNNING = true →
    s.chip.sense.slot < s.chip.slotsPerTick → k < 16 → p = 16 * k + s.chip.muxAddr s.chip.sense.slot →
    code = codes.toNat / 2 ^ (16 * k) % 65536 → 0x40 ≤ code ∧ code ≤ 0xFFBF → s.chip.ptType p = 2 →
    s.chip.ptBad p = false → out = s.chip.linOut p code → ∃ t, exec (.senseConversion codes) s = .next t ∧
    (t.chip.point p).out = out ∧ (t.chip.point p).pos = out * 128 ∧
    (t.chip.point p).conv = (s.chip.point p).conv + 1 ∧
    (∀ j, j < 32 → s.chip.domOn 14 = true → s.chip.bit (F.ACT_CS_CS_EN j) = true →
        s.chip.fld (F.ACT_CS_CS_POINT j) = p →
        (t.chip.actCh j).cs = (if s.chip.fld (F.ACT_CS_ILIM j) ≤ out then (s.chip.actCh j).cs + 1 else 0) ∧
        (s.chip.fld (F.ACT_CS_ILIM j) ≤ out → 3 ≤ (s.chip.actCh j).cs → t.chip.fbit F.ACT_TRIP_TRIP j = true))) ∧
  (∀ (s : State) (codes : BitVec 256),
    s.chip.Calm →
    s.chip.domOn 13 = false ∨ s.chip.bit F.SENSE_STATUS_RUNNING = false ∨ s.chip.slotsPerTick ≤ s.chip.sense.slot →
    ∃ t, exec (.senseConversion codes) s = .next t ∧ Only [] s t s.chip) ∧
  (∀ (s : State) (k : Fin 16),
    s.chip.Calm → s.chip.domOn 13 = true → s.chip.fbit F.SENSE_ADC_FAULT_NOW k = false →
    ∃ t, exec (.adcMonitorFault k true) s = .next t ∧ t.chip.fbit F.SENSE_ADC_FAULT_NOW k = true ∧
    RaisedBit F.SENSE_ADC_FAULT_FAULT k 83 s t ∧
    (∀ a, a < 16 → t.chip.ptBad (16 * k + a) = true ∧
        (s.chip.ptBad (16 * k + a) = false →
            t.chip.fbit (F.SENSE_PTFAULT_FAULT ((16 * k + a) / 32)) ((16 * k + a) % 32) = true)) ∧
    (∀ p, p < 256 → p / 16 ≠ k.val → t.chip.point p = s.chip.point p) ∧
    Only ([Reg.SENSE_ADC_FAULT, Reg.SENSE_FIFO_CTRL 0, Reg.SENSE_FIFO_CTRL 1, Reg.ACT_TRIP, Reg.EVT_PEND 2] ++
          (List.range 256).map Reg.SENSE_PT_STAT ++ (List.range 8).map Reg.SENSE_PTFAULT ++ (List.range 32).map
          Reg.ACT_OUT ++ (List.range 4).map Reg.ACT_CAUSE) s t { s.chip with sense := t.chip.sense }) ∧
  (∀ (s : State) (k : Fin 16),
    s.chip.Calm → s.chip.domOn 13 = true → s.chip.fbit F.SENSE_ADC_FAULT_NOW k = true →
    ∃ t, exec (.adcMonitorFault k false) s = .next t ∧ t.chip.fbit F.SENSE_ADC_FAULT_NOW k = false ∧
    t.chip.fld F.SENSE_ADC_FAULT_FAULT = s.chip.fld F.SENSE_ADC_FAULT_FAULT ∧
    (∀ a, a < 16 → (t.chip.point (16 * k + a)).conv = 0 ∧ (t.chip.point (16 * k + a)).suppr = true) ∧
    (∀ p, p < 256 → p / 16 ≠ k.val → t.chip.point p = s.chip.point p) ∧
    Only ([Reg.SENSE_ADC_FAULT, Reg.SENSE_FIFO_CTRL 0, Reg.SENSE_FIFO_CTRL 1, Reg.ACT_TRIP, Reg.EVT_PEND 2] ++
          (List.range 256).map Reg.SENSE_PT_STAT ++ (List.range 8).map Reg.SENSE_PTFAULT ++ (List.range 32).map
          Reg.ACT_OUT ++ (List.range 4).map Reg.ACT_CAUSE) s t { s.chip with sense := t.chip.sense }) ∧
  (∀ (s : State) (k : Fin 16) (bad : Bool),
    s.chip.Calm → s.chip.domOn 13 = false ∨ s.chip.fbit F.SENSE_ADC_FAULT_NOW k = bad →
    ∃ t, exec (.adcMonitorFault k bad) s = .next t ∧ Only [] s t s.chip) ∧
  (∀ (s : State) (m : Master) (v : Word),
    s.chip.Calm → s.chip.writes m Reg.SENSE_CTRL = true →
    s.chip.bit F.SENSE_CTRL_EN = false ∨ bitAt v.toNat 31 = true → ∃ t, exec (.senseCal m v) s = .next t ∧
    t.chip.bit F.SENSE_STATUS_CAL_BUSY = (s.chip.bit F.SENSE_STATUS_CAL_BUSY || !s.chip.bit F.SENSE_STATUS_RUNNING)
      ∧ t.chip.bit F.SENSE_CTRL_EN = bitAt v.toNat 31 ∧
    (s.chip.bit F.SENSE_CTRL_EN = false → t.chip.fld F.SENSE_CTRL_ORDER = bits v.toNat 29 29 ∧
        t.chip.fld F.SENSE_CTRL_AUX_EN = bits v.toNat 3 0) ∧ Only [Reg.SENSE_CTRL, Reg.SENSE_STATUS] s t s.chip) ∧
  (∀ (s : State) (fail : BitVec 16),
    s.chip.Calm → s.chip.bit F.SENSE_STATUS_CAL_BUSY = true → ∃ t, exec (.senseCalDone fail) s = .next t ∧
    t.chip.bit F.SENSE_STATUS_CAL_BUSY = false ∧ Raised F.SENSE_STATUS_CAL_DONE 85 s t ∧
    (fail ≠ 0 → Raised F.SENSE_STATUS_CAL_FAIL 85 s t) ∧
    (fail = 0 → t.chip.bit F.SENSE_STATUS_CAL_FAIL = s.chip.bit F.SENSE_STATUS_CAL_FAIL) ∧
    (∀ k, k < 16 →
        t.chip.fbit F.SENSE_ADC_FAULT_FAULT k = (s.chip.fbit F.SENSE_ADC_FAULT_FAULT k || bitAt fail.toNat k)) ∧
    Only [Reg.SENSE_STATUS, Reg.SENSE_ADC_FAULT, Reg.EVT_PEND 2] s t s.chip) ∧
  (∀ (s : State) (fail : BitVec 16),
    s.chip.Calm → s.chip.bit F.SENSE_STATUS_CAL_BUSY = false → ∃ t, exec (.senseCalDone fail) s = .next t ∧
    Only [] s t s.chip) ∧
  (∀ (s : State) (m : Master) (k : Fin 2) (e : Word × Word) (l : List (Word × Word)),
    s.chip.Calm → s.chip.reads m (Reg.SENSE_FIFO_B k) = true → m ≠ .debug → s.chip.fifoOf k = e :: l →
    l.length < 512 → ∃ t, exec (.senseFifoPop m k) s = .next t ∧ t.chip.resp = .data e.2 ∧ t.chip.fifoOf k = l ∧
    t.chip.fifoOf (1 - k.val) = s.chip.fifoOf (1 - k.val) ∧ t.chip.fld (F.SENSE_FIFO_CTRL_LEVEL k) = l.length ∧
    Only [Reg.SENSE_FIFO_CTRL k] s t { s.chip with sense := t.chip.sense }) ∧
  (∀ (s : State) (m : Master) (k : Fin 2),
    s.chip.Calm → s.chip.reads m (Reg.SENSE_FIFO_B k) = true → m = .debug ∨ s.chip.fifoOf k = [] →
    ∃ t, exec (.senseFifoPop m k) s = .next t ∧ t.chip.resp = .data (((s.chip.fifoOf k).head?.map (·.2)).getD 0) ∧
    Only [] s t s.chip) ∧
  (∀ (s : State) (level : Bool),
    s.chip.Calm → s.chip.bit F.AUX_CMP_EN = true → s.chip.bit F.AUX_CMP_LEVEL ≠ level →
    ∃ t, exec (.auxCmpChange level) s = .next t ∧ t.chip.bit F.AUX_CMP_LEVEL = level ∧ Raised F.AUX_CMP_CHG 86 s t ∧
    (level = true → s.chip.bit F.PMU_WAKE_EN_AUX = true → t.chip.fbit F.PMU_WAKE_SRC_SRC 3 = true) ∧
    (level = false ∨ s.chip.bit F.PMU_WAKE_EN_AUX = false → Only [Reg.AUX_CMP, Reg.EVT_PEND 2] s t s.chip)) ∧
  (∀ (s : State) (level : Bool),
    s.chip.Calm → s.chip.bit F.AUX_CMP_EN = false → ∃ t, exec (.auxCmpChange level) s = .next t ∧ Only [] s t s.chip)

/-- The actuators (spec/13): R308, R309, R311 to R317. Energy beyond 32 bits reads a free value (log entry 6). -/
def Obligations.actuatorChannels : Prop :=
  (∀ (s : State) (m : Master) (k : Fin 32) (v : Word),
    s.chip.Calm → s.chip.writes m (Reg.ACT_CTRL k) = true → s.chip.bit (F.ACT_CTRL_EN k) = false →
    ∃ t, exec (.actEnable m k v) s = .next t ∧ t.chip.bit (F.ACT_CTRL_EN k) = true ∧
    t.chip.fld (F.ACT_CTRL_MODE k) = bits v.toNat 30 29 ∧ t.chip.fld (F.ACT_CTRL_DEAD k) = bits v.toNat 15 8 ∧
    t.chip.fld (F.ACT_CTRL_SRC k) = bits v.toNat 28 28 ∧ t.chip.fld (F.ACT_CTRL_ENG k) = bits v.toNat 27 24 ∧
    t.chip.fld (F.ACT_CTRL_WORD k) = bits v.toNat 23 16 ∧ t.chip.actCh k = { s.chip.actCh k with restart := true } ∧
    (∀ j, j ≠ k.val → t.chip.actCh j = s.chip.actCh j) ∧ Only [Reg.ACT_CTRL k] s t { s.chip with act := t.chip.act }) ∧
  (∀ (s : State) (m : Master) (k : Fin 32) (v : Word),
    s.chip.Calm → s.chip.writes m (Reg.ACT_CTRL k) = true → ∃ t, exec (.actDisable m k v) s = .next t ∧
    t.chip.bit (F.ACT_CTRL_EN k) = false ∧
    (s.chip.bit (F.ACT_CTRL_EN k) = true → t.chip.fld (F.ACT_CTRL_MODE k) = s.chip.fld (F.ACT_CTRL_MODE k) ∧
        t.chip.fld (F.ACT_CTRL_DEAD k) = s.chip.fld (F.ACT_CTRL_DEAD k)) ∧
    t.chip.reg (Reg.ACT_OUT k) = s.chip.reg (Reg.ACT_OUT k) ∧ Only [Reg.ACT_CTRL k] s t s.chip) ∧
  (∀ (s : State) (k : Fin 32) (acc : Nat),
    s.chip.Calm → s.chip.domOn 14 = true → s.chip.bit F.CLK_STATUS_SAFE = false →
    acc = (s.chip.actCh k).acc + s.chip.fld (F.ACT_OUT_DUTY k) * s.chip.fld (F.ACT_OUT_DUTY k) / 65536 - s.chip.fld
      (F.ACT_LIM_LEAK k) → acc ≤ s.chip.fld (F.ACT_EMAX_EMAX k) * 256 → ∃ t, exec (.actPeriod k) s = .next t ∧
    t.chip.actCh k = { s.chip.actCh k with acc := acc } ∧ t.chip.fld (F.ACT_ACC_ACC k) = acc ∧
    t.chip.fld F.ACT_TRIP_TRIP = s.chip.fld F.ACT_TRIP_TRIP ∧
    (s.chip.bit (F.ACT_CTRL_EN k) = true → (s.chip.actCh k).restart = false →
        s.chip.fbit F.ACT_TRIP_TRIP k = false → t.chip.bit (F.ACT_OUT_OFF k) = false ∧
        t.chip.fld (F.ACT_OUT_DUTY k) = (s.chip.actDuty k (s.chip.actCh k).val).1 ∧
        t.chip.fld (F.ACT_OUT_DUTY k) ≤ s.chip.fld (F.ACT_LIM_DUTY_MAX k)) ∧
    (s.chip.bit (F.ACT_CTRL_EN k) = false ∨ (s.chip.actCh k).restart = true ∨ s.chip.fbit F.ACT_TRIP_TRIP k = true →
        t.chip.bit (F.ACT_OUT_OFF k) = true ∧ t.chip.fld (F.ACT_OUT_DUTY k) = 0) ∧
    (∀ j, j ≠ k.val → t.chip.actCh j = s.chip.actCh j) ∧
    Only [Reg.ACT_ACC k, Reg.ACT_OUT k] s t { s.chip with act := t.chip.act }) ∧
  (∀ (s : State) (k : Fin 32) (acc : Nat),
    s.chip.Calm → s.chip.domOn 14 = true → s.chip.bit F.CLK_STATUS_SAFE = false →
    acc = (s.chip.actCh k).acc + s.chip.fld (F.ACT_OUT_DUTY k) * s.chip.fld (F.ACT_OUT_DUTY k) / 65536 - s.chip.fld
      (F.ACT_LIM_LEAK k) → s.chip.fld (F.ACT_EMAX_EMAX k) * 256 < acc → ∃ t, exec (.actPeriod k) s = .next t ∧
    t.chip.actCh k = { s.chip.actCh k with acc := acc } ∧ t.chip.fbit F.ACT_TRIP_TRIP k = true ∧
    (s.chip.fbit F.ACT_TRIP_TRIP k = false → t.chip.fld (Chip.causeOf k) = 1 ∧ t.chip.pends 88 = true) ∧
    (s.chip.fbit F.ACT_TRIP_TRIP k = true → t.chip.fld (Chip.causeOf k) = s.chip.fld (Chip.causeOf k)) ∧
    t.chip.bit (F.ACT_OUT_OFF k) = true ∧ t.chip.fld (F.ACT_OUT_DUTY k) = 0 ∧
    (∀ j, j ≠ k.val → t.chip.actCh j = s.chip.actCh j) ∧
    Only ([Reg.ACT_ACC k] ++ [Reg.ACT_TRIP, Reg.ACT_CAUSE (k / 8), Reg.ACT_OUT k, Reg.EVT_PEND 2]) s t
      { s.chip with act := t.chip.act, drawn := t.chip.drawn }) ∧
  (∀ (s : State) (k : Fin 32),
    s.chip.Calm → s.chip.domOn 14 = false ∨ s.chip.bit F.CLK_STATUS_SAFE = true →
    ∃ t, exec (.actPeriod k) s = .next t ∧ Only [] s t s.chip) ∧
  (∀ (s : State) (g : Fin 4),
    s.chip.Calm → s.chip.domOn 14 = true → ∃ t, exec (.actDriverFault g true) s = .next t ∧
    t.chip.fbit F.ACT_STATUS_FLT_NOW g = true ∧
    (∀ k, k < 32 → t.chip.fbit F.ACT_TRIP_TRIP k = (s.chip.fbit F.ACT_TRIP_TRIP k || k / 8 == g.val) ∧
        (k / 8 = g.val → s.chip.fbit F.ACT_TRIP_TRIP k = false → t.chip.fld (Chip.causeOf k) = 4 ∧
            t.chip.pends 89 = true ∧ t.chip.bit (F.ACT_OUT_OFF k) = true ∧ t.chip.fld (F.ACT_OUT_DUTY k) = 0) ∧
        (k / 8 ≠ g.val → t.chip.reg (Reg.ACT_OUT k) = s.chip.reg (Reg.ACT_OUT k))) ∧
    Only ([Reg.ACT_STATUS, Reg.ACT_TRIP, Reg.ACT_CAUSE g, Reg.EVT_PEND 2] ++ (List.range 32).map Reg.ACT_OUT) s t
      s.chip) ∧
  (∀ (s : State) (g : Fin 4),
    s.chip.Calm → s.chip.domOn 14 = true → ∃ t, exec (.actDriverFault g false) s = .next t ∧
    t.chip.fbit F.ACT_STATUS_FLT_NOW g = false ∧
    (∀ j, j < 4 → j ≠ g.val → t.chip.fbit F.ACT_STATUS_FLT_NOW j = s.chip.fbit F.ACT_STATUS_FLT_NOW j) ∧
    Only [Reg.ACT_STATUS] s t s.chip) ∧
  (∀ (s : State) (m : Master) (v : Word),
    s.chip.Calm → s.chip.writes m Reg.ACT_STATUS = true → ∃ t, exec (.kill m v) s = .next t ∧
    t.chip.fld F.ACT_TRIP_TRIP = 0xFFFFFFFF ∧
    t.chip.bit F.ACT_STATUS_CEIL = (s.chip.bit F.ACT_STATUS_CEIL && !bitAt v.toNat 0) ∧
    (∀ k, k < 32 → s.chip.fbit F.ACT_TRIP_TRIP k = false → t.chip.fld (Chip.causeOf k) = 5 ∧
        t.chip.pends 88 = true ∧ t.chip.bit (F.ACT_OUT_OFF k) = true ∧ t.chip.fld (F.ACT_OUT_DUTY k) = 0) ∧
    (∀ k, k < 32 → s.chip.fbit F.ACT_TRIP_TRIP k = true → t.chip.fld (Chip.causeOf k) = s.chip.fld (Chip.causeOf k))
      ∧
    Only ([Reg.ACT_STATUS, Reg.ACT_TRIP, Reg.EVT_PEND 2] ++ (List.range 4).map Reg.ACT_CAUSE ++ (List.range 32).map
          Reg.ACT_OUT) s t s.chip) ∧
  (∀ (s : State) (m : Master) (v : Word),
    s.chip.Calm → s.chip.writes m Reg.ACT_TRIP = true → ∃ t, exec (.actTripClear m v) s = .next t ∧
    (∀ k, k < 32 →
        t.chip.fbit F.ACT_TRIP_TRIP k = (s.chip.fbit F.ACT_TRIP_TRIP k && !(bitAt v.toNat k && s.chip.tripClears k))
          ∧
        (s.chip.fbit F.ACT_TRIP_TRIP k = true → bitAt v.toNat k = true →
            (s.chip.tripClears k = true → t.chip.actCh k = { s.chip.actCh k with restart := true, cs := 0 }) ∧
            (s.chip.tripClears k = false → t.chip.actCh k = s.chip.actCh k ∧
                t.chip.pends (Chip.tripEvent (s.chip.fld (Chip.causeOf k))) = true)) ∧
        (s.chip.fbit F.ACT_TRIP_TRIP k = false ∨ bitAt v.toNat k = false → t.chip.actCh k = s.chip.actCh k)) ∧
    Only [Reg.ACT_TRIP, Reg.EVT_PEND 2] s t { s.chip with act := t.chip.act }) ∧
  (∀ (s : State) (m : Master) (k : Fin 32) (v : Word),
    s.chip.Calm → s.chip.writes m (Reg.ACT_LIM k) = true → ∃ t, exec (.actLimitWrite m k 0 v) s = .next t ∧
    (t.chip.fld (F.ACT_LIM_DUTY_MAX k) = min (bits v.toNat 31 16) (s.chip.fld (F.ACT_FUSE_A_DUTY_CEIL (k / 8)))) ∧
    (t.chip.fld (F.ACT_LIM_LEAK k) = min (bits v.toNat 15 0) (s.chip.fld (F.ACT_FUSE_C_LEAK_CEIL (k / 8)))) ∧
    (s.chip.fld (F.ACT_FUSE_A_DUTY_CEIL (k / 8)) < bits v.toNat 31 16 → Raised F.ACT_STATUS_CEIL 91 s t) ∧
    Only [Reg.ACT_LIM k, Reg.ACT_STATUS, Reg.EVT_PEND 2] s t s.chip) ∧
  (∀ (s : State) (m : Master) (k : Fin 32) (v : Word),
    s.chip.Calm → s.chip.writes m (Reg.ACT_EMAX k) = true → ∃ t, exec (.actLimitWrite m k 1 v) s = .next t ∧
    (t.chip.fld (F.ACT_EMAX_EMAX k) = min (bits v.toNat 23 0) (s.chip.fld (F.ACT_FUSE_B_EMAX_CEIL (k / 8)))) ∧
    (s.chip.fld (F.ACT_FUSE_B_EMAX_CEIL (k / 8)) < bits v.toNat 23 0 → Raised F.ACT_STATUS_CEIL 91 s t) ∧
    Only [Reg.ACT_EMAX k, Reg.ACT_STATUS, Reg.EVT_PEND 2] s t s.chip) ∧
  (∀ (s : State) (m : Master) (k : Fin 32) (v : Word),
    s.chip.Calm → s.chip.writes m (Reg.ACT_CS k) = true → bitAt v.toNat 31 = false →
    (∀ j : Nat, j < 32 → s.chip.csBad j = false) → ∃ t, exec (.actLimitWrite m k 2 v) s = .next t ∧
    (t.chip.fld (F.ACT_CS_ILIM k) = min (bits v.toNat 15 0) (s.chip.fld (F.ACT_FUSE_A_ILIM_CEIL (k / 8)))) ∧
    t.chip.fld (F.ACT_CS_CS_POINT k) = bits v.toNat 23 16 ∧ t.chip.bit (F.ACT_CS_CS_EN k) = false ∧
    Only [Reg.ACT_CS k, Reg.ACT_STATUS, Reg.EVT_PEND 2] s t s.chip) ∧
  (∀ (s : State) (m : Master) (k : Fin 32) (v : Word),
    s.chip.Calm → s.chip.writes m (Reg.ACT_CS k) = true → bitAt v.toNat 31 = true →
    s.chip.bit F.SENSE_STATUS_RUNNING = false → s.chip.domOn 14 = true →
    ∃ t, exec (.actLimitWrite m k 2 v) s = .next t ∧ t.chip.bit (F.ACT_CS_CS_EN k) = true ∧
    t.chip.fbit F.ACT_TRIP_TRIP k = true ∧
    (s.chip.fbit F.ACT_TRIP_TRIP k = false → t.chip.fld (Chip.causeOf k) = 3 ∧ t.chip.pends 90 = true))

/-- Mailboxes (spec/14): R328 to R334. -/
def Obligations.mailboxes : Prop :=
  (∀ (s : State) (m : Master) (mb : Fin 24) (k : Fin 16) (v : Word),
    s.chip.Calm → s.chip.writes m (Reg.MB_DATA mb k) = true → ∃ t, exec (.mbDataWrite m mb k v) s = .next t ∧
    t.chip.reg (Reg.MB_DATA mb k) =
      (if s.chip.listed mb m.id = true ∧ s.chip.mbState mb ≠ 1 then v else s.chip.reg (Reg.MB_DATA mb k)) ∧
    Only [Reg.MB_DATA mb k] s t s.chip) ∧
  (∀ (s : State) (m : Master) (mb : Fin 24),
    s.chip.Calm → s.chip.writes m (Reg.MB_CTRL mb) = true → s.chip.listed mb m.id = true → s.chip.mbState mb = 0 →
    s.chip.domOn (s.chip.recvDom mb) = true → ∃ t, exec (.go m mb) s = .next t ∧ t.chip.mbState mb = 1 ∧
    t.chip.bit (F.MB_STATUS_TIMEOUT mb) = false ∧ t.chip.fld (F.MB_STAMP_SENDER mb) = m.id ∧
    t.chip.fld (F.MB_STAMP_S_EPOCH mb) = s.chip.fld (F.EPOCH_EPOCH m.id) ∧
    t.chip.fld (F.MB_STAMP_R_EPOCH mb) = s.chip.recvEpoch mb ∧
    t.chip.reg (Reg.MB_POST_TICK mb) = BitVec.ofNat 32 s.chip.now ∧
    t.chip.reg (Reg.MB_GORES mb + m.id * 2 ^ 32) = 1 ∧ t.chip.pends mb = true ∧
    Only [Reg.MB_STATUS mb, Reg.MB_STAMP mb, Reg.MB_POST_TICK mb, Reg.MB_GORES mb + m.id * 2 ^ 32, Reg.EVT_PEND 0] s
      t s.chip) ∧
  (∀ (s : State) (m : Master) (mb : Fin 24),
    s.chip.Calm → s.chip.writes m (Reg.MB_CTRL mb) = true → s.chip.listed mb m.id = false ∨ s.chip.mbState mb ≠ 0 →
    ∃ t, exec (.go m mb) s = .next t ∧
    t.chip.reg (Reg.MB_GORES mb + m.id * 2 ^ 32) = (if s.chip.listed mb m.id = true then 3 else 2) ∧
    Raised (F.MB_STATUS_REJECT mb) mb s t ∧ t.chip.mbState mb = s.chip.mbState mb ∧
    Only [Reg.MB_STATUS mb, Reg.MB_GORES mb + m.id * 2 ^ 32, Reg.EVT_PEND 0] s t s.chip) ∧
  (∀ (s : State) (m : Master) (mb : Fin 24),
    s.chip.Calm → s.chip.writes m (Reg.MB_CTRL mb) = true → s.chip.listed mb m.id = true → s.chip.mbState mb = 0 →
    s.chip.domOn (s.chip.recvDom mb) = false → ∃ t, exec (.go m mb) s = .next t ∧ t.chip.mbState mb = 1 ∧
    t.chip.bit (F.MB_STATUS_WAKE mb) = true ∧ t.chip.fbit F.PMU_WAKE_SRC_SRC 5 = true ∧ t.chip.mbWake = 0) ∧
  (∀ (s : State) (m : Master) (mb : Fin 24) (rc : BitVec 16),
    s.chip.Calm → s.chip.writes m (Reg.MB_ACK mb) = true → ∃ t, exec (.ack m mb rc) s = .next t ∧
    (s.chip.receives mb m.id = true ∧ s.chip.mbState mb = 1 → t.chip.mbState mb = 2 ∧
        t.chip.fld (F.MB_ACK_RC mb) = rc.toNat ∧ t.chip.pends mb = true ∧
        Only [Reg.MB_STATUS mb, Reg.MB_ACK mb, Reg.EVT_PEND 0] s t s.chip) ∧
    (s.chip.receives mb m.id = false ∨ s.chip.mbState mb ≠ 1 → Only [] s t s.chip)) ∧
  (∀ (s : State) (m : Master) (mb : Fin 24),
    s.chip.Calm → s.chip.writes m (Reg.MB_CTRL mb) = true →
    (∃ t, exec (.withdraw m mb) s = .next t ∧
        t.chip.mbState mb =
          (if s.chip.fld (F.MB_STAMP_SENDER mb) = m.id ∧ s.chip.mbState mb = 1 then 0 else s.chip.mbState mb) ∧
        Only [Reg.MB_STATUS mb] s t s.chip) ∧
    (∃ t, exec (.clear m mb) s = .next t ∧
        t.chip.mbState mb = (if s.chip.listed mb m.id = true ∧ s.chip.mbState mb = 2 then 0 else s.chip.mbState mb)
          ∧ Only [Reg.MB_STATUS mb] s t s.chip)) ∧
  (∀ (s : State) (m : Master) (mb : Fin 24),
    s.chip.Calm → s.chip.writes m (Reg.MB_CTRL mb) = true → m = .spi ∨ m = .i2c ∨ m = .usb →
    ∃ t, exec (.epochInc m mb) s = .next t ∧
    t.chip.fld (F.EPOCH_EPOCH m.id) = (s.chip.fld (F.EPOCH_EPOCH m.id) + 1) % 256 ∧
    (∀ k, k < 64 → t.chip.bit (F.SEM_FREE k) = (s.chip.bit (F.SEM_FREE k) || s.chip.fld (F.SEM_OWNER k) == m.id)) ∧
    Only ([Reg.EPOCH m.id] ++ (List.range 64).map Reg.SEM) s t s.chip) ∧
  (∀ (s : State) (m : Master) (mb : Fin 24),
    s.chip.Calm → s.chip.writes m (Reg.MB_CTRL mb) = true → m = .cp ∨ m = .secp ∨ m = .debug →
    ∃ t, exec (.epochInc m mb) s = .next t ∧ Only [] s t s.chip) ∧
  (∀ (s : State) (mb : Fin 24),
    s.chip.Calm → ∃ t, exec (.mbTimeout mb) s = .next t ∧
    (s.chip.mbState mb = 1 ∧ s.chip.fld (F.MB_TIMEOUT_UNITS mb) ≠ 0 ∧ s.chip.bit (F.MB_STATUS_WAKE mb) = false →
        Raised (F.MB_STATUS_TIMEOUT mb) mb s t ∧ t.chip.mbState mb = 1 ∧
        Only [Reg.MB_STATUS mb, Reg.EVT_PEND 0] s t s.chip) ∧
    (s.chip.mbState mb ≠ 1 ∨ s.chip.fld (F.MB_TIMEOUT_UNITS mb) = 0 ∨ s.chip.bit (F.MB_STATUS_WAKE mb) = true →
        Only [] s t s.chip))

/-- R326 (the pin; when it moves is the command's), R323 and R328 (CP_CTRL), R337 (bells), R338 and R339 (semaphores). -/
def Obligations.bellsSemaphoresAndPin : Prop :=
  (∀ (s : State),
    s.chip.Calm → ∃ t, exec .hostIrqUpdate s = .next t ∧
    t.chip.irq = (s.chip.bit F.EVT_HOST_CTRL_EN && s.chip.hostPend) ∧ Only [] s t { s.chip with irq := t.chip.irq }) ∧
  (∀ (s : State) (m : Master) (v : Word),
    s.chip.Calm → s.chip.writes m Reg.CP_CTRL = true → m = .secp → ∃ t, exec (.cpReset m v) s = .next t ∧
    t.chip.core 10 = { pc := (s.chip.auxOf 10).entry } ∧
    (t.chip.auxOf 10).run = (if (s.chip.auxOf 10).run = .stopped then .stopped else .running) ∧
    t.chip.flagsOf 10 = 0 ∧ t.chip.runlvl 10 = bits (Reg.resetOf Reg.CORE_ESTAT).toNat 30 27 ∧
    t.chip.fld (F.EPOCH_EPOCH 1) = (s.chip.fld (F.EPOCH_EPOCH 1) + 1) % 256 ∧ t.chip.fld F.CP_CTRL_LAST = 1 ∧
    (∀ j, j < 12 → j ≠ 10 → t.chip.core j = s.chip.core j ∧ t.chip.auxOf j = s.chip.auxOf j) ∧
    (∀ a, 0x40000300 ≤ a → a < 0x40051100 → t.chip.reg a = s.chip.reg a) ∧
    { t.chip with regs := s.chip.regs, cores := s.chip.cores, aux := s.chip.aux, resp := s.chip.resp } = s.chip ∧
    t.otp = s.otp ∧ t.pending = s.pending) ∧
  (∀ (s : State) (m : Master) (v : Word),
    s.chip.Calm → s.chip.writes m Reg.CP_CTRL = true → m ≠ .secp → ∃ t, exec (.cpReset m v) s = .next t ∧
    Only [] s t s.chip) ∧
  (∀ (s : State) (m : Master) (g : Fin 8) (mask : Byte),
    s.chip.Calm → s.chip.writes m (Reg.BELL_RING g) = true → ∃ t, exec (.bellRing m g mask) s = .next t ∧
    t.chip.fld (F.BELL_BELL g) = s.chip.fld (F.BELL_BELL g) ||| mask.toNat ∧
    (maskOff mask.toNat (s.chip.fld (F.BELL_BELL g)) &&& s.chip.fld (F.BELL_MASK g) ≠ 0 →
        t.chip.pends (24 + g) = true) ∧
    (maskOff mask.toNat (s.chip.fld (F.BELL_BELL g)) &&& s.chip.fld (F.BELL_MASK g) = 0 →
        t.chip.reg (Reg.EVT_PEND 0) = s.chip.reg (Reg.EVT_PEND 0)) ∧ Only [Reg.BELL g, Reg.EVT_PEND 0] s t s.chip) ∧
  (∀ (s : State) (m : Master) (g : Fin 8) (v : Word),
    s.chip.Calm → s.chip.writes m (Reg.BELL g) = true → m = .cp ∨ m = .secp →
    ∃ t, exec (.bellClear m g v) s = .next t ∧
    t.chip.fld (F.BELL_BELL g) = maskOff (s.chip.fld (F.BELL_BELL g)) (v.toNat % 256) ∧ Only [Reg.BELL g] s t s.chip) ∧
  (∀ (s : State) (m : Master) (g : Fin 8) (v : Word),
    s.chip.Calm → m = .spi ∨ m = .i2c ∨ m = .usb → ∃ t, exec (.bellClear m g v) s = .next t ∧
    t.chip.fld (F.BELL_BELL g) = maskOff (s.chip.fld (F.BELL_BELL g)) (v.toNat % 256) ∧ Only [Reg.BELL g] s t s.chip) ∧
  (∀ (s : State) (m : Master) (k : BitVec 6),
    s.chip.Calm → s.chip.reads m (Reg.SEM k.toNat) = true → s.chip.bit (F.SEM_FREE k.toNat) = true →
    m = .cp ∨ m = .secp → ∃ t, exec (.semAcquire m k) s = .next t ∧
    t.chip.resp = .data (BitVec.ofNat 32 (2 ^ 31 + m.id)) ∧ t.chip.bit (F.SEM_FREE k.toNat) = false ∧
    t.chip.fld (F.SEM_OWNER k.toNat) = m.id ∧ Only [Reg.SEM k.toNat] s t s.chip) ∧
  (∀ (s : State) (m : Master) (k : BitVec 6),
    s.chip.Calm → s.chip.reads m (Reg.SEM k.toNat) = true → s.chip.bit (F.SEM_FREE k.toNat) = false →
    m = .cp ∨ m = .secp → ∃ t, exec (.semAcquire m k) s = .next t ∧
    t.chip.resp = .data (BitVec.ofNat 32 (s.chip.fld (F.SEM_OWNER k.toNat))) ∧
    (s.chip.fld (F.SEM_OWNER k.toNat) = m.id → Only [] s t s.chip) ∧
    (s.chip.fld (F.SEM_OWNER k.toNat) ≠ m.id → Raised F.SEM_STATUS_CONT 119 s t ∧
        t.chip.fld F.SEM_STATUS_CONT_CNT = min (s.chip.fld F.SEM_STATUS_CONT_CNT + 1) F.SEM_STATUS_CONT_CNT.max ∧
        Only [Reg.SEM_STATUS, Reg.EVT_PEND 3] s t s.chip)) ∧
  (∀ (s : State) (k : BitVec 6),
    s.chip.Calm → s.chip.reads .debug (Reg.SEM k.toNat) = true → ∃ t, exec (.semAcquire .debug k) s = .next t ∧
    t.chip.resp = .data (if s.chip.bit (F.SEM_FREE k.toNat) = true then 0x80000000 else BitVec.ofNat 32
          (s.chip.fld (F.SEM_OWNER k.toNat))) ∧ Only [] s t s.chip) ∧
  (∀ (s : State) (m : Master) (k : BitVec 6),
    s.chip.Calm → s.chip.writes m Reg.SEM_REL = true →
    (∃ t, exec (.semRelease m k) s = .next t ∧
        t.chip.bit (F.SEM_FREE k.toNat) =
          (s.chip.bit (F.SEM_FREE k.toNat) || s.chip.fld (F.SEM_OWNER k.toNat) == m.id) ∧
        Only [Reg.SEM k.toNat] s t s.chip) ∧
    (∃ t, exec (.semForceRelease m k) s = .next t ∧
        t.chip.bit (F.SEM_FREE k.toNat) = (s.chip.bit (F.SEM_FREE k.toNat) || m.id == 0) ∧
        Only [Reg.SEM k.toNat] s t s.chip))

/-- The host ports (spec/15): R346 to R348 (SPI), R350, R351 (I2C), with the window of R341 and R343. -/
def Obligations.hostPorts : Prop :=
  (∀ (s : State) (mb : Fin 8) (k : Fin 16) (v : Word) (b : List Byte),
    s.chip.Calm → s.chip.bit F.HPORT_CFG_SPI_EN = true →
    b = [0x60, BitVec.ofNat 8 (32 * mb + k), 0] ++ wordBytes v →
    ∃ t, exec (.spiFrame (b ++ [BitVec.ofNat 8 (crc16 b / 256), BitVec.ofNat 8 (crc16 b)])) s = .next t ∧
    t.chip.reg (Reg.MB_DATA mb k) =
      (if s.chip.listed mb 2 = true ∧ s.chip.mbState mb ≠ 1 then v else s.chip.reg (Reg.MB_DATA mb k)) ∧
    t.chip.resp = .bytes [(BitVec.ofNat 8 (0xC0 + s.chip.irq.toNat * 32 + 0) : Byte)] ∧
    Only [Reg.MB_DATA mb k] s t s.chip) ∧
  (∀ (s : State) (off a : Nat) (b : List Byte) (out : List Byte),
    s.chip.Calm → s.chip.bit F.HPORT_CFG_SPI_EN = true → off < 4096 → off % 4 = 0 →
    s.chip.windowReg 2 off = some a → off < 0x600 ∨ 0x610 < off →
    b = [0xE0, BitVec.ofNat 8 (off / 4), BitVec.ofNat 8 (off / 1024)] →
    out = (BitVec.ofNat 8 (0xC0 + s.chip.irq.toNat * 32 + 0) : Byte) :: wordBytes (s.chip.regValue 2 a) →
    ∃ t, exec (.spiFrame (b ++ [BitVec.ofNat 8 (crc16 b / 256), BitVec.ofNat 8 (crc16 b)])) s = .next t ∧
    t.chip.resp = .bytes (out ++ [BitVec.ofNat 8 (crc16 out / 256), BitVec.ofNat 8 (crc16 out)]) ∧
    Only [] s t s.chip) ∧
  (∀ (s : State) (off : Nat) (v : Word) (b : List Byte),
    s.chip.Calm → s.chip.bit F.HPORT_CFG_SPI_EN = true → off < 4096 → off % 4 = 0 → s.chip.windowReg 2 off = none →
    off < 0x600 ∨ 0x610 ≤ off → b = [0x60, BitVec.ofNat 8 (off / 4), BitVec.ofNat 8 (off / 1024)] ++ wordBytes v →
    ∃ t, exec (.spiFrame (b ++ [BitVec.ofNat 8 (crc16 b / 256), BitVec.ofNat 8 (crc16 b)])) s = .next t ∧
    t.chip.resp = .bytes [(BitVec.ofNat 8 (0xC0 + s.chip.irq.toNat * 32 + 2) : Byte)] ∧
    t.chip.fld F.HPORT_ERR_MASTER = 2 ∧ t.chip.fld F.HPORT_ERR_WRITE = 1 ∧ t.chip.fld F.HPORT_ERR_OFFSET = off ∧
    t.chip.bit F.HPORT_STATUS_REFUSED = true ∧ t.chip.pends 118 = true ∧
    Only [Reg.HPORT_ERR, Reg.HPORT_STATUS, Reg.EVT_PEND 3] s t s.chip) ∧
  (∀ (s : State) (b : List Byte) (c0 c1 : Byte),
    s.chip.Calm → s.chip.bit F.HPORT_CFG_SPI_EN = true → b.length = 3 → bits (b.getD 0 0).toNat 7 4 = 14 →
    ((b.getD 2 0).toNat < 4) → c0.toNat * 256 + c1.toNat ≠ crc16 b →
    ∃ t, exec (.spiFrame (b ++ [c0, c1])) s = .next t ∧
    t.chip.resp = .bytes [(BitVec.ofNat 8 (0xC0 + s.chip.irq.toNat * 32 + 1) : Byte)] ∧
    t.chip.bit F.HPORT_STATUS_SPI_CRC = true ∧ t.chip.pends 116 = true ∧
    t.chip.fld F.HPORT_CNT_SPI_CRC_CNT = min (s.chip.fld F.HPORT_CNT_SPI_CRC_CNT + 1) 65535 ∧
    Only [Reg.HPORT_STATUS, Reg.HPORT_CNT, Reg.EVT_PEND 3] s t s.chip) ∧
  (∀ (s : State) (b : List Byte),
    s.chip.Calm → s.chip.bit F.HPORT_CFG_SPI_EN = true →
    b.length < 5 ∨ bits (b.getD 0 0).toNat 6 4 ≠ 6 ∨ 4 ≤ (b.getD 2 0).toNat → ∃ t, exec (.spiFrame b) s = .next t ∧
    t.chip.resp = .bytes [(BitVec.ofNat 8 (0xC0 + s.chip.irq.toNat * 32 + 3) : Byte)] ∧
    t.chip.bit F.HPORT_STATUS_SPI_FRAME = true ∧ t.chip.pends 116 = true ∧
    Only [Reg.HPORT_STATUS, Reg.EVT_PEND 3] s t s.chip) ∧
  (∀ (s : State) (b : List Byte),
    s.chip.Calm → s.chip.bit F.HPORT_CFG_SPI_EN = false → ∃ t, exec (.spiFrame b) s = .next t ∧ Only [] s t s.chip) ∧
  (∀ (s : State) (addr : BitVec 7) (mb : Fin 8) (k : Fin 16) (v : Word),
    s.chip.Calm → s.chip.bit F.HPORT_CFG_I2C_EN = true → addr.toNat = s.chip.fld F.HPORT_CFG_I2C_ADDR →
    ∃ t, exec (.i2cWrite addr ([BitVec.ofNat 8 (32 * mb + k), 0] ++ wordBytes v)) s = .next t ∧
    t.chip.reg (Reg.MB_DATA mb k) =
      (if s.chip.listed mb 3 = true ∧ s.chip.mbState mb ≠ 1 then v else s.chip.reg (Reg.MB_DATA mb k)) ∧
    t.chip.resp = .bytes [] ∧ t.chip.bit F.HPORT_STATUS_WAKE_REQ = false ∧
    Only [Reg.MB_DATA mb k, Reg.HPORT_STATUS] s t s.chip) ∧
  (∀ (s : State) (addr : BitVec 7) (off : Nat) (v : Word),
    s.chip.Calm → s.chip.bit F.HPORT_CFG_I2C_EN = true → addr.toNat = s.chip.fld F.HPORT_CFG_I2C_ADDR → off < 4096 →
    off % 4 = 0 → s.chip.windowReg 3 off = none → off < 0x600 ∨ 0x610 ≤ off →
    ∃ t, exec (.i2cWrite addr ([BitVec.ofNat 8 (off / 4), BitVec.ofNat 8 (off / 1024)] ++ wordBytes v)) s = .next t
      ∧ t.chip.resp = .nak ∧ t.chip.fld F.HPORT_ERR_MASTER = 3 ∧ t.chip.fld F.HPORT_ERR_WRITE = 1 ∧
    t.chip.fld F.HPORT_ERR_OFFSET = off ∧ t.chip.bit F.HPORT_STATUS_REFUSED = true ∧ t.chip.pends 118 = true ∧
    Only [Reg.HPORT_ERR, Reg.HPORT_STATUS, Reg.EVT_PEND 3] s t s.chip) ∧
  (∀ (s : State) (addr : BitVec 7) (off a : Nat),
    s.chip.Calm → s.chip.bit F.HPORT_CFG_I2C_EN = true → addr.toNat = s.chip.fld F.HPORT_CFG_I2C_ADDR → off < 4096 →
    off % 4 = 0 → s.chip.windowReg 3 off = some a → off < 0x600 ∨ 0x610 < off →
    ∃ t, exec (.i2cRead addr (BitVec.ofNat 8 (off / 4)) (BitVec.ofNat 8 (off / 1024)) 4) s = .next t ∧
    t.chip.resp = .bytes (wordBytes (s.chip.regValue 3 a)) ∧ t.chip.bit F.HPORT_STATUS_WAKE_REQ = false ∧
    Only [Reg.HPORT_STATUS] s t s.chip) ∧
  (∀ (s : State) (addr : BitVec 7) (b : List Byte) (i0 i1 : Byte) (n : Nat),
    s.chip.Calm → s.chip.bit F.HPORT_CFG_I2C_EN = false ∨ addr.toNat ≠ s.chip.fld F.HPORT_CFG_I2C_ADDR →
    (∃ t, exec (.i2cWrite addr b) s = .next t ∧ t.chip.resp = .nak ∧ Only [] s t s.chip) ∧
    (∃ t, exec (.i2cRead addr i0 i1 n) s = .next t ∧ t.chip.resp = .nak ∧ Only [] s t s.chip)) ∧
  (∀ (s : State),
    s.chip.Calm → ∃ t, exec .i2cStuckBus s = .next t ∧
    (s.chip.bit F.HPORT_CFG_I2C_TO_EN = true ∧ s.chip.bit F.HPORT_CFG_I2C_EN = true →
        t.chip.bit F.HPORT_STATUS_I2C_PROTO = true ∧ t.chip.bit F.HPORT_STATUS_WAKE_REQ = false ∧
        t.chip.pends 117 = true ∧
        t.chip.fld F.HPORT_CNT_I2C_ERR_CNT = min (s.chip.fld F.HPORT_CNT_I2C_ERR_CNT + 1) 65535 ∧
        Only [Reg.HPORT_STATUS, Reg.HPORT_CNT, Reg.EVT_PEND 3] s t s.chip) ∧
    (s.chip.bit F.HPORT_CFG_I2C_TO_EN = false ∨ s.chip.bit F.HPORT_CFG_I2C_EN = false → Only [] s t s.chip)) ∧
  (∀ (s : State) (addr : BitVec 7) (at_ : WakeAt),
    s.chip.Calm → ∃ t, exec (.i2cAddressMatch addr at_) s = .next t ∧
    (s.chip.bit F.HPORT_CFG_I2C_EN = true ∧ addr.toNat = s.chip.fld F.HPORT_CFG_I2C_ADDR ∧
        s.chip.bit F.HPORT_CFG_WAKE_EN = true → t.chip.bit F.HPORT_STATUS_WAKE_REQ = true ∧
        t.chip.bit F.HPORT_STATUS_I2C_WAKE = true ∧ t.chip.pends 117 = true ∧
        t.chip.fbit F.PMU_WAKE_SRC_SRC 0 = true ∧
        Only [Reg.HPORT_STATUS, Reg.EVT_PEND 3, Reg.PMU_WAKE_SRC, Reg.PMU_STATUS] s t
          { s.chip with pmu := t.chip.pmu }) ∧
    (s.chip.bit F.HPORT_CFG_I2C_EN = false ∨ addr.toNat ≠ s.chip.fld F.HPORT_CFG_I2C_ADDR ∨ s.chip.bit
          F.HPORT_CFG_WAKE_EN = false → Only [] s t s.chip))

/-- The USB device (R353 to R355, R357). The form of standard requests is presumed from USB 2.0 (see NOTES.md). -/
def Obligations.usbDevice : Prop :=
  (∀ (s : State) (hs : Bool),
    s.chip.Calm → s.chip.usbLive = true → ∃ t, exec (.usbBusReset hs) s = .next t ∧
    t.chip.fld F.USB_STATUS_ADDR = 0 ∧ t.chip.bit F.USB_STATUS_CONFIGURED = false ∧
    t.chip.fld F.USB_STATUS_ALT_OUT = 0 ∧ t.chip.fld F.USB_STATUS_ALT_IN = 0 ∧
    t.chip.fld F.USB_STATUS_MIDI_ALT = 0 ∧ t.chip.bit F.USB_STATUS_SUSPENDED = false ∧
    t.chip.fld F.USB_STATUS_SPEED = (if hs = true ∧ s.chip.bit F.USB_CTRL_HS_EN = true then 2 else 1) ∧
    Raised F.USB_STATUS_BUSRESET 108 s t ∧ t.chip.fld (F.EPOCH_EPOCH 4) = (s.chip.fld (F.EPOCH_EPOCH 4) + 1) % 256 ∧
    t.chip.usb.rwake = false ∧
    Only ([Reg.USB_STATUS, Reg.EVT_PEND 3, Reg.EPOCH 4] ++ (List.range 64).map Reg.SEM) s t
      { s.chip with usb := t.chip.usb }) ∧
  (∀ (s : State),
    s.chip.Calm → s.chip.usbLive = true → ∃ t, exec .usbSuspend s = .next t ∧
    t.chip.bit F.USB_STATUS_SUSPENDED = true ∧ Raised F.USB_STATUS_SUSPEND 108 s t ∧
    Only [Reg.USB_STATUS, Reg.EVT_PEND 3] s t s.chip) ∧
  (∀ (s : State) (at_ : WakeAt),
    s.chip.Calm → s.chip.usbLive = true → ∃ t, exec (.usbResume at_) s = .next t ∧
    t.chip.bit F.USB_STATUS_SUSPENDED = false ∧
    (s.chip.bit F.USB_STATUS_SUSPENDED = true → Raised F.USB_STATUS_RESUME 108 s t ∧ t.chip.usb.waking = false ∧
        Only [Reg.USB_STATUS, Reg.EVT_PEND 3] s t { s.chip with usb := t.chip.usb }) ∧
    (s.chip.bit F.USB_STATUS_SUSPENDED = false → Only [] s t s.chip)) ∧
  (∀ (s : State) (at_ : WakeAt),
    s.chip.Calm → s.chip.domOn 15 = false → ∃ t, exec (.usbResume at_) s = .next t ∧
    (s.chip.bit F.PMU_WAKE_EN_USB = false → Only [] s t s.chip) ∧
    (s.chip.bit F.PMU_WAKE_EN_USB = true → (at_ ≠ .window → t.chip.fbit F.PMU_WAKE_SRC_SRC 4 = true) ∧
        (at_ = .window → s.chip.entering = true → t.chip.bit F.PMU_STATUS_EDGE_LOST = true) ∧
        Only [Reg.PMU_WAKE_SRC, Reg.PMU_STATUS] s t { s.chip with pmu := t.chip.pmu })) ∧
  (∀ (s : State) (a : Nat),
    s.chip.Calm → s.chip.usbLive = true → a < 128 → ∃ t, exec (.usbStandardRequest (.setAddress a)) s = .next t ∧
    t.chip.fld F.USB_STATUS_ADDR = a ∧ Only [Reg.USB_STATUS] s t s.chip) ∧
  (∀ (s : State) (a : Nat),
    s.chip.Calm → s.chip.usbLive = true → ∃ t, exec (.usbStandardRequest (.setConfiguration a)) s = .next t ∧
    (1 < a → t.chip.resp = .stall ∧ Only [] s t s.chip) ∧
    (a ≤ 1 → t.chip.fld F.USB_STATUS_CONFIGURED = a ∧
        (s.chip.fld F.USB_STATUS_CONFIGURED ≠ a → Raised F.USB_STATUS_CONFIG 109 s t) ∧
        Only [Reg.USB_STATUS, Reg.EVT_PEND 3] s t { s.chip with usb := t.chip.usb })) ∧
  (∀ (s : State) (a : Nat),
    s.chip.Calm → s.chip.usbLive = true → ∃ t, exec (.usbStandardRequest (.setAltOut a)) s = .next t ∧
    (3 < a ∨ s.chip.fld F.USB_STATUS_CONFIGURED = 0 ∨ (a ≠ 0 ∧ s.chip.fld F.USB_STATUS_SPEED ≠ 2) →
        t.chip.resp = .stall ∧ Only [] s t s.chip) ∧
    (a ≤ 3 → s.chip.fld F.USB_STATUS_CONFIGURED ≠ 0 → s.chip.fld F.USB_STATUS_SPEED = 2 →
        t.chip.fld F.USB_STATUS_ALT_OUT = a ∧ t.chip.usb.fifo = [] ∧
        (a ≠ 0 → s.chip.rate / 2 + 1 ≠ a → Raised F.USB_STATUS_RATE 110 s t) ∧
        Only [Reg.USB_STATUS, Reg.EVT_PEND 3] s t { s.chip with usb := t.chip.usb })) ∧
  (∀ (s : State),
    s.chip.Calm → s.chip.usbLive = true →
    (∃ t, exec (.usbStandardRequest .getConfiguration) s = .next t ∧
        t.chip.resp = .bytes [BitVec.ofNat 8 (s.chip.fld F.USB_STATUS_CONFIGURED)] ∧ Only [] s t s.chip) ∧
    (∃ t, exec (.usbStandardRequest .getAltOut) s = .next t ∧
        t.chip.resp = .bytes [BitVec.ofNat 8 (s.chip.fld F.USB_STATUS_ALT_OUT)] ∧ Only [] s t s.chip) ∧
    (∃ t, exec (.usbStandardRequest .getRate) s = .next t ∧
        t.chip.resp = .bytes (wordBytes (BitVec.ofNat 32 (Chip.fsHz s.chip.rate))) ∧ Only [] s t s.chip)) ∧
  (∀ (s : State) (on : Bool),
    s.chip.Calm → s.chip.usbLive = true → ∃ t, exec (.usbStandardRequest (.setRemoteWakeup on)) s = .next t ∧
    t.chip.usb = { s.chip.usb with rwake := on } ∧ Only [] s t { s.chip with usb := t.chip.usb }) ∧
  (∀ (s : State) (b : List Byte) (l : List (List Word)),
    s.chip.Calm → s.chip.usbLive = true → s.chip.fld F.USB_STATUS_ALT_OUT ≠ 0 →
    s.chip.rate / 2 + 1 = s.chip.fld F.USB_STATUS_ALT_OUT →
    l = s.chip.usb.fifo ++ pieces (Chip.altChannels (s.chip.fld F.USB_STATUS_ALT_OUT)) b.length (wordsOf b) →
    ∃ t, exec (.usbOutPacket b) s = .next t ∧
    (l.length * 8000 ≤ Chip.fsHz s.chip.rate * 8 → t.chip.usb = { s.chip.usb with fifo := l } ∧
        Only [] s t { s.chip with usb := t.chip.usb }) ∧
    (Chip.fsHz s.chip.rate * 8 < l.length * 8000 →
        t.chip.usb.fifo = l.drop (l.length - Chip.fsHz s.chip.rate * 2 / 8000) ∧
        Raised F.USB_STATUS_OVERRUN 110 s t ∧
        t.chip.fld F.USB_AS_CNT_OVER_CNT = min (s.chip.fld F.USB_AS_CNT_OVER_CNT + 1) 65535 ∧
        Only [Reg.USB_STATUS, Reg.USB_AS_CNT, Reg.EVT_PEND 3] s t { s.chip with usb := t.chip.usb })) ∧
  (∀ (s : State),
    s.chip.Calm → s.chip.usbLive = true → s.chip.fld F.USB_STATUS_ALT_IN ≠ 0 →
    ∃ t, exec (.usbInPacket true) s = .next t ∧
    t.chip.resp = .bytes (s.chip.usb.inq.flatMap fun f => f.flatMap wordBytes) ∧
    t.chip.usb = { s.chip.usb with inq := [] } ∧ Only [] s t { s.chip with usb := t.chip.usb }) ∧
  (∀ (s : State) (ticks : Nat),
    s.chip.Calm → s.chip.usbLive = true → s.chip.fld F.USB_STATUS_ALT_OUT ≠ 0 →
    ∃ t, exec (.usbFeedback ticks) s = .next t ∧ t.chip.reg Reg.USB_FB = BitVec.ofNat 32 ((ticks + 512) / 1024) ∧
    t.chip.resp = .bytes (wordBytes (t.chip.reg Reg.USB_FB)) ∧ Only [Reg.USB_FB] s t s.chip) ∧
  (∀ (s : State) (k : Fin 16) (m : Fin 4) (v : Word) (tag : Byte),
    s.chip.Calm → s.chip.usbLive = true → s.chip.bit F.USB_STATUS_CONFIGURED = true → s.chip.recovery = false →
    ∃ t, exec (.usbVendorRequest ([0x60, BitVec.ofNat 8 (32 * m + k), 0, tag] ++ wordBytes v)) s = .next t ∧
    t.chip.reg (Reg.MB_DATA (16 + m) k) = (if s.chip.listed (16 + m) 4 = true ∧
        s.chip.mbState (16 + m) ≠ 1 then v else s.chip.reg (Reg.MB_DATA (16 + m) k)) ∧
    t.chip.resp = .bytes [(BitVec.ofNat 8 (0xC0 + s.chip.irq.toNat * 32 + 0) : Byte), tag, 0, 0] ∧
    Only [Reg.MB_DATA (16 + m) k] s t s.chip) ∧
  (∀ (s : State) (b : List Byte),
    s.chip.Calm → s.chip.usbLive = false ∨ s.chip.bit F.USB_STATUS_CONFIGURED = false →
    (∃ t, exec (.usbVendorRequest b) s = .next t ∧ t.chip.resp = .nak ∧ Only [] s t s.chip) ∧
    (∃ t, exec (.usbInterruptPoll false) s = .next t ∧ t.chip.resp = .nak ∧ Only [] s t s.chip)) ∧
  (∀ (s : State),
    s.chip.Calm → s.chip.usbLive = true → s.chip.bit F.USB_STATUS_CONFIGURED = true →
    ∃ t, exec (.usbInterruptPoll false) s = .next t ∧
    (s.chip.usb.sumDue = true →
        t.chip.resp = .bytes ((List.range 4).flatMap fun i => wordBytes (BitVec.ofNat 32 (s.chip.evtSum i)))) ∧
    (s.chip.usb.sumDue = false → t.chip.resp = .nak) ∧ t.chip.usb = { s.chip.usb with sumDue := false } ∧
    Only [] s t { s.chip with usb := t.chip.usb }) ∧
  (∀ (s : State) (m : Master) (v : Word),
    s.chip.Calm → s.chip.writes m Reg.USB_CTRL = true → bitAt v.toNat 31 = true →
    ∃ t, exec (.rwake m v) s = .next t ∧
    t.chip.usb =
      { s.chip.usb with waking := s.chip.usb.waking || (s.chip.usb.rwake && s.chip.bit F.USB_STATUS_SUSPENDED) } ∧
    Only [Reg.USB_CTRL] s t { s.chip with usb := t.chip.usb }) ∧
  (∀ (s : State) (hs : Bool) (q : UsbReq) (b : List Byte) (n : Nat),
    s.chip.Calm → s.chip.usbLive = false → (∃ t, exec (.usbBusReset hs) s = .next t ∧ Only [] s t s.chip) ∧
    (∃ t, exec .usbSuspend s = .next t ∧ Only [] s t s.chip) ∧
    (∃ t, exec (.usbStandardRequest q) s = .next t ∧ Only [] s t s.chip) ∧
    (∃ t, exec (.usbOutPacket b) s = .next t ∧ Only [] s t s.chip) ∧
    (∃ t, exec (.usbInPacket hs) s = .next t ∧ Only [] s t s.chip) ∧
    (∃ t, exec (.usbFeedback n) s = .next t ∧ Only [] s t s.chip))

/-- MIDI (R356, R358, R359); a read of the debug port clears nothing (R13). That a ring keeps one byte free is the model's
choice (see NOTES.md). -/
def Obligations.midiPorts : Prop :=
  (∀ (s : State) (k : Fin 4) (b : Byte) (ferr : Bool) (time : BitVec 5),
    s.chip.Calm → s.chip.domOn 10 = true → s.chip.bit (F.MIDI_CFG_RX_EN k) = true →
    ((s.chip.midiCh k).rx.length < 64) → ∃ t, exec (.midiRxByte k b ferr time) s = .next t ∧
    t.chip.midiCh k = { s.chip.midiCh k with
        rx := (s.chip.midiCh k).rx ++ [(BitVec.ofNat 32
                      (2 ^ 31 + (if ferr = true then 2 ^ 30 else 0) + time.toNat * 2 ^ 24 + b.toNat), BitVec.ofNat
                      32 s.chip.now)] } ∧ t.chip.fld (F.MIDI_STATUS_LEVEL k) = (s.chip.midiCh k).rx.length + 1 ∧
    (ferr = true → Raised (F.MIDI_STATUS_FERR k) (112 + k) s t) ∧
    ((s.chip.midiCh k).rx.length + 1 = max 1 (s.chip.fld (F.MIDI_CFG_THR k)) →
        Raised (F.MIDI_STATUS_LVL k) (112 + k) s t) ∧ (∀ j, j ≠ k.val → t.chip.midiCh j = s.chip.midiCh j) ∧
    Only [Reg.MIDI_STATUS k, Reg.EVT_PEND 3] s t { s.chip with midi := t.chip.midi }) ∧
  (∀ (s : State) (k : Fin 4) (b : Byte) (ferr : Bool) (time : BitVec 5),
    s.chip.Calm → s.chip.domOn 10 = true → s.chip.bit (F.MIDI_CFG_RX_EN k) = true →
    64 ≤ (s.chip.midiCh k).rx.length → ∃ t, exec (.midiRxByte k b ferr time) s = .next t ∧
    t.chip.fld (F.MIDI_STATUS_OVF_CNT k) = min (s.chip.fld (F.MIDI_STATUS_OVF_CNT k) + 1) 255 ∧
    Raised (F.MIDI_STATUS_OVF k) (112 + k) s t ∧ Only [Reg.MIDI_STATUS k, Reg.EVT_PEND 3] s t s.chip) ∧
  (∀ (s : State) (k : Fin 4) (b : Byte) (ferr : Bool) (time : BitVec 5),
    s.chip.Calm → s.chip.domOn 10 = false ∨ s.chip.bit (F.MIDI_CFG_RX_EN k) = false →
    ∃ t, exec (.midiRxByte k b ferr time) s = .next t ∧ Only [] s t s.chip) ∧
  (∀ (s : State) (m : Master) (k : Fin 4) (e : Word × Word) (l : List (Word × Word)),
    s.chip.Calm → s.chip.reads m (Reg.MIDI_RX_B k) = true → m ≠ .debug → ((s.chip.midiCh k).rx = e :: l) →
    l.length < 256 → ∃ t, exec (.midiRxPop m k) s = .next t ∧ t.chip.resp = .data e.2 ∧
    t.chip.midiCh k = { s.chip.midiCh k with rx := l } ∧ t.chip.fld (F.MIDI_STATUS_LEVEL k) = l.length ∧
    (∀ j, j ≠ k.val → t.chip.midiCh j = s.chip.midiCh j) ∧
    Only [Reg.MIDI_STATUS k] s t { s.chip with midi := t.chip.midi }) ∧
  (∀ (s : State) (m : Master) (k : Fin 4),
    s.chip.Calm → s.chip.reads m (Reg.MIDI_RX_B k) = true → m = .debug ∨ (s.chip.midiCh k).rx = [] →
    ∃ t, exec (.midiRxPop m k) s = .next t ∧ t.chip.resp = .data (((s.chip.midiCh k).rx.head?.map (·.2)).getD 0) ∧
    Only [] s t s.chip) ∧
  (∀ (s : State) (b : List Byte) (n used : Nat),
    s.chip.Calm → s.chip.usbLive = true → s.chip.bit F.USB_STATUS_CONFIGURED = true →
    n = 2 ^ (min (s.chip.fld F.USB_MIDI_RX_BASE_SIZE) 10 + 6) →
    used = (s.chip.fld F.USB_MIDI_RX_PTR_HEAD % n + n - s.chip.fld F.USB_MIDI_RX_PTR_TAIL % n) % n →
    ∃ t, exec (.usbMidiOutPacket b) s = .next t ∧ (n ≤ used + b.length → t.chip.resp = .nak ∧ Only [] s t s.chip) ∧
    (used + b.length < n → t.chip.fld F.USB_MIDI_RX_PTR_HEAD = (s.chip.fld F.USB_MIDI_RX_PTR_HEAD + b.length) % n ∧
        Raised F.USB_STATUS_MIDI_RX 111 s t ∧
        Only [Reg.USB_MIDI_RX_PTR, Reg.USB_STATUS, Reg.EVT_PEND 3, Reg.SEC_REC_CTRL] s t
          { s.chip with mem := t.chip.mem, ecc := t.chip.ecc, tags := t.chip.tags, strm := t.chip.strm })) ∧
  (∀ (s : State) (n k : Nat),
    s.chip.Calm → s.chip.usbLive = true → s.chip.bit F.USB_STATUS_CONFIGURED = true →
    n = 2 ^ (min (s.chip.fld F.USB_MIDI_TX_BASE_SIZE) 10 + 6) →
    k = min (if s.chip.fld F.USB_STATUS_SPEED = 2 then 512 else 64)
      ((s.chip.fld F.USB_MIDI_TX_PTR_HEAD % n + n - s.chip.fld F.USB_MIDI_TX_PTR_TAIL % n) % n) →
    ∃ t, exec .usbMidiInPacket s = .next t ∧ (k = 0 → t.chip.resp = .nak ∧ Only [] s t s.chip) ∧
    (0 < k → t.chip.fld F.USB_MIDI_TX_PTR_TAIL = (s.chip.fld F.USB_MIDI_TX_PTR_TAIL + k) % n ∧
        Raised F.USB_STATUS_MIDI_TX 111 s t ∧
        Only [Reg.USB_MIDI_TX_PTR, Reg.USB_STATUS, Reg.EVT_PEND 3, Reg.SERAI_ECC_STATUS, Reg.SERAI_ECC_ADDR] s t
          { s.chip with ecc := t.chip.ecc, drawn := t.chip.drawn }))

/-- R360: "A write to MIDI_TXk queues one byte in a 64-byte FIFO." -/
def Obligations.midiTransmit : Prop :=
  (∀ (s : State) (m : Master) (k : Fin 4) (v : Word),
    s.chip.Calm → s.chip.writes m (Reg.MIDI_TX k) = true → ((s.chip.midiCh k).tx.length < 64) →
    ∃ t, exec (.midiTxWrite m k v) s = .next t ∧
    t.chip.midiCh k = { s.chip.midiCh k with tx := (s.chip.midiCh k).tx ++ [BitVec.ofNat 8 v.toNat] } ∧
    t.chip.fld (F.MIDI_STATUS_TXLEVEL k) = (s.chip.midiCh k).tx.length + 1 ∧
    (∀ j, j ≠ k.val → t.chip.midiCh j = s.chip.midiCh j) ∧
    Only [Reg.MIDI_STATUS k] s t { s.chip with midi := t.chip.midi }) ∧
  (∀ (s : State) (m : Master) (k : Fin 4) (v : Word),
    s.chip.Calm → s.chip.writes m (Reg.MIDI_TX k) = true → 64 ≤ (s.chip.midiCh k).tx.length →
    ∃ t, exec (.midiTxWrite m k v) s = .next t ∧ t.chip.bit (F.MIDI_STATUS_TXOVF k) = true ∧
    Only [Reg.MIDI_STATUS k] s t s.chip) ∧
  (∀ (s : State) (k : Fin 4) (b : Byte) (l : List Byte),
    s.chip.Calm → s.chip.domOn 10 = true → s.chip.bit (F.MIDI_CFG_TX_EN k) = true →
    ((s.chip.midiCh k).tx = b :: l) → l.length < 256 → ∃ t, exec (.midiTxByteSent k) s = .next t ∧
    t.chip.resp = .bytes [b] ∧ t.chip.midiCh k = { s.chip.midiCh k with tx := l } ∧
    t.chip.fld (F.MIDI_STATUS_TXLEVEL k) = l.length ∧ (∀ j, j ≠ k.val → t.chip.midiCh j = s.chip.midiCh j) ∧
    Only [Reg.MIDI_STATUS k] s t { s.chip with midi := t.chip.midi }) ∧
  (∀ (s : State) (k : Fin 4),
    s.chip.Calm → s.chip.domOn 10 = false ∨ s.chip.bit (F.MIDI_CFG_TX_EN k) = false ∨ (s.chip.midiCh k).tx = [] →
    ∃ t, exec (.midiTxByteSent k) s = .next t ∧ Only [] s t s.chip)

/-- R87: "Shifts by register take the count from bits 5:0 of rb, that is, rb mod 64." -/
def Obligations.shiftCounts : Prop :=
  (∀ (s : State) (core : CoreId) (x : AArgs) (n : Nat),
    s.chip.Calm → s.chip.ready core = true → aOk core .shl x = true → n = (s.chip.gpr core x.rb).toNat % 64 →
    ∃ t, exec (.shl core x) s = .next t ∧
    t.chip.gpr core x.rd.toNat = if n < 32 then (s.chip.gpr core x.ra) <<< n else 0) ∧
  (∀ (s : State) (core : CoreId) (x : AArgs) (n : Nat),
    s.chip.Calm → s.chip.ready core = true → aOk core .shr x = true → n = (s.chip.gpr core x.rb).toNat % 64 →
    ∃ t, exec (.shr core x) s = .next t ∧
    t.chip.gpr core x.rd.toNat = if n < 32 then (s.chip.gpr core x.ra) >>> n else 0) ∧
  (∀ (s : State) (core : CoreId) (x : AArgs) (n : Nat),
    s.chip.Calm → s.chip.ready core = true → aOk core .sra x = true → n = (s.chip.gpr core x.rb).toNat % 64 →
    ∃ t, exec (.sra core x) s = .next t ∧
    t.chip.gpr core x.rd.toNat = if n < 32 then (s.chip.gpr core x.ra).sshiftRight n else if
      (s.chip.gpr core x.ra).msb = true then 0xFFFFFFFF else 0) ∧
  (∀ (s : State) (core : CoreId) (x : AArgs) (n : Nat),
    s.chip.Calm → s.chip.ready core = true → aOk core .ror x = true → n = (s.chip.gpr core x.rb).toNat % 64 →
    ∃ t, exec (.ror core x) s = .next t ∧ t.chip.gpr core x.rd.toNat = (s.chip.gpr core x.ra).rotateRight (n % 32)) ∧
  (∀ (s : State) (core : CoreId) (x : AArgs) (n : Nat),
    s.chip.Calm → s.chip.ready core = true → aOk core .shi x = true → n = bits x.imm10 5 0 →
    ∃ t, exec (.shi core x) s = .next t ∧
    t.chip.gpr core x.rd.toNat = (
        match bits x.imm10 7 6 with
        | 0 => (if n < 32 then (s.chip.gpr core x.ra) <<< n else 0)
        | 1 => (if n < 32 then (s.chip.gpr core x.ra) >>> n else 0)
        | 2 => (if n < 32 then (s.chip.gpr core x.ra).sshiftRight n else if (s.chip.gpr core x.ra).msb = true then
              0xFFFFFFFF else 0)
        | _ => (s.chip.gpr core x.ra).rotateRight (n % 32)))

/-- The CP firmware's session, program, parameter, meter and event commands (spec/16). Which functions READY_QUERY reports
as failed is a free value but for external memory (log entry 6). -/
def Obligations.firmwareRequests : Prop :=
  (∀ (s : State) (m : Fin 24),
    s.chip.Due m → bitAt (s.chip.reg (Reg.MB_STATUS m)).toNat 5 = false →
    s.chip.recvEpoch m ≠ s.chip.fld (F.MB_STAMP_R_EPOCH m) ∨ s.chip.fld
      (F.EPOCH_EPOCH (s.chip.fld (F.MB_STAMP_SENDER m))) ≠ s.chip.fld (F.MB_STAMP_S_EPOCH m) →
    NdRow m (s.chip.ndReq m) (fun i => Refuses i m 0x15 s)) ∧
  (∀ (s : State) (m : Fin 24) (r : NdRec),
    s.chip.Due m → s.chip.ndStale (s.chip.ndReq m) = false →
    ((s.chip.ndo.recs.find? fun x => x.1 == m.val && x.2.q.same (s.chip.ndReq m)) = some (m.val, r)) →
    ((s.chip.ndReq m).op ≠ 1) → (∀ b ∈ r.reply, b.1 = (s.chip.ndReq m).op) →
    NdRow m (s.chip.ndReq m) (fun i => Repeats i m r s)) ∧
  (∀ (s : State) (m : Fin 24),
    s.chip.New m → ((Chip.ndInfo (s.chip.ndReq m).op).isNone = true) →
    ((s.chip.ndMinor (s.chip.ndReq m).sender).isSome = true) → Refuses (.hello m) m 0x10 s) ∧
  (∀ (s : State) (m : Fin 24),
    s.chip.New m → ((s.chip.ndReq m).op ≠ 1 ∧ (s.chip.ndReq m).op ≠ 2) →
    s.chip.ndMinor (s.chip.ndReq m).sender = none → NdRow m (s.chip.ndReq m) (fun i => Refuses i m 0x14 s)) ∧
  (∀ (s : State) (m : Fin 24) (v : Nat),
    s.chip.New m → ((s.chip.ndReq m).op ≠ 1 ∧ (s.chip.ndReq m).op ≠ 2) →
    ((Chip.ndInfo (s.chip.ndReq m).op).isSome = true) → s.chip.ndMinor (s.chip.ndReq m).sender = some v →
    v < (s.chip.ndReq m).minor → NdRow m (s.chip.ndReq m) (fun i => Refuses i m 0x13 s)) ∧
  (∀ (s : State) (m : Fin 24) (v b r : Nat) (k : Chip.NdTandem),
    s.chip.New m → ((s.chip.ndReq m).op ≠ 1 ∧ (s.chip.ndReq m).op ≠ 2) →
    s.chip.ndMinor (s.chip.ndReq m).sender = some v → ((s.chip.ndReq m).minor ≤ v) →
    Chip.ndInfo (s.chip.ndReq m).op = some (some b, r, k) → bitAt s.chip.ndo.caps b = false →
    NdRow m (s.chip.ndReq m) (fun i => Refuses i m 0x25 s)) ∧
  (∀ (s : State) (m : Fin 24) (v r : Nat) (b : Option Nat) (k : Chip.NdTandem),
    s.chip.New m → ((s.chip.ndReq m).op ≠ 1 ∧ (s.chip.ndReq m).op ≠ 2) →
    s.chip.ndMinor (s.chip.ndReq m).sender = some v → ((s.chip.ndReq m).minor ≤ v) →
    Chip.ndInfo (s.chip.ndReq m).op = some (b, r, k) → (∀ x ∈ b, bitAt s.chip.ndo.caps x = true) →
    s.chip.tandem = false → s.chip.tlkState = 0 → s.chip.bit ⟨Reg.READY, r, r⟩ = false →
    NdRow m (s.chip.ndReq m) (fun i => Refuses i m 0x20 s)) ∧
  (∀ (s : State) (m : Fin 24),
    s.chip.Quiet → s.chip.ndTurn m = false → ∃ t, exec (.hello m) s = .next t ∧
    Only [] s t { s.chip with ndo := t.chip.ndo } ∧ t.chip.ndo = s.chip.ndo) ∧
  (∀ (s : State) (m : Fin 24) (q : NdReq) (w : Word) (v : Nat),
    q = s.chip.ndReq m → s.chip.Served m 1 → 1 ≤ q.len ∧ q.len ≤ 4 →
    ((q.body.all fun x => bits x.toNat 31 16 == 0) = true) →
    ((q.body.find? fun x => bits x.toNat 15 8 == 2) = some w) → v = min (bits w.toNat 7 0) 3 →
    ∃ t, exec (.hello m) s = .next t ∧
    Answered m (BitVec.ofNat 32 (v * 2 ^ 24 + (s.chip.msg m 0).toNat % 2 ^ 24)) 0 (some [BitVec.ofNat 32
              (0x200 + v), BitVec.ofNat 32 (s.chip.ndo.caps % 65536), s.chip.reg Reg.SEC_IMG_BUILD, s.chip.reg
              Reg.READY]) true { s.chip with
        ndo := { s.chip.ndo with vers := s.chip.ndo.vers.filter (·.1 != q.sender) ++ [(q.sender, v, q.epoch)] } } s
      t) ∧
  (∀ (s : State) (m : Fin 24) (q : NdReq),
    q = s.chip.ndReq m → s.chip.Served m 1 → 1 ≤ q.len ∧ q.len ≤ 4 →
    ((q.body.all fun x => bits x.toNat 31 16 == 0 && bits x.toNat 15 8 != 2) = true) →
    ∃ t, exec (.hello m) s = .next t ∧ t.chip.mbState m = 2 ∧ t.chip.fld (F.MB_ACK_RC m) = 0x13 ∧
    t.chip.ndMinor q.sender = none) ∧
  (∀ (s : State) (m : Fin 24) (pend : Bool) (c1 : Chip),
    s.chip.Served m 2 → ((s.chip.ndReq m).len = 0) →
    pend =
      (s.chip.flashWord (s.chip.ndSlotAt 0) == 0xFFFFFF00 || s.chip.flashWord (s.chip.ndSlotAt 1) == 0xFFFFFF00) →
    c1 = s.chip.draw.2 →
    Answers (.readyQuery m) m 0 (some [s.chip.reg Reg.READY, BitVec.ofNat 32 (maskOff
                  (s.chip.draw.1.toNat &&& 0x17F) (s.chip.reg Reg.READY).toNat + (if s.chip.bit
                      F.DDR_STATUS_TRAIN_FAIL = true ∧ bitAt (s.chip.reg Reg.READY).toNat 7 = false then 0x80 else 0)),
              s.chip.reg Reg.SEC_IMG_VERSION, s.chip.reg Reg.SEC_IMG_SEQ, BitVec.ofNat 32
              (s.chip.fld F.SEC_BOOT_STATUS_SLOT * 2 ^ 31 + pend.toNat * 2 ^ 30 + s.chip.fld F.FUSE_STATE_ARB),
              BitVec.ofNat 32 s.chip.now, BitVec.ofNat 32 (s.chip.now / 2 ^ 32)]) (c1.readStcLo mCp).2 s) ∧
  (∀ (s : State) (m : Fin 24) (q : NdReq) (b : Nat) (had : List Word),
    q = s.chip.ndReq m → s.chip.Served m 0x010 → 2 ≤ q.len → q.f 1 27 19 = 0 → b = q.f 1 29 28 →
    (had = if bitAt (q.w 1) 31 = true then [] else (s.chip.ndBuf b).1) → q.f 1 18 0 = had.length →
    had.length + (q.len - 1) ≤ 0x80000 → s.chip.ndHeld [.buf b] = false → bitAt (q.w 1) 30 = false →
    Answers (.programLoad m none) m 0 none (s.chip.setNdBuf b (had ++ q.body.drop 1, none)) s) ∧
  (∀ (s : State) (m : Fin 24) (q : NdReq) (b : Nat) (had : List Word) (img : List ArsicEng),
    q = s.chip.ndReq m → s.chip.Served m 0x010 → 2 ≤ q.len → q.f 1 27 19 = 0 → b = q.f 1 29 28 →
    (had = if bitAt (q.w 1) 31 = true then [] else (s.chip.ndBuf b).1) → q.f 1 18 0 = had.length →
    had.length + (q.len - 1) ≤ 0x80000 → s.chip.ndHeld [.buf b] = false → bitAt (q.w 1) 30 = true →
    Answers (.programLoad m (some img)) m 0
      (some [BitVec.ofNat 32 (had.length + (q.len - 1)), BitVec.ofNat 32 (Chip.imgMask img)])
      (s.chip.setNdBuf b (had ++ q.body.drop 1, some img)) s ∧
    Answers (.programLoad m none) m 0x36 none (s.chip.setNdBuf b ([], none)) s) ∧
  (∀ (s : State) (m : Fin 24) (q : NdReq) (b : Nat),
    q = s.chip.ndReq m → s.chip.Served m 0x010 → 2 ≤ q.len → q.f 1 27 19 = 0 → b = q.f 1 29 28 →
    bitAt (q.w 1) 31 = false → s.chip.ndHeld [.buf b] = false → q.f 1 18 0 ≠ (s.chip.ndBuf b).1.length →
    ∃ t, exec (.programLoad m none) s = .next t ∧
    Answered m (s.chip.msg m 0) 0x12 none false (s.chip.setNdBuf b ([], none)) s t) ∧
  (∀ (s : State) (m : Fin 24) (q : NdReq) (l : List Nat),
    q = s.chip.ndReq m → s.chip.Served m 0x011 → q.len = 1 → q.w 1 &&& 0xCC00FF00 = 0 →
    l = (List.range 10).filter (bitAt (q.f 1 25 16)) →
    (maskOff (q.f 1 25 16) (Chip.imgMask ((s.chip.ndBuf (q.f 1 29 28)).2.getD [])) ≠ 0 →
        Refuses (.programInstall m) m 0x12 s) ∧
    (maskOff (q.f 1 25 16) (Chip.imgMask ((s.chip.ndBuf (q.f 1 29 28)).2.getD [])) = 0 →
        s.chip.ndHeld (l.map .eng) = true → Refuses (.programInstall m) m 0x21 s) ∧
    (maskOff (q.f 1 25 16) (Chip.imgMask ((s.chip.ndBuf (q.f 1 29 28)).2.getD [])) = 0 →
        s.chip.ndHeld (l.map .eng) = false →
        Accepts (.programInstall m) m ({
                q := q
                kind := .install
                args := [q.f 1 29 28, q.f 1 25 16, q.f 1 7 0]
                holds := .buf (q.f 1 29 28) :: l.map .eng }) none s.chip s)) ∧
  (∀ (s : State) (m : Fin 24) (q : NdReq) (e : Nat) (l : List (Nat × Word)),
    q = s.chip.ndReq m → s.chip.Served m 0x020 → 2 ≤ q.len → q.f 1 26 15 = 0 → e = q.f 1 31 28 → e ≤ 9 →
    q.f 1 14 0 + (q.len - 1) ≤ 32768 → s.chip.ndHeld [.eng e] = false → s.chip.ndLedger = false →
    (l = (q.body.drop 1).zipIdx.map (fun x => (engBase (s.chip.phys e) +
                  (if bitAt (q.w 1) 27 then 0x100000 else 0x120000) + 4 * (q.f 1 14 0 + x.2), x.1))) →
    (if bitAt (q.w 1) 27 = true then s.chip.locked73 (s.chip.phys e) = false else s.chip.armedNames e 4 = false) →
    Answers (.paramWrite m) m (if (Chip.ndDirect l s.chip).2 then 0 else 0x12) none (Chip.ndDirect l s.chip).1 s) ∧
  (∀ (s : State) (m : Fin 24) (q : NdReq) (e : Nat),
    q = s.chip.ndReq m → s.chip.Served m 0x020 → 2 ≤ q.len → q.f 1 26 15 = 0 → e = q.f 1 31 28 →
    (9 < e ∨ 32768 < q.f 1 14 0 + (q.len - 1) → Refuses (.paramWrite m) m 0x12 s) ∧
    (e ≤ 9 → q.f 1 14 0 + (q.len - 1) ≤ 32768 → s.chip.ndHeld [.eng e] = false →
        (bitAt (q.w 1) 27 = true →
            (s.chip.engState (s.chip.phys e) = 3 ∨ s.chip.engState (s.chip.phys e) = 4 ∨ s.chip.engState
                  (s.chip.phys e) = 5) → Refuses (.paramWrite m) m 0x25 s) ∧
        (bitAt (q.w 1) 27 = false → s.chip.armedNames e 4 = true → Refuses (.paramWrite m) m 0x24 s))) ∧
  (∀ (s : State) (m : Fin 24) (q : NdReq) (k : Nat) (l : List (Nat × Word)),
    q = s.chip.ndReq m → s.chip.Served m 0x021 → bitAt (q.w 1) 28 = false → q.len = 3 → q.w 1 &&& 0x0C00FC00 = 0 →
    q.f 1 9 0 ≠ 0 → bitAt (q.w 1) 29 = false →
    s.chip.ndHeld (((List.range 10).filter (bitAt (q.f 1 9 0))).map .eng) = false →
    ((List.range 4).find? s.chip.slotFree = some k) →
    (∀ e : Nat, e < 10 → bitAt (q.f 1 9 0) e = true → s.chip.armedNames e 4 = false ∧
        s.chip.fbit F.PAN_STATUS_CF_BUSY e = false) → s.chip.ndLedger = false →
    l = [(Reg.SWAP_AT_LO k, BitVec.ofNat 32 (q.w 2)), (Reg.SWAP_AT_HI k, BitVec.ofNat 32 (q.w 3)),
          (Reg.SWAP_CTRL k, BitVec.ofNat 32 (2 ^ 31 + (if bitAt (q.w 1) 31 then 2 ^ 29 else 0) +
                  (if bitAt (q.w 1) 30 then 2 ^ 28 else 0) + q.f 1 9 0))] → ((Chip.ndDirect l s.chip).2 = true) →
    Answers (.swapArm m) m (if bitAt (q.w 1) 31 = false ∧ q.at64 2 ≤ s.chip.now then 1 else 0) (some
          [BitVec.ofNat 32 k, BitVec.ofNat 32
              (if bitAt (q.w 1) 31 = true ∨ q.at64 2 ≤ s.chip.now then s.chip.now + 1 else q.at64 2), BitVec.ofNat
              32 ((if bitAt (q.w 1) 31 = true ∨ q.at64 2 ≤ s.chip.now then s.chip.now + 1 else q.at64 2) / 2 ^ 32)])
      (Chip.ndDirect l s.chip).1 s) ∧
  (∀ (s : State) (m : Fin 24) (q : NdReq),
    q = s.chip.ndReq m → s.chip.Served m 0x021 → bitAt (q.w 1) 28 = false → q.len = 3 → q.w 1 &&& 0x0C00FC00 = 0 →
    q.f 1 9 0 ≠ 0 → bitAt (q.w 1) 29 = false ∨ 1 ≤ q.minor →
    s.chip.ndHeld (((List.range 10).filter (bitAt (q.f 1 9 0))).map .eng) = false →
    ((∀ k : Nat, k < 4 → s.chip.slotFree k = false) → Refuses (.swapArm m) m 0x22 s) ∧
    (((List.range 4).any s.chip.slotFree) = true →
        ((List.range 10).any fun e => bitAt (q.f 1 9 0) e && s.chip.armedNames e 4) = true →
        Refuses (.swapArm m) m 0x23 s)) ∧
  (∀ (s : State) (m : Fin 24) (q : NdReq) (l : List (Nat × Word)),
    q = s.chip.ndReq m → s.chip.Served m 0x021 → bitAt (q.w 1) 28 = true → q.len = 3 → q.w 1 &&& 0x0C00FC00 = 0 →
    l = [(Reg.SWAP_CTRL (q.f 1 25 24), BitVec.ofNat 32 (2 ^ 30))] →
    (s.chip.bit (F.SWAP_CTRL_ARMED (q.f 1 25 24)) = false → Refuses (.swapDisarm m) m 0x25 s) ∧
    (s.chip.bit (F.SWAP_CTRL_ARMED (q.f 1 25 24)) = true → s.chip.ndLedger = false →
        Answers (.swapDisarm m) m (if (Chip.ndDirect l s.chip).2 then 0 else 0x12) none (Chip.ndDirect l s.chip).1 s)) ∧
  (∀ (s : State) (m : Fin 24) (q : NdReq) (l : List (Nat × Word)),
    q = s.chip.ndReq m → s.chip.Served m 0x022 → q.len = 4 → q.w 1 ≤ 1023 →
    l = [(Reg.GLD_CTRL (q.w 1), BitVec.ofNat 32 (q.w 2 % 2 ^ 31)),
          (Reg.GLD_TARGET (q.w 1), BitVec.ofNat 32 (q.w 3)), (Reg.GLD_RATE (q.w 1), BitVec.ofNat 32 (q.w 4)),
          (Reg.GLD_CTRL (q.w 1), BitVec.ofNat 32 (2 ^ 31 + q.w 2 % 2 ^ 31))] → s.chip.ndLedger = false →
    (bitAt (q.w 2) 22 = true → s.chip.bit (F.SWAP_CTRL_ARMED (bits (q.w 2) 21 20)) = false →
        Answers (.glideSet m) m 0x25 (some [0]) s.chip s) ∧
    ((bitAt (q.w 2) 22 = false ∨ s.chip.bit (F.SWAP_CTRL_ARMED (bits (q.w 2) 21 20)) = true) →
        s.chip.goReject (q.w 1)
          ⟨BitVec.ofNat 32 (q.w 2 % 2 ^ 31), BitVec.ofNat 32 (q.w 3), BitVec.ofNat 32 (q.w 4), false, false⟩ = 0 →
        ((Chip.ndDirect l s.chip).2 = true) → Answers (.glideSet m) m 0 (some [1]) (Chip.ndDirect l s.chip).1 s)) ∧
  (∀ (s : State) (m : Fin 24) (q : NdReq) (src sink : Nat),
    q = s.chip.ndReq m → s.chip.Served m 0x030 → q.len = 3 → q.w 1 &&& 0x1FFFFF00 = 0 → bitAt (q.w 1) 31 = false →
    bitAt (q.w 1) 29 = false → q.w 2 = src * 65536 + sink → src < 2048 ∧ sink < 2048 → q.w 3 < 2 ^ 24 →
    Answers (.routeSet m) m 0 none (s.chip.modNdo fun n => { n with
            staged := n.staged.filter (fun x => !(x.1 == q.sender && x.2.1 == src && x.2.2.1 == sink)) ++
                  [(q.sender, src, sink, BitVec.ofNat 32 (q.w 3))] }) s) ∧
  (∀ (s : State) (m : Fin 24) (q : NdReq) (l : List (Nat × Word)) (left : List Nat),
    q = s.chip.ndReq m → s.chip.Served m 0x030 → q.len = 1 → q.w 1 &&& 0x1FFFFF00 = 0 → bitAt (q.w 1) 31 = true →
    bitAt (q.w 1) 29 = false → s.chip.bit F.RTR_COMMIT_PENDING = false →
    (s.chip.ndPlace ((s.chip.ndo.staged.filter (·.1 == q.sender)).map (·.2))
          ((List.range 4096).filter fun k => !s.chip.routeUsed k) [] = some (l, left)) → s.chip.ndLedger = false →
    ((Chip.ndDirect (l ++ [(Reg.RTR_COMMIT, BitVec.ofNat 32
                          (2 ^ 31 + (if bitAt (q.w 1) 30 then 2 ^ 28 else 0) + q.f 1 7 0))]) s.chip).2 = true) →
    Answers (.routeSet m) m 0 (some [BitVec.ofNat 32 left.length, BitVec.ofNat 32 (s.chip.now + 1), BitVec.ofNat 32
              ((s.chip.now + 1) / 2 ^ 32)]) ((Chip.ndDirect (l ++ [(Reg.RTR_COMMIT, BitVec.ofNat 32
                          (2 ^ 31 + (if bitAt (q.w 1) 30 then 2 ^ 28 else 0) + q.f 1 7 0))]) s.chip).1.modNdo fun n
          => { n with staged := n.staged.filter (·.1 != q.sender) }) s) ∧
  (∀ (s : State) (m : Fin 24) (q : NdReq),
    q = s.chip.ndReq m → s.chip.Served m 0x030 → q.len = 1 → q.w 1 &&& 0x1FFFFF00 = 0 → bitAt (q.w 1) 31 = true →
    bitAt (q.w 1) 29 = false → (s.chip.bit F.RTR_COMMIT_PENDING = true → Refuses (.routeSet m) m 0x21 s) ∧
    (s.chip.bit F.RTR_COMMIT_PENDING = false →
        s.chip.ndPlace ((s.chip.ndo.staged.filter (·.1 == q.sender)).map (·.2))
          ((List.range 4096).filter fun k => !s.chip.routeUsed k) [] = none → Refuses (.routeSet m) m 0x22 s)) ∧
  (∀ (s : State) (m : Fin 24) (q : NdReq) (p : Nat),
    q = s.chip.ndReq m → s.chip.Served m 0x060 → q.len = 1 → q.w 1 = p + 256 → p < 256 → s.chip.domOn 12 = true →
    ∃ t, exec (.meterRead m) s = .next t ∧ t.chip.mbState m = 2 ∧ t.chip.fld (F.MB_ACK_RC m) = 0 ∧
    Posts ((replyBox m).getD 0) (s.chip.msg m 0) 0x060 [BitVec.ofNat 32 (
              (s.chip.fbit (F.SIL_STATE_STATE (p / 32)) (p % 32)).toNat * 2 ^ 31 +
              (s.chip.fbit (F.MTR_OVER_OVER (p / 32)) (p % 32)).toNat * 2 ^ 30 + s.chip.fld (F.MTR_PEAK_PEAK p))] t
      ∧ t.chip.fld (F.MTR_PEAK_PEAK p) = 0 ∧ t.chip.fbit (F.MTR_OVER_OVER (p / 32)) (p % 32) = false ∧
    Only (answerKeys m true ++ [Reg.MTR_PEAK p, Reg.MTR_OVER (p / 32)]) s t { s.chip with ndo := t.chip.ndo }) ∧
  (∀ (s : State) (m : Fin 24) (q : NdReq) (l : List (Nat × Word)),
    q = s.chip.ndReq m → s.chip.Served m 0x060 → q.len = 3 → q.f 1 31 16 = 0x4000 → q.f 1 15 8 = 1 →
    l = [(Reg.MTR_CFG (q.f 1 7 0), BitVec.ofNat 32 (q.w 2)), (Reg.MTR_THR (q.f 1 7 0), BitVec.ofNat 32 (q.w 3))] →
    Answers (.meterRead m) m (if (Chip.ndDirect l s.chip).2 then 0 else 0x12) none (Chip.ndDirect l s.chip).1 s) ∧
  (∀ (s : State) (m : Fin 24) (q : NdReq) (v : Nat),
    q = s.chip.ndReq m → s.chip.Served m 0x070 → q.len = 5 → q.w 5 = 0 →
    v = (q.w 1 + q.w 2 * 2 ^ 32 + q.w 3 * 2 ^ 64 + q.w 4 * 2 ^ 96) &&&
      ((2 ^ 128 - 2 ^ 32) - (2 ^ 116 + 2 ^ 117 + 2 ^ 118)) →
    Answers (.eventSubscribe m) m 0 (some [BitVec.ofNat 32 v, BitVec.ofNat 32 (v / 2 ^ 32), BitVec.ofNat 32
              (v / 2 ^ 64), BitVec.ofNat 32 (v / 2 ^ 96)]) (s.chip.modNdo fun n => { n with
            subs := n.subs.filter (·.sender != q.sender) ++ [{
                        sender := q.sender
                        mb := m
                        minor := (s.chip.ndMinor q.sender).getD 0
                        mask := BitVec.ofNat 128 v }] }) s) ∧
  (∀ (s : State) (e : BitVec 7) (x : NdSub) (r : Nat) (l : List Word),
    s.chip.Quiet → s.chip.pends e.toNat = true → s.chip.ndo.subs = [x] → x.mask.getLsbD e.toNat = true →
    x.counts = [] → replyBox x.mb = some r → s.chip.mbState r = 0 → 32 ≤ e.toNat ∧ e.toNat ≠ 80 ∧ e.toNat ≠ 81 →
    l = (Chip.evtRegs e.toNat).map s.chip.reg → Chip.evtRegs e.toNat = [] ∨ e.toNat = 120 →
    ∃ t, exec (.notification e) s = .next t ∧ t.chip.pends e.toNat = false ∧
    Posts r (BitVec.ofNat 32
          (x.minor * 2 ^ 24 + ((((s.chip.ndo.seqs.find? (·.1 == x.mb)).map (·.2)).getD 0 + 1) % 256) * 2 ^ 16))
      0xFFF
      ([BitVec.ofNat 32 (e.toNat + 65536), BitVec.ofNat 32 s.chip.now, BitVec.ofNat 32 (s.chip.now / 2 ^ 32)] ++ l)
      t ∧ t.chip.ndo.subs = [x] ∧
    Only ([Reg.EVT_PEND 0, Reg.EVT_PEND (e.toNat / 32), Reg.MB_STATUS r, Reg.MB_STAMP r, Reg.MB_POST_TICK r,
              Reg.MB_GORES r + mCp * 2 ^ 32] ++ (List.range 16).map (Reg.MB_DATA r)) s t
      { s.chip with ndo := t.chip.ndo }) ∧
  (∀ (s : State) (e : BitVec 7),
    s.chip.Quiet → s.chip.pends e.toNat = false ∨ s.chip.ndo.subs = [] → (∀ x ∈ s.chip.ndo.subs, x.counts = []) →
    ∃ t, exec (.notification e) s = .next t ∧ t.chip.ndo = s.chip.ndo ∧ Only [] s t s.chip)

/-- The CP firmware's port, clock, sense, actuator, power, tandem, update and diagnosis commands, and the completion of
deferred ones (spec/16). -/
def Obligations.firmwareService : Prop :=
  (∀ (s : State) (m : Fin 24) (q : NdReq) (i : Nat) (l : List (Nat × Word)) (c : Chip),
    q = s.chip.ndReq m → s.chip.Served m 0x040 → q.len = 4 → q.w 1 = i → i < 8 → s.chip.ndHeld [.port i] = false →
    s.chip.tandem = false → s.chip.bit (F.SAP_CTRL_EN i) = false →
    l = [(Reg.SAP_FMT i, BitVec.ofNat 32 (q.w 3)), (Reg.SAP_TXSLOT i, BitVec.ofNat 32 (q.w 4)),
          (Reg.SAP_CTRL i, BitVec.ofNat 32 (q.w 2))] → c = s.chip.setFld (F.SAP_STATUS_FMT_ERR i) 0 →
    ((Chip.ndDirect l c).2 = true) →
    Answers (.portConfig m) m
      (if bitAt (q.w 2) 31 && (Chip.ndDirect l c).1.bit (F.SAP_STATUS_FMT_ERR i) then 0x40 else 0) none
      (Chip.ndDirect l c).1 s) ∧
  (∀ (s : State) (m : Fin 24) (q : NdReq) (i : Nat),
    q = s.chip.ndReq m → s.chip.Served m 0x040 → q.len = 4 → q.w 1 = i → i < 8 → s.chip.ndHeld [.port i] = false →
    s.chip.bit (F.SAP_CTRL_EN i) = true → ((s.chip.reg (Reg.SAP_FMT i)).toNat ≠ q.w 3 &&& 0xFFFF0000) →
    ∃ t, exec (.portConfig m) s = .next t ∧
    t.chip.ndo = { s.chip.ndo with
        tasks := s.chip.ndo.tasks ++ [{ q := q, kind := .port, defer := false, holds := [.port i] }]
        recs := s.chip.ndo.recs.filter (·.1 != m.val) ++ [(m.val, ⟨q, 0, none⟩)] } ∧
    Only [] { s with chip := s.chip } t { s.chip with ndo := t.chip.ndo }) ∧
  (∀ (s : State) (m : Fin 24) (q : NdReq),
    q = s.chip.ndReq m → s.chip.Served m 0x040 → (3 < q.f 1 31 28 → Refuses (.portConfig m) m 0x12 s) ∧
    (q.f 1 31 28 ≤ 3 → q.len ≠ (if q.f 1 31 28 = 0 then 4 else 2) → Refuses (.portConfig m) m 0x11 s)) ∧
  (∀ (s : State) (m : Fin 24) (q : NdReq) (l : List (Nat × Word)),
    q = s.chip.ndReq m → s.chip.Served m 0x041 → q.len = 3 → q.w 3 = 0 →
    l = (if maskOff (q.w 1) (2 ^ 23) ≠ (s.chip.reg Reg.TRK_CTRL).toNat ∨ bitAt (q.w 1) 23 = true then
          [(Reg.TRK_CTRL, BitVec.ofNat 32 (q.w 1))] else []) ++ (if q.w 2 &&& 0x7FFFF ≠
          (s.chip.reg Reg.TRK_PHASE).toNat then [(Reg.TRK_PHASE, BitVec.ofNat 32 (q.w 2))] else []) →
    ((Chip.ndDirect l s.chip).2 = true) →
    Answers (.clockConfig m) m 0
      (some [BitVec.ofNat 32 (s.chip.now + 1), BitVec.ofNat 32 ((s.chip.now + 1) / 2 ^ 32)])
      (Chip.ndDirect l s.chip).1 s) ∧
  (∀ (s : State) (m : Fin 24) (q : NdReq) (l : List (Nat × Word)),
    q = s.chip.ndReq m → s.chip.Served m 0x041 → q.len = 3 → q.w 3 = 8 + q.f 3 2 0 → s.chip.ndLedger = false →
    s.chip.bit F.TICK_CADENCE_PENDING = false → q.w 1 = (s.chip.reg Reg.TRK_CTRL).toNat → bitAt (q.w 1) 23 = false →
    q.w 2 = (s.chip.reg Reg.TRK_PHASE).toNat → q.w 2 < 0x80000 →
    l = [(Reg.TICK_CADENCE, BitVec.ofNat 32 (2 ^ 29 + q.f 3 2 0))] →
    (s.chip.overBudget (Chip.budgetOf (q.f 3 2 0) s.chip.eclkDiv) = [] → ((Chip.ndDirect l s.chip).2 = true) →
        Answers (.clockConfig m) m 0
          (some [BitVec.ofNat 32 (s.chip.now + 1), BitVec.ofNat 32 ((s.chip.now + 1) / 2 ^ 32)])
          (Chip.ndDirect l s.chip).1 s) ∧
    (∀ e ∈ (s.chip.overBudget (Chip.budgetOf (q.f 3 2 0) s.chip.eclkDiv)).head?, ∃ t, exec (.clockConfig m) s =
          .next t ∧ Answered m (s.chip.msg m 0) 0x25 (some [BitVec.ofNat 32 e]) false s.chip s t)) ∧
  (∀ (s : State) (m : Fin 24) (q : NdReq),
    q = s.chip.ndReq m → s.chip.Served m 0x041 → q.len = (if bitAt (q.w 3) 7 = true then 5 else 3) → q.w 3 < 512 →
    ((bitAt (q.w 3) 3 = true ∧ s.chip.bit F.TICK_CADENCE_PENDING = true) ∨
          (bitAt (q.w 3) 6 = true ∧ s.chip.bit F.CLK_ECLK_PENDING = true)) → Refuses (.clockConfig m) m 0x21 s) ∧
  (∀ (s : State) (m : Fin 24) (q : NdReq) (p : Nat) (l : List (Nat × Word)),
    q = s.chip.ndReq m → s.chip.Served m 0x050 → q.len = 4 → q.w 1 = 2 ^ 31 + 256 + p → p < 256 →
    s.chip.ndHeld [.sense] = false → s.chip.bit F.SENSE_STATUS_RUNNING = false → s.chip.tandem = false →
    l = [(Reg.SENSE_PT_CFG p, BitVec.ofNat 32 (q.w 2)), (Reg.SENSE_PT_CAL p, BitVec.ofNat 32 (q.w 3)),
          (Reg.SENSE_PT_THR p, BitVec.ofNat 32 (q.w 4)), (Reg.SENSE_CTRL, BitVec.ofNat 32 (2 ^ 31))] →
    (((Chip.ndDirect l s.chip).2 = true) → Answers (.senseConfig m) m 0 none (Chip.ndDirect l s.chip).1 s)) ∧
  (∀ (s : State) (m : Fin 24) (q : NdReq),
    q = s.chip.ndReq m → s.chip.Served m 0x050 → q.len = 1 → q.f 1 29 0 = 0 →
    (bitAt (q.w 1) 30 = true → s.chip.ndHeld [.sense] = false →
        Accepts (.senseConfig m) m ({ q := q, kind := .cal, holds := [.sense] }) none (s.chip) s) ∧
    (s.chip.ndHeld [.sense] = true → Refuses (.senseConfig m) m 0x21 s) ∧
    (bitAt (q.w 1) 30 = false → s.chip.ndHeld [.sense] = false → s.chip.bit F.SENSE_STATUS_RUNNING = true →
        s.chip.fld F.SENSE_CTRL_ORDER = 1 → ∃ t, exec (.senseConfig m) s = .next t ∧
        t.chip.ndo = { s.chip.ndo with
            tasks := s.chip.ndo.tasks ++ [{ q := q, kind := .sense, defer := false, holds := [.sense] }]
            recs := s.chip.ndo.recs.filter (·.1 != m.val) ++ [(m.val, ⟨q, 0, none⟩)] } ∧
        Only [] { s with chip := s.chip } t { s.chip with ndo := t.chip.ndo })) ∧
  (∀ (s : State) (m : Fin 24) (q : NdReq) (k : Nat) (l : List (Nat × Word)) (c : Chip),
    q = s.chip.ndReq m → s.chip.Served m 0x051 → bitAt (q.w 1) 31 = false → q.len = 7 → q.w 1 = k → k < 32 →
    s.chip.ndLedger = false →
    (l = (
            let rest := [(Reg.ACT_PER k, BitVec.ofNat 32 (q.w 3)), (Reg.ACT_LIM k, BitVec.ofNat 32 (q.w 4)),
                  (Reg.ACT_EMAX k, BitVec.ofNat 32 (q.w 5)), (Reg.ACT_CS k, BitVec.ofNat 32 (q.w 6)),
                  (Reg.ACT_VAL k, BitVec.ofNat 32 (q.w 7))]
            if bitAt (q.w 2) 31 then rest ++ [(Reg.ACT_CTRL k, BitVec.ofNat 32 (q.w 2))] else
              (Reg.ACT_CTRL k, BitVec.ofNat 32 (q.w 2)) :: rest)) → ((Chip.ndDirect l s.chip).2 = true) →
    c = (Chip.ndDirect l s.chip).1 →
    Answers (.actConfig m) m (if (c.reg (Reg.ACT_LIM k)).toNat ≠ q.w 4 ∨ (c.reg (Reg.ACT_EMAX k)).toNat ≠ q.w 5 % 2
          ^ 24 ∨ (c.reg (Reg.ACT_CS k)).toNat % 65536 ≠ q.w 6 % 65536 then 1 else 0)
      (some [c.reg (Reg.ACT_LIM k), c.reg (Reg.ACT_EMAX k), c.reg (Reg.ACT_CS k), c.reg Reg.ACT_TRIP]) c s) ∧
  (∀ (s : State) (m : Fin 24) (q : NdReq) (k : Nat) (l : List (Nat × Word)) (c : Chip),
    q = s.chip.ndReq m → s.chip.Served m 0x051 → q.len = 1 → q.w 1 = 2 ^ 31 + k → k < 32 → s.chip.ndLedger = false →
    l = [(Reg.ACT_TRIP, BitVec.ofNat 32 (2 ^ k))] → ((Chip.ndDirect l s.chip).2 = true) →
    c = (Chip.ndDirect l s.chip).1 →
    Answers (.clearTrip m) m (if c.fbit F.ACT_TRIP_TRIP k then 0x25 else 0)
      (some [c.reg (Reg.ACT_LIM k), c.reg (Reg.ACT_EMAX k), c.reg (Reg.ACT_CS k), c.reg Reg.ACT_TRIP]) c s) ∧
  (∀ (s : State) (m : Fin 24) (q : NdReq) (d x : Nat),
    q = s.chip.ndReq m → s.chip.Served m 0x080 → q.len = 1 → q.w 1 = d * 256 + x → x < 4 →
    d ≤ 2 ∨ (0x20 ≤ d ∧ d < 0x46) → (x = 3 → Refuses (.powerState m) m 0x12 s) ∧
    (x ≠ 3 → s.chip.ndHeld [.dom d] = true → Refuses (.powerState m) m 0x21 s) ∧
    (x ≠ 3 → s.chip.ndHeld [.dom d] = false →
        Accepts (.powerState m) m ({ q := q, kind := .power, holds := [.dom d] }) none (s.chip) s)) ∧
  (∀ (s : State) (m : Fin 24) (q : NdReq) (l : List (Nat × Word)),
    q = s.chip.ndReq m → s.chip.Served m 0x090 → q.len = 3 → q.w 3 = 0 →
    l = [(Reg.TLK_CFG, BitVec.ofNat 32 (q.w 1)), (Reg.TLK_FWD, BitVec.ofNat 32 (q.w 2))] →
    ((Chip.ndDirect l s.chip).2 = true) →
    (s.chip.tandem = false → bitAt (q.w 1) 31 = true →
        Accepts (.tandemPair m) m ({ q := q, kind := .pair }) none ((Chip.ndDirect l s.chip).1) s) ∧
    (s.chip.tandem = true ∨ bitAt (q.w 1) 31 = false → Answers (.tandemPair m) m 0 none (Chip.ndDirect l s.chip).1 s)) ∧
  (∀ (s : State) (m : Fin 24) (q : NdReq) (l : List (Nat × Word)),
    q = s.chip.ndReq m → s.chip.Served m 0x090 → q.len = 3 → q.w 3 = 1 →
    l = [(Reg.TLK_CFG, BitVec.ofNat 32 (q.w 1)), (Reg.TLK_FWD, BitVec.ofNat 32 (q.w 2)),
          (Reg.TLK_REJOIN_CTRL, BitVec.ofNat 32 (2 ^ 31 + s.chip.fld F.TLK_REJOIN_CTRL_CLEAN))] →
    ((Chip.ndDirect l s.chip).2 = true) →
    Accepts (.rejoin m) m ({ q := q, kind := .rejoin }) none ((Chip.ndDirect l s.chip).1) s) ∧
  (∀ (s : State) (m : Fin 24) (q : NdReq) (l : List (Nat × Word)),
    q = s.chip.ndReq m → s.chip.Served m 0x090 → q.len = 3 → q.w 3 = 2 →
    s.chip.tandem = true ∨ bitAt (q.w 1) 31 = false →
    l = [(Reg.TLK_CFG, BitVec.ofNat 32 (q.w 1)), (Reg.TLK_FWD, BitVec.ofNat 32 (q.w 2)),
          (Reg.TLK_REJOIN_CTRL, BitVec.ofNat 32 (2 ^ 30 + s.chip.fld F.TLK_REJOIN_CTRL_CLEAN))] →
    ((Chip.ndDirect l s.chip).2 = true) → Answers (.abortRejoin m) m 0 none (Chip.ndDirect l s.chip).1 s) ∧
  (∀ (s : State) (m : Fin 24) (q : NdReq) (l : List (Nat × Word)),
    q = s.chip.ndReq m → s.chip.Served m 0x090 → q.len = 3 → q.w 3 = 4 →
    s.chip.tandem = true ∨ bitAt (q.w 1) 31 = false →
    l = [(Reg.TLK_CFG, BitVec.ofNat 32 (q.w 1)), (Reg.TLK_FWD, BitVec.ofNat 32 (q.w 2)),
          (Reg.TLK_LATCH, BitVec.ofNat 32 (2 ^ 29))] → ((Chip.ndDirect l s.chip).2 = true) →
    Answers (.clearLatch m) m 0 none (Chip.ndDirect l s.chip).1 s) ∧
  (∀ (s : State) (m : Fin 24) (q : NdReq) (l : List (Nat × Word)),
    q = s.chip.ndReq m → s.chip.Served m 0x090 → q.len = 3 → q.w 3 = 16 →
    s.chip.tandem = true ∨ bitAt (q.w 1) 31 = false →
    l = [(Reg.TLK_CFG, BitVec.ofNat 32 (q.w 1)), (Reg.TLK_FWD, BitVec.ofNat 32 (q.w 2)),
          (Reg.TLK_LATCH, BitVec.ofNat 32 (2 ^ 30))] → ((Chip.ndDirect l s.chip).2 = true) →
    Answers (.tandemKillPartner m) m 0 none (Chip.ndDirect l s.chip).1 s) ∧
  (∀ (s : State) (m : Fin 24) (q : NdReq) (l : List (Nat × Word)),
    q = s.chip.ndReq m → s.chip.Served m 0x090 → q.len = 3 → q.w 3 = 32 →
    s.chip.tandem = true ∨ bitAt (q.w 1) 31 = false →
    l = [(Reg.TLK_CFG, BitVec.ofNat 32 (q.w 1)), (Reg.TLK_FWD, BitVec.ofNat 32 (q.w 2)),
          (Reg.TLK_LATCH, BitVec.ofNat 32 (2 ^ 31))] → ((Chip.ndDirect l s.chip).2 = true) →
    Answers (.forceLatch m) m 0 none (Chip.ndDirect l s.chip).1 s) ∧
  (∀ (s : State) (m : Fin 24) (q : NdReq) (l : List (Nat × Word)) (c : Chip),
    q = s.chip.ndReq m → s.chip.Served m 0x090 → q.len = 3 → q.w 3 = 8 → 1 ≤ q.minor →
    s.chip.tandem = true ∨ bitAt (q.w 1) 31 = false →
    l = [(Reg.TLK_CFG, BitVec.ofNat 32 (q.w 1)), (Reg.TLK_FWD, BitVec.ofNat 32 (q.w 2))] →
    ((Chip.ndDirect l s.chip).2 = true) → c = (Chip.ndDirect l s.chip).1 →
    (s.chip.fld F.TLK_STATUS_MINOR = 0 → Refuses (.move m) m 0x25 s) ∧
    (s.chip.fld F.TLK_STATUS_MINOR ≠ 0 → c.ndLedger = false → Answers (.move m) m 0x50 none c s) ∧
    (s.chip.fld F.TLK_STATUS_MINOR ≠ 0 → c.ndLedger = true → (c.ndWrite 0 [(Reg.TLK_TOKEN_MOVE, 1)]).rc ≤ 1 →
        Answers (.move m) m (c.ndWrite 0 [(Reg.TLK_TOKEN_MOVE, 1)]).rc none
          (c.ndWrite 0 [(Reg.TLK_TOKEN_MOVE, 1)]).chip s ∧
        (c.ndWrite 0 [(Reg.TLK_TOKEN_MOVE, 1)]).chip.tlk.entries.map (fun e => (e.addr, e.data)) = c.tlk.entries.map
          (fun e => (e.addr, e.data)) ++ [(Reg.TLK_TOKEN_MOVE, 1)])) ∧
  (∀ (s : State) (m : Fin 24) (l : List Nat),
    s.chip.Served m 0x091 → ((s.chip.ndReq m).len = 0) →
    l = [Reg.TLK_STATUS, Reg.TLK_EVT, Reg.TLK_LATCH, Reg.TLK_REJOIN_STATUS, Reg.TLK_DIV_CNT, Reg.TLK_DIV_TICK_LO,
          Reg.TLK_PART_INFO, Reg.TLK_PART_BUILD] → ((l.all fun a => s.chip.regReached mCp a) = true) →
    ∃ t, exec (.tandemStatus m) s = .next t ∧ t.chip.fld (F.MB_ACK_RC m) = 0 ∧
    Posts ((replyBox m).getD 0) (s.chip.msg m 0) 0x091 (l.map (s.chip.regValue mCp)) t ∧
    t.chip.fld F.TLK_DIV_CNT_COUNT = 0 ∧
    Only (answerKeys m true ++ [Reg.TLK_DIV_CNT]) s t { s.chip with ndo := t.chip.ndo }) ∧
  (∀ (s : State) (m : Fin 24) (q : NdReq) (next : Option Nat) (c : Chip),
    q = s.chip.ndReq m → s.chip.Served m 0x0A0 → 1 ≤ q.len → q.f 1 29 21 = 0 → s.chip.ndHeld [.slot] = false →
    (next = if bitAt (q.w 1) 31 then some 0 else s.chip.ndo.upd) → next = some (q.f 1 20 0) →
    (c = s.chip.modNdo fun n => { n with upd := some (q.f 1 20 0 + (q.len - 1)) }) →
    (bitAt (q.w 1) 31 = true →
        Accepts (.updateStage m false) m ({ q := q, kind := .updFirst, holds := [.slot] }) none (c) s) ∧
    (bitAt (q.w 1) 31 = false → bitAt (q.w 1) 30 = true →
        Accepts (.updateStage m false) m ({ q := q, kind := .updLast, holds := [.slot] }) none (c) s) ∧
    (bitAt (q.w 1) 31 = false → bitAt (q.w 1) 30 = false →
        Answers (.updateStage m false) m 0 none (c.program
              (s.chip.ndSlotAt (1 - s.chip.fld F.SEC_BOOT_STATUS_SLOT) + 0x1000 + 4 * q.f 1 20 0)
              ((q.body.drop 1).flatMap wordBytes)) s)) ∧
  (∀ (s : State) (m : Fin 24) (q : NdReq),
    q = s.chip.ndReq m → s.chip.Served m 0x0A0 → 1 ≤ q.len → q.f 1 29 21 = 0 → s.chip.ndHeld [.slot] = false →
    bitAt (q.w 1) 31 = false → s.chip.ndo.upd ≠ some (q.f 1 20 0) → ∃ t, exec (.updateStage m false) s = .next t ∧
    Answered m (s.chip.msg m 0) 0x12 none false (s.chip.modNdo fun n => { n with upd := none }) s t) ∧
  (∀ (s : State) (m : Fin 24) (q : NdReq),
    q = s.chip.ndReq m → s.chip.Served m 0x0A1 → q.len = 2 →
    (q.w 1 ≠ 0x41445643 ∨ 255 < q.w 2 → Refuses (.counterAdvance m) m 0x12 s) ∧
    (q.w 1 = 0x41445643 → q.w 2 ≤ 255 → s.chip.bit F.SEC_BOOT_STATUS_COMMITTED = false →
        Refuses (.counterAdvance m) m 0x25 s) ∧
    (q.w 1 = 0x41445643 → q.w 2 ≤ 255 → s.chip.bit F.SEC_BOOT_STATUS_COMMITTED = true →
        q.w 2 ≠ s.chip.fld F.SEC_IMG_INFO_ARB → Refuses (.counterAdvance m) m 0x61 s) ∧
    (q.w 1 = 0x41445643 → q.w 2 ≤ 255 → s.chip.bit F.SEC_BOOT_STATUS_COMMITTED = true →
        q.w 2 = s.chip.fld F.SEC_IMG_INFO_ARB →
        Accepts (.counterAdvance m) m ({ q := q, kind := .counter, args := [q.w 2], holds := [.slot] }) none
          (s.chip) s)) ∧
  (∀ (s : State) (m : Fin 24) (q : NdReq) (l : List Nat),
    q = s.chip.ndReq m → s.chip.Served m 0x0F0 → q.len = 2 → q.f 1 7 0 = 1 → q.w 1 < 65536 → 1 ≤ q.f 1 15 8 ∧
    q.f 1 15 8 ≤ 15 → (l = (List.range (q.f 1 15 8)).map (fun i => q.w 2 + 4 * i)) →
    (Chip.ndReads l s.chip).2.2 = true →
    Answers (.regRead m) m 0 (some (Chip.ndReads l s.chip).1) (Chip.ndReads l s.chip).2.1 s) ∧
  (∀ (s : State) (m : Fin 24) (q : NdReq) (l : List (Nat × Word)),
    q = s.chip.ndReq m → s.chip.Served m 0x0F0 → 3 ≤ q.len → q.w 1 = 2 →
    (l = (q.body.drop 2).zipIdx.map (fun x => (q.w 2 + 4 * x.2, x.1))) →
    (2 ≤ s.chip.fld F.ID_LIFECYCLE_STATE → Refuses (.regWrite m) m 0x62 s) ∧
    (s.chip.fld F.ID_LIFECYCLE_STATE < 2 → s.chip.lockstep = true → (l.any fun x => Chip.ledgerRange x.1) = true →
        Refuses (.regWrite m) m 0x51 s) ∧
    (s.chip.fld F.ID_LIFECYCLE_STATE < 2 → s.chip.lockstep = false →
        (l.all fun x => decide (0x40080000 ≤ x.1) && decide (x.1 < 0x40090000)) = true →
        Answers (.regWrite m) m (if (Chip.ndDirect l s.chip).2 then 0 else 0x12) none (Chip.ndDirect l s.chip).1 s)) ∧
  (∀ (s : State) (m : Fin 24) (q : NdReq) (l : List (Nat × Word)),
    q = s.chip.ndReq m → s.chip.Served m 0x0F0 → q.len = 2 → q.w 1 = 3 → q.w 2 &&& 0xF0F00000 = 0 →
    q.f 2 27 24 ≤ 9 → q.f 2 19 16 ≤ 9 →
    s.chip.ndHeld [.eng (q.f 2 19 16), .eng (s.chip.logi (q.f 2 27 24))] = false →
    l = [(Reg.SPARE_CFG, BitVec.ofNat 32 (2 ^ 31 + q.f 2 27 24)), (Reg.MIG_STATUS, 0x30000000),
          (Reg.MIG_CTRL, BitVec.ofNat 32 (2 ^ 31 + q.w 2 % 2 ^ 20))] → ((Chip.ndDirect l s.chip).2 = true) →
    Accepts (.migrate m) m
      ({ q := q, kind := .migrate, holds := [.eng (q.f 2 19 16), .eng (s.chip.logi (q.f 2 27 24))] }) none
      ((Chip.ndDirect l s.chip).1) s) ∧
  (∀ (s : State) (m : Fin 24) (q : NdReq) (l : List (Nat × Word)),
    q = s.chip.ndReq m → s.chip.Served m 0x0F0 → q.len = 2 → q.w 1 = 4 → bitAt (q.w 2) 31 = false → q.f 2 28 4 = 0 →
    q.f 2 3 0 ≤ 9 → s.chip.ndHeld [.eng (s.chip.logi (q.f 2 3 0))] = false → s.chip.bit F.BIST_STATUS_BUSY = false →
    l = [(Reg.BIST_STATUS, BitVec.ofNat 32 (2 ^ 30)), (Reg.BIST_CTRL, BitVec.ofNat 32 (2 ^ 31 + q.w 2))] →
    ((Chip.ndDirect l s.chip).2 = true) →
    ((Chip.ndDirect l s.chip).1.bit F.BIST_STATUS_BUSY = true →
        Accepts (.bist m) m ({ q := q, kind := .bist, holds := [.eng (s.chip.logi (q.f 2 3 0))] }) none
          ((Chip.ndDirect l s.chip).1) s) ∧
    ((Chip.ndDirect l s.chip).1.bit F.BIST_STATUS_BUSY = false →
        Answers (.bist m) m 0x25 none (Chip.ndDirect l s.chip).1 s)) ∧
  (∀ (s : State) (m : Fin 24) (q : NdReq) (l : List (Nat × Word)),
    q = s.chip.ndReq m → s.chip.Served m 0x0F0 → q.len = 2 → q.w 1 = 5 → q.f 2 31 19 = 0 → q.f 2 15 0 ≠ 0 →
    s.chip.ndHeld [.port (q.f 2 18 16)] = false → s.chip.bit F.LOOP_STATUS_BUSY = false →
    l = [(Reg.LOOP_STATUS, BitVec.ofNat 32 (2 ^ 30)), (Reg.LOOP_CTRL, BitVec.ofNat 32 (2 ^ 31 + q.w 2))] →
    ((Chip.ndDirect l s.chip).2 = true) → (q.minor < 3 → Refuses (.loop m) m 0x13 s) ∧
    (3 ≤ q.minor → (Chip.ndDirect l s.chip).1.bit F.LOOP_STATUS_BUSY = true →
        Accepts (.loop m) m ({ q := q, kind := .loop, holds := [.port (q.f 2 18 16)] }) none
          ((Chip.ndDirect l s.chip).1) s) ∧
    (3 ≤ q.minor → (Chip.ndDirect l s.chip).1.bit F.LOOP_STATUS_BUSY = false →
        Answers (.loop m) m 0x25 none (Chip.ndDirect l s.chip).1 s)) ∧
  (∀ (s : State) (m : Fin 24) (l : List Nat),
    s.chip.Served m 0x0F0 → ((s.chip.ndReq m).len = 1) → ((s.chip.ndReq m).w 1 = 6) →
    l = [Reg.REPLAY_CNT, Reg.STRM_MISS_TOTAL, Reg.STRM_SQUASH_CNT, Reg.TLK_DIV_CNT, Reg.TLK_LINK_CNT] →
    ((l.all fun a => s.chip.regReached mCp a) = true) → ∃ t, exec (.counters m) s = .next t ∧
    t.chip.fld (F.MB_ACK_RC m) = 0 ∧
    Posts ((replyBox m).getD 0) (s.chip.msg m 0) 0x0F0 (l.map (s.chip.regValue mCp)) t ∧
    (l.all fun a => t.chip.reg a == 0) = true ∧ Only (answerKeys m true ++ l) s t { s.chip with ndo := t.chip.ndo }) ∧
  (∀ (s : State) (j : Nat) (bad : Bool),
    s.chip.Quiet → s.chip.ndo.tasks.length ≤ j → ∃ t, exec (.deferredCompletion j bad) s = .next t ∧
    t.chip.ndo = s.chip.ndo ∧ Only [] s t s.chip) ∧
  (∀ (s : State) (k : NdTask) (r : Nat),
    s.chip.Quiet → s.chip.ndo.tasks = [k] → k.kind = .swapWait → k.defer = true → replyBox k.q.mb = some r →
    s.chip.mbState r = 0 → s.chip.bit (F.SWAP_CTRL_DONE (k.args.getD 0 0)) = true → k.args.getD 1 0 ≤ s.chip.now →
    k.words.length ≤ 2 → ∃ t, exec (.deferredCompletion 0 false) s = .next t ∧
    Posts r k.q.head (k.q.op + 0x800) (BitVec.ofNat 32 (0) :: k.words) t ∧
    t.chip.ndo = { s.chip.ndo with tasks := [] } ∧
    Only ([Reg.EVT_PEND 0, Reg.MB_STATUS r, Reg.MB_STAMP r, Reg.MB_POST_TICK r, Reg.MB_GORES r + mCp * 2 ^ 32] ++
          (List.range 16).map (Reg.MB_DATA r) ++ []) s t { s.chip with ndo := t.chip.ndo }) ∧
  (∀ (s : State) (k : NdTask) (r : Nat),
    s.chip.Quiet → s.chip.ndo.tasks = [k] → k.kind = .bist → k.defer = true → replyBox k.q.mb = some r →
    s.chip.mbState r = 0 → s.chip.bit F.BIST_STATUS_BUSY = false →
    ∃ t, exec (.deferredCompletion 0 false) s = .next t ∧
    Posts r k.q.head (k.q.op + 0x800)
      (BitVec.ofNat 32 (if s.chip.bit F.BIST_STATUS_FAIL then 0x41 else 0) :: [s.chip.reg Reg.BIST_STATUS]) t ∧
    t.chip.ndo = { s.chip.ndo with tasks := [] } ∧
    Only ([Reg.EVT_PEND 0, Reg.MB_STATUS r, Reg.MB_STAMP r, Reg.MB_POST_TICK r, Reg.MB_GORES r + mCp * 2 ^ 32] ++
          (List.range 16).map (Reg.MB_DATA r) ++ []) s t { s.chip with ndo := t.chip.ndo }) ∧
  (∀ (s : State) (k : NdTask) (r : Nat),
    s.chip.Quiet → s.chip.ndo.tasks = [k] → k.kind = .migrate → k.defer = true → replyBox k.q.mb = some r →
    s.chip.mbState r = 0 → s.chip.bit F.MIG_STATUS_DONE = true → s.chip.bit F.MIG_STATUS_ABORTED = false →
    ∃ t, exec (.deferredCompletion 0 false) s = .next t ∧
    Posts r k.q.head (k.q.op + 0x800) (BitVec.ofNat 32 (0) :: [s.chip.reg Reg.MIG_STATUS]) t ∧
    t.chip.ndo = { s.chip.ndo with tasks := [] } ∧
    Only ([Reg.EVT_PEND 0, Reg.MB_STATUS r, Reg.MB_STAMP r, Reg.MB_POST_TICK r, Reg.MB_GORES r + mCp * 2 ^ 32] ++
          (List.range 16).map (Reg.MB_DATA r) ++ []) s t { s.chip with ndo := t.chip.ndo }) ∧
  (∀ (s : State) (k : NdTask) (r : Nat),
    s.chip.Quiet → s.chip.ndo.tasks = [k] → k.kind = .pair → k.defer = true → replyBox k.q.mb = some r →
    s.chip.mbState r = 0 → s.chip.fld F.TLK_STATUS_FAIL_REASON ≠ 0 ∨ 4 ≤ s.chip.tlkState →
    ∃ t, exec (.deferredCompletion 0 false) s = .next t ∧
    Posts r k.q.head (k.q.op + 0x800)
      (BitVec.ofNat 32 (if s.chip.fld F.TLK_STATUS_FAIL_REASON ≠ 0 then 0x41 else 0) :: [s.chip.reg Reg.TLK_STATUS])
      t ∧ t.chip.ndo = { s.chip.ndo with tasks := [] } ∧
    Only ([Reg.EVT_PEND 0, Reg.MB_STATUS r, Reg.MB_STAMP r, Reg.MB_POST_TICK r, Reg.MB_GORES r + mCp * 2 ^ 32] ++
          (List.range 16).map (Reg.MB_DATA r) ++ []) s t { s.chip with ndo := t.chip.ndo }) ∧
  (∀ (s : State) (k : NdTask) (r : Nat),
    s.chip.Quiet → s.chip.ndo.tasks = [k] → k.kind = .rejoin → k.defer = true → replyBox k.q.mb = some r →
    s.chip.mbState r = 0 → s.chip.fld F.TLK_REJOIN_STATUS_PHASE = 0 → s.chip.bit F.TLK_REJOIN_STATUS_DONE = true →
    s.chip.bit F.TLK_REJOIN_STATUS_ABORTED = false → ∃ t, exec (.deferredCompletion 0 false) s = .next t ∧
    Posts r k.q.head (k.q.op + 0x800) (BitVec.ofNat 32 (0) :: [s.chip.reg Reg.TLK_REJOIN_STATUS]) t ∧
    t.chip.ndo = { s.chip.ndo with tasks := [] } ∧
    Only ([Reg.EVT_PEND 0, Reg.MB_STATUS r, Reg.MB_STAMP r, Reg.MB_POST_TICK r, Reg.MB_GORES r + mCp * 2 ^ 32] ++
          (List.range 16).map (Reg.MB_DATA r) ++ []) s t { s.chip with ndo := t.chip.ndo }) ∧
  (∀ (s : State) (k : NdTask) (r : Nat),
    s.chip.Quiet → s.chip.ndo.tasks = [k] → k.kind = .loop → k.defer = true → replyBox k.q.mb = some r →
    s.chip.mbState r = 0 → s.chip.bit F.LOOP_STATUS_BUSY = false →
    ∃ t, exec (.deferredCompletion 0 false) s = .next t ∧
    Posts r k.q.head (k.q.op + 0x800) (BitVec.ofNat 32
          (if s.chip.fld F.LOOP_STATUS_ERR_CNT ≠ 0 ∨ s.chip.bit F.LOOP_STATUS_SYNC = false then 0x41 else 0) :: [])
      t ∧ t.chip.ndo = { s.chip.ndo with tasks := [] } ∧
    Only ([Reg.EVT_PEND 0, Reg.MB_STATUS r, Reg.MB_STAMP r, Reg.MB_POST_TICK r, Reg.MB_GORES r + mCp * 2 ^ 32] ++
          (List.range 16).map (Reg.MB_DATA r) ++ []) s t { s.chip with ndo := t.chip.ndo }) ∧
  (∀ (s : State) (k : NdTask) (r : Nat),
    s.chip.Quiet → s.chip.ndo.tasks = [k] → k.kind = .power → k.defer = true → replyBox k.q.mb = some r →
    s.chip.mbState r = 0 → k.stage = 0 → k.item < k.q.len → bits (k.q.w (k.item + 1)) 15 8 ≤ 2 →
    ∃ t, exec (.deferredCompletion 0 false) s = .next t ∧
    Posts r k.q.head (k.q.op + 0x800) (BitVec.ofNat 32 (0x70) :: [BitVec.ofNat 32 (bits (k.q.w (k.item + 1)) 15 8)])
      t ∧ t.chip.ndo = { s.chip.ndo with tasks := [] } ∧
    Only ([Reg.EVT_PEND 0, Reg.MB_STATUS r, Reg.MB_STAMP r, Reg.MB_POST_TICK r, Reg.MB_GORES r + mCp * 2 ^ 32] ++
          (List.range 16).map (Reg.MB_DATA r) ++ []) s t { s.chip with ndo := t.chip.ndo }) ∧
  (∀ (s : State) (k : NdTask) (r : Nat),
    s.chip.Quiet → s.chip.ndo.tasks = [k] → k.kind = .power → k.defer = true → replyBox k.q.mb = some r →
    s.chip.mbState r = 0 → k.q.len ≤ k.item → ∃ t, exec (.deferredCompletion 0 false) s = .next t ∧
    Posts r k.q.head (k.q.op + 0x800) (BitVec.ofNat 32 (0) :: [0]) t ∧
    t.chip.ndo = { s.chip.ndo with tasks := [] } ∧
    Only ([Reg.EVT_PEND 0, Reg.MB_STATUS r, Reg.MB_STAMP r, Reg.MB_POST_TICK r, Reg.MB_GORES r + mCp * 2 ^ 32] ++
          (List.range 16).map (Reg.MB_DATA r) ++ []) s t { s.chip with ndo := t.chip.ndo }) ∧
  (∀ (s : State) (k : NdTask) (r : Nat) (c : Chip),
    s.chip.Quiet → s.chip.ndo.tasks = [k] → k.kind = .cal → k.defer = true → replyBox k.q.mb = some r →
    s.chip.mbState r = 0 → k.stage = 2 → s.chip.bit F.SENSE_STATUS_CAL_BUSY = false →
    c = (Chip.ndDirect [(Reg.SENSE_CTRL, Chip.ndSenseCtrl k.q (bitAt (k.q.w 1) 31))] s.chip).1 →
    ∃ t, exec (.deferredCompletion 0 false) s = .next t ∧
    Posts r k.q.head (k.q.op + 0x800)
      (BitVec.ofNat 32 (if s.chip.bit F.SENSE_STATUS_CAL_FAIL then 0x41 else 0) :: []) t ∧
    t.chip.ndo = { s.chip.ndo with tasks := [] } ∧
    Only ([Reg.EVT_PEND 0, Reg.MB_STATUS r, Reg.MB_STAMP r, Reg.MB_POST_TICK r, Reg.MB_GORES r + mCp * 2 ^ 32] ++
          (List.range 16).map (Reg.MB_DATA r) ++ [Reg.SENSE_CTRL]) s t { c with ndo := t.chip.ndo }) ∧
  (∀ (s : State) (k : NdTask) (r : Nat),
    s.chip.Quiet → s.chip.ndo.tasks = [k] → k.kind = .counter → k.defer = true → replyBox k.q.mb = some r →
    s.chip.mbState r = 0 → k.args = [s.otp.counter] → ∃ t, exec (.deferredCompletion 0 false) s = .next t ∧
    Posts r k.q.head (k.q.op + 0x800) (BitVec.ofNat 32 (0) :: [BitVec.ofNat 32 s.otp.counter]) t ∧
    t.chip.ndo = { s.chip.ndo with tasks := [] } ∧
    Only ([Reg.EVT_PEND 0, Reg.MB_STATUS r, Reg.MB_STAMP r, Reg.MB_POST_TICK r, Reg.MB_GORES r + mCp * 2 ^ 32] ++
          (List.range 16).map (Reg.MB_DATA r) ++ []) s t { s.chip with ndo := t.chip.ndo })

/-- Recovery boot's requests (R403, R404). -/
def Obligations.recoveryRequests : Prop :=
  (∀ (s : State),
    s.chip.Calm → s.chip.recAsked 1 = true → s.chip.msgLen 0 = 0 → s.chip.mbState 4 = 0 →
    ∃ t, exec .recoveryHello s = .next t ∧ t.chip.mbState 0 = 2 ∧ t.chip.fld (F.MB_ACK_RC 0) = 0 ∧
    Posts 4 (s.chip.msg 0 0) 1 [s.otp.stateWord, s.chip.flashWord (Chip.slotAt s.otp 0), s.chip.flashWord
          (Chip.slotAt s.otp 1), s.chip.reg Reg.SEC_BOOT_STATUS] t ∧
    Only ([Reg.MB_STATUS 0, Reg.MB_ACK 0, Reg.EVT_PEND 0, Reg.MB_STATUS 4, Reg.MB_STAMP 4, Reg.MB_POST_TICK 4,
              Reg.MB_GORES 4 + mSecp * 2 ^ 32] ++ (List.range 16).map (Reg.MB_DATA 4)) s t s.chip) ∧
  (∀ (s : State),
    s.chip.Calm → s.chip.recovery = true → s.chip.mbState 0 = 1 →
    s.chip.msgOp 0 ∉ [1, 0x10, 0x11, 0x12, 0x13, 0x20, 0x21, 0x30] → ∃ t, exec .recoveryHello s = .next t ∧
    t.chip.mbState 0 = 2 ∧ t.chip.fld (F.MB_ACK_RC 0) = 0x10 ∧
    Only [Reg.MB_STATUS 0, Reg.MB_ACK 0, Reg.EVT_PEND 0] s t s.chip) ∧
  (∀ (s : State),
    s.chip.Calm → s.chip.recovery = false ∨ s.chip.mbState 0 ≠ 1 →
    (∃ t, exec .recoveryHello s = .next t ∧ Only [] s t s.chip) ∧
    (∃ t, exec .recoveryLoad s = .next t ∧ Only [] s t s.chip) ∧
    (∃ t, exec .recoveryCheck s = .next t ∧ Only [] s t s.chip) ∧
    (∃ t, exec (.recoveryWrite false) s = .next t ∧ Only [] s t s.chip) ∧
    (∃ t, exec .recoveryBoot s = .next t ∧ Only [] s t s.chip) ∧
    (∃ t, exec .enrol s = .next t ∧ Only [] s t s.chip) ∧ (∃ t, exec .lifecycle s = .next t ∧ Only [] s t s.chip) ∧
    (∃ t, exec .recoveryReboot s = .next t ∧ Only [] s t s.chip)) ∧
  (∀ (s : State) (at_ n : Nat),
    s.chip.Calm → s.chip.recAsked 0x10 = true → s.chip.msgLen 0 = n + 1 → 1 ≤ n →
    bits (s.chip.msg 0 1).toNat 27 21 = 0 → at_ = bits (s.chip.msg 0 1).toNat 20 0 → 4 * (at_ + n) ≤ 8388640 →
    (at_ = if bitAt (s.chip.msg 0 1).toNat 31 then 0 else s.chip.sec.buf) →
    (∀ b : Nat, b < 32 → s.chip.seraiState b = 0) → ∃ t, exec .recoveryLoad s = .next t ∧ t.chip.mbState 0 = 2 ∧
    t.chip.fld (F.MB_ACK_RC 0) = 0 ∧ t.chip.sec = { s.chip.sec with checked := none, buf := at_ + n } ∧
    (∀ i, i < n → t.chip.peek (seraiAddr (at_ + i)) = s.chip.msg 0 (2 + i)) ∧
    Only [Reg.MB_STATUS 0, Reg.MB_ACK 0, Reg.EVT_PEND 0] s t
      { s.chip with sec := t.chip.sec, mem := t.chip.mem, ecc := t.chip.ecc, tags := t.chip.tags }) ∧
  (∀ (s : State),
    s.chip.Calm → s.chip.recAsked 0x10 = true → 2 ≤ s.chip.msgLen 0 → bits (s.chip.msg 0 1).toNat 27 21 = 0 →
    bitAt (s.chip.msg 0 1).toNat 31 = false →
    4 * (bits (s.chip.msg 0 1).toNat 20 0 + (s.chip.msgLen 0 - 1)) ≤ 8388640 →
    bits (s.chip.msg 0 1).toNat 20 0 ≠ s.chip.sec.buf → ∃ t, exec .recoveryLoad s = .next t ∧ t.chip.mbState 0 = 2 ∧
    t.chip.fld (F.MB_ACK_RC 0) = 0x12 ∧ t.chip.sec.buf = 0 ∧ t.chip.sec.checked = none ∧
    Only [Reg.MB_STATUS 0, Reg.MB_ACK 0, Reg.EVT_PEND 0] s t { s.chip with sec := t.chip.sec }) ∧
  (∀ (s : State) (rc : Nat),
    s.chip.Calm → s.chip.recAsked 0x11 = true → s.chip.msgLen 0 = 0 → s.chip.mbState 4 = 0 →
    rc = s.chip.recVerdict s.otp → ∃ t, exec .recoveryCheck s = .next t ∧ t.chip.mbState 0 = 2 ∧
    t.chip.fld (F.MB_ACK_RC 0) = rc ∧
    (rc ≠ 0 → t.chip.sec.checked = none ∧ t.chip.bit F.SEC_EVT_IMG = true ∧
        Only ([Reg.MB_STATUS 0, Reg.MB_ACK 0, Reg.EVT_PEND 0] ++ [Reg.SEC_EVT, Reg.EVT_PEND 3]) s t
          { s.chip with sec := t.chip.sec }) ∧
    (rc = 0 → t.chip.sec.checked = some (imgLength s.chip.bufByte, BitVec.ofNat 32 (imgWord s.chip.bufByte 8)) ∧
        Posts 4 (s.chip.msg 0 0) 0x11
          [BitVec.ofNat 32 (imgLength s.chip.bufByte), BitVec.ofNat 32 (imgWord s.chip.bufByte 8)] t ∧
        Only ([Reg.MB_STATUS 0, Reg.MB_ACK 0, Reg.EVT_PEND 0, Reg.MB_STATUS 4, Reg.MB_STAMP 4, Reg.MB_POST_TICK 4,
                  Reg.MB_GORES 4 + mSecp * 2 ^ 32] ++ (List.range 16).map (Reg.MB_DATA 4)) s t
          { s.chip with sec := t.chip.sec })) ∧
  (∀ (s : State) (k base : Nat) (img : List Byte),
    s.chip.Calm → s.chip.recAsked 0x12 = true → s.chip.msgLen 0 = 1 → ((s.chip.msg 0 1).toNat = k) → k ≤ 1 →
    s.chip.sec.checked.isSome = true → base = Chip.slotAt s.otp k →
    img = (List.range (imgLength s.chip.bufByte + 32)).map s.chip.bufByte →
    (∃ t, exec (.recoveryWrite false) s = .next t ∧ t.chip.mbState 0 = 2 ∧ t.chip.fld (F.MB_ACK_RC 0) = 0 ∧
        t.chip.flash =
          (((s.chip.erase base 0x802000).program (base + 0x1000) img).program base (wordBytes 0xFFFFFF00)).flash ∧
        Only [Reg.MB_STATUS 0, Reg.MB_ACK 0, Reg.EVT_PEND 0] s t { s.chip with flash := t.chip.flash }) ∧
    (∃ t, exec (.recoveryWrite true) s = .next t ∧ t.chip.mbState 0 = 2 ∧ t.chip.fld (F.MB_ACK_RC 0) = 0x60 ∧
        Only [Reg.MB_STATUS 0, Reg.MB_ACK 0, Reg.EVT_PEND 0] s t { s.chip with flash := t.chip.flash })) ∧
  (∀ (s : State),
    s.chip.Calm → s.chip.recAsked 0x12 = true →
    (s.chip.msgLen 0 ≠ 1 → ∃ t, exec (.recoveryWrite false) s = .next t ∧ t.chip.mbState 0 = 2 ∧
        t.chip.fld (F.MB_ACK_RC 0) = 0x11 ∧ Only [Reg.MB_STATUS 0, Reg.MB_ACK 0, Reg.EVT_PEND 0] s t s.chip) ∧
    (s.chip.msgLen 0 = 1 → 1 < (s.chip.msg 0 1).toNat → ∃ t, exec (.recoveryWrite false) s = .next t ∧
        t.chip.mbState 0 = 2 ∧ t.chip.fld (F.MB_ACK_RC 0) = 0x12 ∧
        Only [Reg.MB_STATUS 0, Reg.MB_ACK 0, Reg.EVT_PEND 0] s t s.chip) ∧
    (s.chip.msgLen 0 = 1 → (s.chip.msg 0 1).toNat ≤ 1 → s.chip.sec.checked = none →
        ∃ t, exec (.recoveryWrite false) s = .next t ∧ t.chip.mbState 0 = 2 ∧ t.chip.fld (F.MB_ACK_RC 0) = 0x25 ∧
        Only [Reg.MB_STATUS 0, Reg.MB_ACK 0, Reg.EVT_PEND 0] s t s.chip)) ∧
  (∀ (s : State),
    s.chip.Calm → s.chip.recAsked 0x13 = true → s.chip.msgLen 0 = 0 →
    (s.chip.sec.checked = none → ∃ t, exec .recoveryBoot s = .next t ∧ t.chip.mbState 0 = 2 ∧
        t.chip.fld (F.MB_ACK_RC 0) = 0x25 ∧ Only [Reg.MB_STATUS 0, Reg.MB_ACK 0, Reg.EVT_PEND 0] s t s.chip) ∧
    (s.chip.sec.checked.isSome = true → ∃ t, exec .recoveryBoot s = .next t ∧
        t.chip.fld F.SEC_BOOT_STATUS_PATH = 3 ∧ t.chip.bit F.SEC_CTRL_KEY_LOCK = true ∧
        t.chip.bit F.MB_LOCK_LOCK = true ∧ t.chip.bit F.SEC_OSPI_WP_WP_LOCK = true ∧
        t.chip.bit F.READY_RECOVERY = false ∧ t.chip.bit F.SEC_CTRL_RELEASED = true ∧ t.pending = s.pending)) ∧
  (∀ (s : State),
    s.chip.Calm → s.chip.recAsked 0x20 = true → s.chip.msgLen 0 = 9 →
    (s.otp.lc ≠ 0 → ∃ t, exec .enrol s = .next t ∧ t.chip.mbState 0 = 2 ∧ t.chip.fld (F.MB_ACK_RC 0) = 0x62 ∧
        Only [Reg.MB_STATUS 0, Reg.MB_ACK 0, Reg.EVT_PEND 0] s t s.chip) ∧
    (s.otp = {} → s.chip.bit F.SEC_CTRL_KEY_LOCK = false → ∃ t, exec .enrol s = .next t ∧ t.chip.mbState 0 = 2 ∧
        t.chip.fld (F.MB_ACK_RC 0) = 0 ∧ t.otp.lc = 1 ∧ t.otp.slot = s.chip.msg 0 1 ∧ t.otp.slotSet = true ∧
        t.otp.cikSet = true ∧ t.otp.dukSet = true ∧
        t.otp.cik = BitVec.ofNat 256
          (((List.range 8).map fun i => s.chip.msg 0 (2 + i)).foldr (fun w n => n * 2 ^ 32 + w.toNat) 0) ∧
        t.otp.arb = s.otp.arb ∧ t.otp.ceil = s.otp.ceil ∧ KeepsMem s t)) ∧
  (∀ (s : State) (n : Nat),
    s.chip.Calm → s.chip.recAsked 0x21 = true → s.chip.msgLen 0 = 2 → ((s.chip.msg 0 1).toNat = n) →
    ((n ≠ 2 ∧ n ≠ 3) ∨ s.chip.msg 0 2 ≠ 0x4C435943 → ∃ t, exec .lifecycle s = .next t ∧ t.chip.mbState 0 = 2 ∧
        t.chip.fld (F.MB_ACK_RC 0) = 0x12 ∧ Only [Reg.MB_STATUS 0, Reg.MB_ACK 0, Reg.EVT_PEND 0] s t s.chip) ∧
    (n = 2 ∨ n = 3 → s.chip.msg 0 2 = 0x4C435943 → n ≤ s.otp.lc → ∃ t, exec .lifecycle s = .next t ∧
        t.chip.mbState 0 = 2 ∧ t.chip.fld (F.MB_ACK_RC 0) = 0x62 ∧
        Only [Reg.MB_STATUS 0, Reg.MB_ACK 0, Reg.EVT_PEND 0] s t s.chip) ∧
    (n = 2 ∨ n = 3 → s.chip.msg 0 2 = 0x4C435943 → s.otp.lc < n → ∃ t, exec .lifecycle s = .next t ∧
        t.chip.mbState 0 = 2 ∧ t.chip.fld (F.MB_ACK_RC 0) = 0 ∧ t.otp.lc = n ∧ t.otp.arb = s.otp.arb ∧
        t.otp.slot = s.otp.slot ∧ t.otp.ceil = s.otp.ceil ∧
        (n = 2 → t.otp.cik = s.otp.cik ∧ t.otp.duk = s.otp.duk) ∧
        (n = 3 → t.otp.cik = BitVec.allOnes 256 ∧ t.otp.duk = BitVec.allOnes 256) ∧
        t.chip.fld F.ID_LIFECYCLE_STATE = n ∧ KeepsMem s t)) ∧
  (∀ (s : State),
    s.chip.Calm → s.chip.recAsked 0x30 = true →
    (s.chip.msgLen 0 ≠ 0 → ∃ t, exec .recoveryReboot s = .next t ∧ t.chip.mbState 0 = 2 ∧
        t.chip.fld (F.MB_ACK_RC 0) = 0x11 ∧ Only [Reg.MB_STATUS 0, Reg.MB_ACK 0, Reg.EVT_PEND 0] s t s.chip) ∧
    (s.chip.msgLen 0 = 0 → ∃ t, exec .recoveryReboot s = .next t ∧ t.chip.bit F.PMU_RST_CAUSE_REBOOT = true ∧
        t.chip.sec.romDue = true ∧ t.chip.sec.sample = true ∧ t.chip.mem = s.chip.mem ∧ t.chip.lost = s.chip.lost ∧
        (s.chip.sec.ospi = none → t.chip.flash = s.chip.flash) ∧ t.pending = s.pending))

/-- Boot, fuses, seal, boot flash and debug access (spec/17). What DUK_GEN blows is a free value (log entry 6). -/
def Obligations.bootAndSecurity : Prop :=
  (∀ (s : State) (bs late : BitVec 2),
    s.chip.Calm → s.chip.sec.romDue = false → ∃ t, exec (.bootRomStart bs late) s = .next t ∧ Only [] s t s.chip) ∧
  (∀ (s : State) (bs late : BitVec 2),
    s.chip.Calm → s.chip.sec.romDue = true → s.chip.sec.sample = true → s.chip.sec.woke = false → s.otp.lc ≠ 3 →
    bs = 1 ∨ bs = 2 → ∃ t, exec (.bootRomStart bs late) s = .next t ∧ t.chip.sec.romDue = false ∧
    t.chip.fld F.SEC_BOOT_STATUS_PATH = 2 ∧ t.chip.fld F.SEC_BOOT_STATUS_REC_CAUSE = 1 ∧
    t.chip.bit F.READY_RECOVERY = true ∧ t.chip.reg (Reg.MB_ACL 0) = 0x1C ∧ t.chip.reg (Reg.MB_ACL 4) = 1 ∧
    t.chip.bit F.SEC_CTRL_KEY_LOCK = s.chip.bit F.SEC_CTRL_KEY_LOCK ∧ t.chip.flash = s.chip.flash ∧ t.otp = s.otp ∧
    t.pending = s.pending ∧ KeepsMem s t) ∧
  (∀ (s : State) (bs late : BitVec 2),
    s.chip.Calm → s.chip.sec.romDue = true → s.chip.sec.sample = true → s.chip.sec.woke = false → s.otp.lc ≠ 3 →
    bs = 0 → late = 0 → s.chip.flashWord (Chip.slotAt s.otp 0) = 0xFFFFFFFF →
    s.chip.flashWord (Chip.slotAt s.otp 1) = 0xFFFFFFFF → ∃ t, exec (.bootRomStart bs late) s = .next t ∧
    t.chip.fld F.SEC_BOOT_STATUS_PATH = 2 ∧ t.chip.fld F.SEC_BOOT_STATUS_REC_CAUSE = 2 ∧
    t.chip.fld F.SEC_BOOT_STATUS_REJ_A = 1 ∧ t.chip.fld F.SEC_BOOT_STATUS_REJ_B = 1 ∧
    t.chip.bit F.SEC_EVT_IMG = true ∧ t.chip.bit F.CLK_STATUS_SYS_LOCK = true ∧ t.chip.flash = s.chip.flash ∧
    t.otp = s.otp ∧ KeepsMem s t) ∧
  (∀ (s : State) (bs late : BitVec 2),
    s.chip.Calm → s.chip.sec.romDue = true → s.otp.lc = 3 → ∃ t, exec (.bootRomStart bs late) s = .next t ∧
    t.chip.fld F.SEC_BOOT_STATUS_PATH = 0 ∧ t.chip.sec.romDue = false ∧ t.chip.flash = s.chip.flash ∧
    t.chip.cores = s.chip.cores ∧ t.otp = s.otp ∧ KeepsMem s t) ∧
  (∀ (s : State) (m : Master) (v : Word),
    s.chip.Calm → s.chip.writes m Reg.SEC_CTRL = true → bitAt v.toNat 31 = false → bitAt v.toNat 30 = false →
    ∃ t, exec (.keyLock m v) s = .next t ∧ t.chip.bit F.SEC_CTRL_KEY_LOCK = true ∧ Only [Reg.SEC_CTRL] s t s.chip) ∧
  (∀ (s : State) (m : Master) (v : Word),
    s.chip.Calm → s.chip.writes m Reg.SEC_CTRL = true → bitAt v.toNat 31 = false →
    ∃ t, exec (.reboot m v) s = .next t ∧ t.chip.bit F.PMU_RST_CAUSE_REBOOT = true ∧ t.chip.sec.romDue = true ∧
    t.chip.sec.sample = true ∧ t.chip.bit F.MB_LOCK_LOCK = false ∧ (∀ p, p < 12 → t.chip.core p = {}) ∧
    (∀ p, p < 10 → t.chip.engState p = 0) ∧ t.chip.mem = s.chip.mem ∧ t.chip.lost = s.chip.lost ∧
    (s.chip.sec.ospi = none → t.chip.flash = s.chip.flash) ∧ t.pending = s.pending) ∧
  (∀ (s : State) (m : Master) (v : Word),
    s.chip.Calm → s.chip.writes m Reg.FUSE_CMD = true → s.chip.bit F.FUSE_STATUS_BUSY = false →
    (∃ t, exec (.arbSet m v) s = .next t ∧ t.chip.bit F.FUSE_STATUS_BUSY = true ∧ t.chip.fld F.FUSE_CMD_OP = 1 ∧
        t.chip.fld F.FUSE_CMD_ARG = bits v.toNat 7 0 ∧
        Only [Reg.FUSE_CMD, Reg.FUSE_STATUS] s t { s.chip with
            sec := { s.chip.sec with
                    fuseOp := some {
                            op := 1
                            arg := bits v.toNat 7 0
                            locked := s.chip.bit F.SEC_CTRL_KEY_LOCK
                            data := (List.range 8).map fun i => s.chip.reg (Reg.FUSE_DATA i) } } }) ∧
    (∃ t, exec (.lcAdvance m v) s = .next t ∧ t.chip.bit F.FUSE_STATUS_BUSY = true ∧ t.chip.fld F.FUSE_CMD_OP = 2 ∧
        t.chip.fld F.FUSE_CMD_ARG = bits v.toNat 7 0 ∧
        Only [Reg.FUSE_CMD, Reg.FUSE_STATUS] s t { s.chip with
            sec := { s.chip.sec with
                    fuseOp := some {
                            op := 2
                            arg := bits v.toNat 7 0
                            locked := s.chip.bit F.SEC_CTRL_KEY_LOCK
                            data := (List.range 8).map fun i => s.chip.reg (Reg.FUSE_DATA i) } } }) ∧
    (∃ t, exec (.slotProg m v) s = .next t ∧ t.chip.bit F.FUSE_STATUS_BUSY = true ∧ t.chip.fld F.FUSE_CMD_OP = 3 ∧
        t.chip.fld F.FUSE_CMD_ARG = bits v.toNat 7 0 ∧
        Only [Reg.FUSE_CMD, Reg.FUSE_STATUS] s t { s.chip with
            sec := { s.chip.sec with
                    fuseOp := some {
                            op := 3
                            arg := bits v.toNat 7 0
                            locked := s.chip.bit F.SEC_CTRL_KEY_LOCK
                            data := (List.range 8).map fun i => s.chip.reg (Reg.FUSE_DATA i) } } }) ∧
    (∃ t, exec (.cikProg m v) s = .next t ∧ t.chip.bit F.FUSE_STATUS_BUSY = true ∧ t.chip.fld F.FUSE_CMD_OP = 4 ∧
        t.chip.fld F.FUSE_CMD_ARG = bits v.toNat 7 0 ∧
        Only [Reg.FUSE_CMD, Reg.FUSE_STATUS] s t { s.chip with
            sec := { s.chip.sec with
                    fuseOp := some {
                            op := 4
                            arg := bits v.toNat 7 0
                            locked := s.chip.bit F.SEC_CTRL_KEY_LOCK
                            data := (List.range 8).map fun i => s.chip.reg (Reg.FUSE_DATA i) } } }) ∧
    (∃ t, exec (.dukGen m v) s = .next t ∧ t.chip.bit F.FUSE_STATUS_BUSY = true ∧ t.chip.fld F.FUSE_CMD_OP = 5 ∧
        t.chip.fld F.FUSE_CMD_ARG = bits v.toNat 7 0 ∧
        Only [Reg.FUSE_CMD, Reg.FUSE_STATUS] s t { s.chip with
            sec := { s.chip.sec with
                    fuseOp := some {
                            op := 5
                            arg := bits v.toNat 7 0
                            locked := s.chip.bit F.SEC_CTRL_KEY_LOCK
                            data := (List.range 8).map fun i => s.chip.reg (Reg.FUSE_DATA i) } } }) ∧
    (∃ t, exec (.ceilProg m v) s = .next t ∧ t.chip.bit F.FUSE_STATUS_BUSY = true ∧ t.chip.fld F.FUSE_CMD_OP = 6 ∧
        t.chip.fld F.FUSE_CMD_ARG = bits v.toNat 7 0 ∧
        Only [Reg.FUSE_CMD, Reg.FUSE_STATUS] s t { s.chip with
            sec := { s.chip.sec with
                    fuseOp := some {
                            op := 6
                            arg := bits v.toNat 7 0
                            locked := s.chip.bit F.SEC_CTRL_KEY_LOCK
                            data := (List.range 8).map fun i => s.chip.reg (Reg.FUSE_DATA i) } } })) ∧
  (∀ (s : State) (m : Master) (v : Word),
    s.chip.Calm → s.chip.writes m Reg.FUSE_CMD = true → s.chip.bit F.FUSE_STATUS_BUSY = true →
    (∃ t, exec (.arbSet m v) s = .next t ∧ Only [Reg.FUSE_CMD] s t s.chip) ∧
    (∃ t, exec (.lcAdvance m v) s = .next t ∧ Only [Reg.FUSE_CMD] s t s.chip) ∧
    (∃ t, exec (.slotProg m v) s = .next t ∧ Only [Reg.FUSE_CMD] s t s.chip) ∧
    (∃ t, exec (.cikProg m v) s = .next t ∧ Only [Reg.FUSE_CMD] s t s.chip) ∧
    (∃ t, exec (.dukGen m v) s = .next t ∧ Only [Reg.FUSE_CMD] s t s.chip) ∧
    (∃ t, exec (.ceilProg m v) s = .next t ∧ Only [Reg.FUSE_CMD] s t s.chip)) ∧
  (∀ (s : State) (bad : BitVec 256),
    s.chip.Calm → s.chip.sec.fuseOp = none → ∃ t, exec (.fuseOpDone bad) s = .next t ∧ Only [] s t s.chip) ∧
  (∀ (s : State) (f : FuseOp),
    s.chip.Calm → s.chip.domOn 11 = true → s.chip.sec.fuseOp = some f → f.op = 1 →
    (f.arg < s.otp.counter ∨ 64 < f.arg → ∃ t, exec (.fuseOpDone 0) s = .next t ∧
        t.chip.bit F.FUSE_STATUS_BUSY = false ∧ t.chip.fld F.FUSE_STATUS_ERR = 2 ∧
        Raised F.FUSE_STATUS_FAIL 125 s t ∧ t.otp = s.otp) ∧
    (s.otp.counter ≤ f.arg → f.arg ≤ 64 → ∃ t, exec (.fuseOpDone 0) s = .next t ∧
        t.chip.bit F.FUSE_STATUS_BUSY = false ∧ t.chip.fld F.FUSE_STATUS_ERR = 0 ∧
        Raised F.FUSE_STATUS_DONE 125 s t ∧ t.chip.bit F.SEC_EVT_FUSE = true ∧
        t.otp = { s.otp with arb := s.otp.arb ||| BitVec.ofNat 64 (2 ^ f.arg - 1) } ∧
        t.chip.fld F.FUSE_STATE_ARB = t.otp.counter ∧
        Only ([Reg.FUSE_STATUS, Reg.SEC_EVT, Reg.EVT_PEND 3, Reg.FUSE_STATE, Reg.FUSE_SLOT, Reg.ID_LIFECYCLE])
          { s with otp := t.otp } t { s.chip with sec := { s.chip.sec with fuseOp := none }, drawn := t.chip.drawn })) ∧
  (∀ (s : State) (f : FuseOp) (bad : BitVec 256),
    s.chip.Calm → s.chip.domOn 11 = true → s.chip.sec.fuseOp = some f → f.op = 1 → s.otp.counter ≤ f.arg →
    f.arg ≤ 64 → bad &&& BitVec.ofNat 256 (2 ^ f.arg - 1) ≠ 0 → ∃ t, exec (.fuseOpDone bad) s = .next t ∧
    t.chip.bit F.FUSE_STATUS_BUSY = false ∧ t.chip.fld F.FUSE_STATUS_ERR = 3 ∧ Raised F.FUSE_STATUS_FAIL 125 s t ∧
    t.otp = { s.otp with arb := s.otp.arb ||| (BitVec.ofNat 256 (2 ^ f.arg - 1) &&& ~~~bad).setWidth 64 }) ∧
  (∀ (s : State) (f : FuseOp),
    s.chip.Calm → s.chip.domOn 11 = true → s.chip.sec.fuseOp = some f → f.op = 2 → f.arg ≤ 3 →
    (f.arg ≤ s.otp.lc ∨ (f.arg = 1 ∧ (s.otp.cikSet = false ∨ s.otp.dukSet = false ∨ s.otp.slotSet = false)) →
        ∃ t, exec (.fuseOpDone 0) s = .next t ∧ t.chip.bit F.FUSE_STATUS_BUSY = false ∧
        t.chip.fld F.FUSE_STATUS_ERR = 1 ∧ Raised F.FUSE_STATUS_FAIL 125 s t ∧ t.otp = s.otp) ∧
    (s.otp.lc < f.arg → (f.arg = 1 → s.otp.cikSet = true ∧ s.otp.dukSet = true ∧ s.otp.slotSet = true) →
        ∃ t, exec (.fuseOpDone 0) s = .next t ∧ t.chip.bit F.FUSE_STATUS_BUSY = false ∧
        t.chip.fld F.FUSE_STATUS_ERR = 0 ∧ Raised F.FUSE_STATUS_DONE 125 s t ∧ t.chip.bit F.SEC_EVT_FUSE = true ∧
        t.otp.lc = f.arg ∧ (f.arg = 3 → t.otp.cik = BitVec.allOnes 256 ∧ t.otp.duk = BitVec.allOnes 256) ∧
        (f.arg ≠ 3 → t.otp.cik = s.otp.cik ∧ t.otp.duk = s.otp.duk) ∧ t.otp.arb = s.otp.arb ∧
        t.otp.slot = s.otp.slot ∧ t.otp.slotSet = s.otp.slotSet ∧ t.otp.cikSet = s.otp.cikSet ∧
        t.otp.dukSet = s.otp.dukSet ∧ t.otp.ceil = s.otp.ceil ∧ t.chip.fld F.ID_LIFECYCLE_STATE = f.arg)) ∧
  (∀ (s : State) (f : FuseOp),
    s.chip.Calm → s.chip.domOn 11 = true → s.chip.sec.fuseOp = some f → s.otp.lc = 0 → f.locked = false →
    (f.op = 3 → s.otp.slotSet = false → s.otp.slot = 0 → ∃ t, exec (.fuseOpDone 0) s = .next t ∧
        t.chip.bit F.FUSE_STATUS_BUSY = false ∧ t.chip.fld F.FUSE_STATUS_ERR = 0 ∧
        Raised F.FUSE_STATUS_DONE 125 s t ∧ t.chip.bit F.SEC_EVT_FUSE = true ∧
        t.otp.slot = BitVec.ofNat 32 (f.data.getD 0 0).toNat ∧ t.otp.slotSet = true ∧ t.otp.lc = s.otp.lc ∧
        t.otp.arb = s.otp.arb ∧ t.otp.cik = s.otp.cik ∧ t.otp.cikSet = s.otp.cikSet ∧ t.otp.duk = s.otp.duk ∧
        t.otp.dukSet = s.otp.dukSet ∧ t.otp.ceil = s.otp.ceil ∧ t.chip.reg Reg.FUSE_SLOT = t.otp.slot) ∧
    (f.op = 4 → s.otp.cikSet = false → s.otp.cik = 0 → ∃ t, exec (.fuseOpDone 0) s = .next t ∧
        t.chip.bit F.FUSE_STATUS_BUSY = false ∧ t.chip.fld F.FUSE_STATUS_ERR = 0 ∧
        Raised F.FUSE_STATUS_DONE 125 s t ∧ t.chip.bit F.SEC_EVT_FUSE = true ∧ t.otp.cik = f.key ∧
        t.otp.cikSet = true ∧ t.otp.lc = s.otp.lc ∧ t.otp.arb = s.otp.arb ∧ t.otp.slot = s.otp.slot ∧
        t.otp.slotSet = s.otp.slotSet ∧ t.otp.duk = s.otp.duk ∧ t.otp.dukSet = s.otp.dukSet ∧
        t.otp.ceil = s.otp.ceil) ∧
    (f.op = 5 → s.otp.dukSet = false → s.otp.duk = 0 → ∃ t, exec (.fuseOpDone 0) s = .next t ∧
        t.chip.bit F.FUSE_STATUS_BUSY = false ∧ t.chip.fld F.FUSE_STATUS_ERR = 0 ∧
        Raised F.FUSE_STATUS_DONE 125 s t ∧ t.chip.bit F.SEC_EVT_FUSE = true ∧ t.otp.dukSet = true ∧
        t.otp.lc = s.otp.lc ∧ t.otp.arb = s.otp.arb ∧ t.otp.slot = s.otp.slot ∧ t.otp.slotSet = s.otp.slotSet ∧
        t.otp.cik = s.otp.cik ∧ t.otp.cikSet = s.otp.cikSet ∧ t.otp.ceil = s.otp.ceil)) ∧
  (∀ (s : State) (f : FuseOp),
    s.chip.Calm → s.chip.sec.fuseOp = some f → f.op = 3 ∨ f.op = 4 ∨ f.op = 5 →
    s.otp.lc ≠ 0 ∨ f.locked = true ∨ (f.op = 3 ∧ s.otp.slotSet = true) ∨ (f.op = 4 ∧ s.otp.cikSet = true) ∨
      (f.op = 5 ∧ s.otp.dukSet = true) → ∃ t, exec (.fuseOpDone 0) s = .next t ∧
    t.chip.bit F.FUSE_STATUS_BUSY = false ∧ t.chip.fld F.FUSE_STATUS_ERR = 1 ∧ Raised F.FUSE_STATUS_FAIL 125 s t ∧
    t.otp = s.otp) ∧
  (∀ (s : State) (f : FuseOp),
    s.chip.Calm → s.chip.domOn 11 = true → s.chip.sec.fuseOp = some f → f.op = 6 → f.arg < 32 →
    (3 ≤ s.otp.lc → ∃ t, exec (.fuseOpDone 0) s = .next t ∧ t.chip.bit F.FUSE_STATUS_BUSY = false ∧
        t.chip.fld F.FUSE_STATUS_ERR = 1 ∧ Raised F.FUSE_STATUS_FAIL 125 s t ∧ t.otp = s.otp) ∧
    (s.otp.lc < 3 → maskOff (bits (f.data.getD 0 0).toNat 23 0) (s.otp.ceiling f.arg (ceilWidth f.arg)) ≠ 0 →
        ∃ t, exec (.fuseOpDone 0) s = .next t ∧ t.chip.bit F.FUSE_STATUS_BUSY = false ∧
        t.chip.fld F.FUSE_STATUS_ERR = 2 ∧ Raised F.FUSE_STATUS_FAIL 125 s t ∧ t.otp = s.otp) ∧
    (s.otp.lc < 3 → maskOff (bits (f.data.getD 0 0).toNat 23 0) (s.otp.ceiling f.arg (ceilWidth f.arg)) = 0 →
        ∃ t, exec (.fuseOpDone 0) s = .next t ∧ t.chip.bit F.FUSE_STATUS_BUSY = false ∧
        t.chip.fld F.FUSE_STATUS_ERR = 0 ∧ Raised F.FUSE_STATUS_DONE 125 s t ∧ t.chip.bit F.SEC_EVT_FUSE = true ∧
        t.otp.ceiling f.arg (ceilWidth f.arg) = bits (f.data.getD 0 0).toNat 23 0 ∧ t.otp.lc = s.otp.lc ∧
        t.otp.arb = s.otp.arb ∧ t.otp.slot = s.otp.slot ∧ t.otp.slotSet = s.otp.slotSet ∧ t.otp.cik = s.otp.cik ∧
        t.otp.cikSet = s.otp.cikSet ∧ t.otp.duk = s.otp.duk ∧ t.otp.dukSet = s.otp.dukSet)) ∧
  (∀ (s : State) (m : Master) (v : Word),
    s.chip.Calm → s.chip.writes m Reg.SEC_REC_CTRL = true → ∃ t, exec (.seal m v) s = .next t ∧
    Only [Reg.SEC_REC_CTRL] s t s.chip ∧
    (s.chip.bit F.SEC_REC_CTRL_BUSY = true → t.chip.fld F.SEC_REC_CTRL_MASK = s.chip.fld F.SEC_REC_CTRL_MASK ∧
        t.chip.bit F.SEC_REC_CTRL_BUSY = true) ∧
    (s.chip.bit F.SEC_REC_CTRL_BUSY = false → t.chip.fld F.SEC_REC_CTRL_MASK = bits v.toNat 10 0 ∧
        t.chip.bit F.SEC_REC_CTRL_BUSY = ((s.chip.auxOf 10).run == .waiting && s.chip.sec.rec_.fastwake &&
              (List.range 10).all fun n => !bitAt v.toNat n || s.chip.engState n == 6 || s.chip.engState n == 2 ||
              s.chip.engState n == 0) ∧
        (t.chip.bit F.SEC_REC_CTRL_BUSY = false → t.chip.bit F.SEC_REC_CTRL_FAIL = true))) ∧
  (∀ (s : State),
    s.chip.Calm → ∃ t, exec .sealDone s = .next t ∧ (s.chip.bit F.SEC_REC_CTRL_BUSY = false → Only [] s t s.chip) ∧
    (s.chip.bit F.SEC_REC_CTRL_BUSY = true → t.chip.bit F.SEC_REC_CTRL_BUSY = false ∧
        t.chip.bit F.SEC_REC_CTRL_VALID = true ∧ t.chip.sec.rec_.mask = s.chip.fld F.SEC_REC_CTRL_MASK ∧
        t.chip.sec.rec_.lc = s.otp.lc ∧ t.chip.sec.rec_.key = s.otp.duk ∧ t.chip.sec.rec_.broken = false ∧
        t.chip.sec.rec_.pairs = s.chip.sec.rec_.pairs ∧
        t.chip.sec.rec_.digests = ((List.range 11).filter (bitAt (s.chip.fld F.SEC_REC_CTRL_MASK) ·)).map
          (fun n => (n, s.chip.regionDigest n)) ∧ Only [Reg.SEC_REC_CTRL] s t { s.chip with sec := t.chip.sec })) ∧
  (∀ (s : State) (m : Master) (v : Word),
    s.chip.Calm → s.chip.writes m Reg.OSPI_CMD = true → s.chip.bit F.OSPI_CMD_BUSY = false →
    (∃ t, exec (.ospiRead m v) s = .next t ∧ Only [Reg.OSPI_CMD] s t { s.chip with sec := t.chip.sec } ∧
        (s.chip.ospiGuarded 1 (s.chip.reg Reg.OSPI_ADDR).toNat (min 256 (bits v.toNat 24 16 + 1)) = true →
            t.chip.bit F.OSPI_CMD_FAIL = true ∧ t.chip.fld F.OSPI_CMD_ERR = 2 ∧ t.chip.bit F.OSPI_CMD_BUSY = false ∧
            t.chip.sec = s.chip.sec) ∧
        (s.chip.ospiGuarded 1 (s.chip.reg Reg.OSPI_ADDR).toNat (min 256 (bits v.toNat 24 16 + 1)) = false →
            t.chip.bit F.OSPI_CMD_BUSY = true ∧ t.chip.fld F.OSPI_CMD_ERR = 0 ∧
            t.chip.sec = { s.chip.sec with
                ospi := some (1, (s.chip.reg Reg.OSPI_ADDR).toNat, min 256 (bits v.toNat 24 16 + 1),
                          (List.range 64).map fun i => s.chip.reg (Reg.OSPI_BUF i)) })) ∧
    (∃ t, exec (.ospiProgram m v) s = .next t ∧ Only [Reg.OSPI_CMD] s t { s.chip with sec := t.chip.sec } ∧
        (s.chip.ospiGuarded 2 (s.chip.reg Reg.OSPI_ADDR).toNat (min 256 (bits v.toNat 24 16 + 1)) = true →
            t.chip.bit F.OSPI_CMD_FAIL = true ∧ t.chip.fld F.OSPI_CMD_ERR = 2 ∧ t.chip.bit F.OSPI_CMD_BUSY = false ∧
            t.chip.sec = s.chip.sec) ∧
        (s.chip.ospiGuarded 2 (s.chip.reg Reg.OSPI_ADDR).toNat (min 256 (bits v.toNat 24 16 + 1)) = false →
            t.chip.bit F.OSPI_CMD_BUSY = true ∧ t.chip.fld F.OSPI_CMD_ERR = 0 ∧
            t.chip.sec = { s.chip.sec with
                ospi := some (2, (s.chip.reg Reg.OSPI_ADDR).toNat, min 256 (bits v.toNat 24 16 + 1),
                          (List.range 64).map fun i => s.chip.reg (Reg.OSPI_BUF i)) })) ∧
    (∃ t, exec (.ospiErase4k m v) s = .next t ∧ Only [Reg.OSPI_CMD] s t { s.chip with sec := t.chip.sec } ∧
        (s.chip.ospiGuarded 3 (s.chip.reg Reg.OSPI_ADDR).toNat (min 256 (bits v.toNat 24 16 + 1)) = true →
            t.chip.bit F.OSPI_CMD_FAIL = true ∧ t.chip.fld F.OSPI_CMD_ERR = 2 ∧ t.chip.bit F.OSPI_CMD_BUSY = false ∧
            t.chip.sec = s.chip.sec) ∧
        (s.chip.ospiGuarded 3 (s.chip.reg Reg.OSPI_ADDR).toNat (min 256 (bits v.toNat 24 16 + 1)) = false →
            t.chip.bit F.OSPI_CMD_BUSY = true ∧ t.chip.fld F.OSPI_CMD_ERR = 0 ∧
            t.chip.sec = { s.chip.sec with
                ospi := some (3, (s.chip.reg Reg.OSPI_ADDR).toNat, min 256 (bits v.toNat 24 16 + 1),
                          (List.range 64).map fun i => s.chip.reg (Reg.OSPI_BUF i)) })) ∧
    (∃ t, exec (.ospiErase64k m v) s = .next t ∧ Only [Reg.OSPI_CMD] s t { s.chip with sec := t.chip.sec } ∧
        (s.chip.ospiGuarded 4 (s.chip.reg Reg.OSPI_ADDR).toNat (min 256 (bits v.toNat 24 16 + 1)) = true →
            t.chip.bit F.OSPI_CMD_FAIL = true ∧ t.chip.fld F.OSPI_CMD_ERR = 2 ∧ t.chip.bit F.OSPI_CMD_BUSY = false ∧
            t.chip.sec = s.chip.sec) ∧
        (s.chip.ospiGuarded 4 (s.chip.reg Reg.OSPI_ADDR).toNat (min 256 (bits v.toNat 24 16 + 1)) = false →
            t.chip.bit F.OSPI_CMD_BUSY = true ∧ t.chip.fld F.OSPI_CMD_ERR = 0 ∧
            t.chip.sec = { s.chip.sec with
                ospi := some (4, (s.chip.reg Reg.OSPI_ADDR).toNat, min 256 (bits v.toNat 24 16 + 1),
                          (List.range 64).map fun i => s.chip.reg (Reg.OSPI_BUF i)) }))) ∧
  (∀ (s : State) (m : Master) (v : Word),
    s.chip.Calm → s.chip.writes m Reg.OSPI_CMD = true → s.chip.bit F.OSPI_CMD_BUSY = true →
    (∃ t, exec (.ospiRead m v) s = .next t ∧ t.chip.bit F.OSPI_CMD_BUSY = true ∧ Only [Reg.OSPI_CMD] s t s.chip) ∧
    (∃ t, exec (.ospiProgram m v) s = .next t ∧ t.chip.bit F.OSPI_CMD_BUSY = true ∧ Only [Reg.OSPI_CMD] s t s.chip)
      ∧
    (∃ t, exec (.ospiErase4k m v) s = .next t ∧ t.chip.bit F.OSPI_CMD_BUSY = true ∧ Only [Reg.OSPI_CMD] s t s.chip)
      ∧
    (∃ t, exec (.ospiErase64k m v) s = .next t ∧ t.chip.bit F.OSPI_CMD_BUSY = true ∧ Only [Reg.OSPI_CMD] s t s.chip)) ∧
  (∀ (s : State) (op a n : Nat) (buf : List Word),
    s.chip.Calm → s.chip.sec.ospi = some (op, a, n, buf) → n ≤ 256 →
    (∃ t, exec (.ospiDone true) s = .next t ∧ t.chip.bit F.OSPI_CMD_BUSY = false ∧
        t.chip.bit F.OSPI_CMD_FAIL = true ∧ t.chip.fld F.OSPI_CMD_ERR = 1 ∧
        Only [Reg.OSPI_CMD] s t { s.chip with sec := { s.chip.sec with ospi := none } }) ∧
    (∃ t, exec (.ospiDone false) s = .next t ∧ t.chip.bit F.OSPI_CMD_BUSY = false ∧
        t.chip.bit F.OSPI_CMD_DONE = true ∧ t.chip.sec = { s.chip.sec with ospi := none } ∧
        (op = 1 → (∀ k, k < n → byteOf (t.chip.reg (Reg.OSPI_BUF (k / 4))) (k % 4) = s.chip.flashByte (a + k)) ∧
            Only ([Reg.OSPI_CMD] ++ (List.range 64).map Reg.OSPI_BUF) s t { s.chip with sec := t.chip.sec }) ∧
        (op = 2 → n ≤ 4 * buf.length →
            (∀ k, k < n →
                t.chip.flashByte (a + k) = s.chip.flashByte (a + k) &&& byteOf (buf.getD (k / 4) 0) (k % 4)) ∧
            (∀ b, b < a ∨ a + n ≤ b → t.chip.flashByte b = s.chip.flashByte b) ∧
            Only [Reg.OSPI_CMD] s t { s.chip with sec := t.chip.sec, flash := t.chip.flash }) ∧
        (op = 3 → (∀ b, t.chip.flashByte b = if b / 4096 = a / 4096 then 0xFF else s.chip.flashByte b) ∧
            Only [Reg.OSPI_CMD] s t { s.chip with sec := t.chip.sec, flash := t.chip.flash }) ∧
        (op = 4 → (∀ b, t.chip.flashByte b = if b / 65536 = a / 65536 then 0xFF else s.chip.flashByte b) ∧
            Only [Reg.OSPI_CMD] s t { s.chip with sec := t.chip.sec, flash := t.chip.flash }))) ∧
  (∀ (s : State) (timeout : Bool),
    s.chip.Calm → s.chip.sec.ospi = none → ∃ t, exec (.ospiDone timeout) s = .next t ∧ Only [] s t s.chip) ∧
  (∀ (s : State) (a : BitVec 32) (d : Option Word),
    s.chip.Calm → s.chip.debugReaches a.toNat = false → ∃ t, exec (.debugAccess a d) s = .next t ∧
    t.chip.resp = .busError ∧ t.chip.bit F.SEC_EVT_DBG = true ∧
    t.chip.fld F.SEC_EVT_DBG_CNT = min (s.chip.fld F.SEC_EVT_DBG_CNT + 1)
      (2 ^ (F.SEC_EVT_DBG_CNT.hi + 1 - F.SEC_EVT_DBG_CNT.lo) - 1) ∧ t.chip.pends 126 = true ∧
    Only [Reg.SEC_EVT, Reg.EVT_PEND 3] s t s.chip) ∧
  (∀ (s : State) (a : BitVec 32),
    s.chip.Calm → a.toNat % 4 = 0 → s.chip.finds .debug a.toNat false = true →
    s.chip.place mDbg a.toNat = .reg a.toNat → a.toNat ∉ [Reg.STC_LO, Reg.RTC_CNT_LO, Reg.STRM_POS_LO] →
    a.toNat < Reg.SEM 0 ∨ Reg.SEM 63 < a.toNat → a.toNat < 0x40121000 ∨ 0x40121800 ≤ a.toNat →
    ∃ t, exec (.debugAccess a none) s = .next t ∧ t.chip.resp = .data (s.chip.regValue mDbg a.toNat) ∧
    Only [] s t s.chip) ∧
  (∀ (s : State) (j : Jtag),
    s.chip.Calm → ∃ t, exec (.jtagInstruction j) s = .next t ∧ t.chip.sec = { s.chip.sec with jtag := j } ∧
    (j = .idcode → t.chip.resp = .data 0x2108088F) ∧ Only [] s t { s.chip with sec := t.chip.sec })

/-- Power domains, standby, wakes and resets (spec/18). -/
def Obligations.powerManagement : Prop :=
  (∀ (s : State) (m : Master) (v : Word),
    s.chip.Calm → s.chip.writes m Reg.PMU_CMD = true → s.chip.bit F.PMU_STATUS_BUSY = true →
    (∃ t, exec (.set m v) s = .next t ∧ t.chip.fld F.PMU_STATUS_ERR = 1 ∧
        t.chip.bit F.PMU_STATUS_BUSY = s.chip.bit F.PMU_STATUS_BUSY ∧ Only [Reg.PMU_CMD, Reg.PMU_STATUS] s t s.chip)
      ∧
    (∃ t, exec (.standby m v) s = .next t ∧ t.chip.fld F.PMU_STATUS_ERR = 1 ∧
        t.chip.bit F.PMU_STATUS_BUSY = s.chip.bit F.PMU_STATUS_BUSY ∧ Only [Reg.PMU_CMD, Reg.PMU_STATUS] s t s.chip)
      ∧
    (∃ t, exec (.wake m v) s = .next t ∧ t.chip.fld F.PMU_STATUS_ERR = 1 ∧
        t.chip.bit F.PMU_STATUS_BUSY = s.chip.bit F.PMU_STATUS_BUSY ∧ Only [Reg.PMU_CMD, Reg.PMU_STATUS] s t s.chip)) ∧
  (∀ (s : State) (m : Master) (v : Word) (d : Nat),
    s.chip.Calm → s.chip.writes m Reg.PMU_CMD = true → s.chip.bit F.PMU_STATUS_BUSY = false →
    d = bits v.toNat 15 8 →
    (bits v.toNat 1 0 = 3 → ∃ t, exec (.set m v) s = .next t ∧ t.chip.fld F.PMU_STATUS_ERR = 2 ∧
        t.chip.bit F.PMU_STATUS_BUSY = s.chip.bit F.PMU_STATUS_BUSY ∧ Only [Reg.PMU_CMD, Reg.PMU_STATUS] s t s.chip)
      ∧
    (d = 0 → bits v.toNat 1 0 ≠ 0 → ∃ t, exec (.set m v) s = .next t ∧ t.chip.fld F.PMU_STATUS_ERR = 2 ∧
        t.chip.bit F.PMU_STATUS_BUSY = s.chip.bit F.PMU_STATUS_BUSY ∧ Only [Reg.PMU_CMD, Reg.PMU_STATUS] s t s.chip)
      ∧
    (bits v.toNat 1 0 ≠ 3 → 0x46 ≤ d ∨ (0x1A ≤ d ∧ d < 0x20) ∨ (3 ≤ d ∧ d < 0x10) →
        ∃ t, exec (.set m v) s = .next t ∧ t.chip.fld F.PMU_STATUS_ERR = 2 ∧
        t.chip.bit F.PMU_STATUS_BUSY = s.chip.bit F.PMU_STATUS_BUSY ∧ Only [Reg.PMU_CMD, Reg.PMU_STATUS] s t s.chip)
      ∧
    (bits v.toNat 1 0 = 1 → d = 0x43 ∨ d = 0x45 ∨ (0x28 ≤ d ∧ d < 0x40) → ∃ t, exec (.set m v) s = .next t ∧
        t.chip.fld F.PMU_STATUS_ERR = 3 ∧ t.chip.bit F.PMU_STATUS_BUSY = s.chip.bit F.PMU_STATUS_BUSY ∧
        Only [Reg.PMU_CMD, Reg.PMU_STATUS] s t s.chip)) ∧
  (∀ (s : State) (m : Master) (v : Word) (d : Nat),
    s.chip.Calm → s.chip.writes m Reg.PMU_CMD = true → s.chip.bit F.PMU_STATUS_BUSY = false →
    d = bits v.toNat 15 8 → bits v.toNat 1 0 = 2 → s.chip.domOn 10 = true → s.chip.domOn 11 = true →
    (d = 0x44 → s.chip.domOn 16 = true → s.chip.bit F.STRM_CFG_EN = true → ∃ t, exec (.set m v) s = .next t ∧
        t.chip.fld F.PMU_STATUS_ERR = 5 ∧ t.chip.bit F.PMU_STATUS_BUSY = s.chip.bit F.PMU_STATUS_BUSY ∧
        Only [Reg.PMU_CMD, Reg.PMU_STATUS] s t s.chip) ∧
    (d = 0x42 → s.chip.domOn 14 = true → ((List.range 32).any fun k => s.chip.bit (F.ACT_CTRL_EN k)) = true →
        ∃ t, exec (.set m v) s = .next t ∧ t.chip.fld F.PMU_STATUS_ERR = 6 ∧
        t.chip.bit F.PMU_STATUS_BUSY = s.chip.bit F.PMU_STATUS_BUSY ∧ Only [Reg.PMU_CMD, Reg.PMU_STATUS] s t s.chip)
      ∧
    (d = 0x45 → s.chip.domOn 17 = true → ∃ t, exec (.set m v) s = .next t ∧ t.chip.fld F.PMU_STATUS_ERR = 7 ∧
        t.chip.bit F.PMU_STATUS_BUSY = s.chip.bit F.PMU_STATUS_BUSY ∧ Only [Reg.PMU_CMD, Reg.PMU_STATUS] s t s.chip)
      ∧
    (0x10 ≤ d → d < 0x1A → s.chip.domOn (d - 0x10) = true →
        s.chip.engState (d - 0x10) = 3 ∨ s.chip.engState (d - 0x10) = 4 ∨ s.chip.engState (d - 0x10) = 5 →
        ∃ t, exec (.set m v) s = .next t ∧ t.chip.fld F.PMU_STATUS_ERR = 8 ∧
        t.chip.bit F.PMU_STATUS_BUSY = s.chip.bit F.PMU_STATUS_BUSY ∧ Only [Reg.PMU_CMD, Reg.PMU_STATUS] s t s.chip)
      ∧
    (d = 1 ∨ d = 2 → ∃ t, exec (.set m v) s = .next t ∧ t.chip.fld F.PMU_STATUS_ERR = 9 ∧
        t.chip.bit F.PMU_STATUS_BUSY = s.chip.bit F.PMU_STATUS_BUSY ∧ Only [Reg.PMU_CMD, Reg.PMU_STATUS] s t s.chip)) ∧
  (∀ (s : State) (m : Master) (v : Word) (p : Nat),
    s.chip.Calm → s.chip.writes m Reg.PMU_CMD = true → s.chip.bit F.PMU_STATUS_BUSY = false →
    s.chip.tick.phase = .idle → bits v.toNat 15 8 = 0x10 + p → p < 10 → bits v.toNat 1 0 = 2 →
    s.chip.domOn 10 = true → s.chip.domOn p = true → s.chip.locked73 p = false → s.chip.bit F.TLK_CFG_EN = false →
    ∃ t, exec (.set m v) s = .next t ∧ t.chip.domState p = 2 ∧
    (∀ d, d < 18 → d ≠ p → t.chip.domState d = s.chip.domState d) ∧
    (∀ b, b < 32 → t.chip.seraiState b = s.chip.seraiState b) ∧ t.chip.core p = {} ∧ t.chip.engState p = 0 ∧
    (∀ j, j < 12 → j ≠ p → t.chip.core j = s.chip.core j) ∧
    t.chip.fld F.PMU_STATUS_LPMODE = s.chip.fld F.PMU_STATUS_LPMODE ∧ t.chip.ddr = s.chip.ddr ∧
    t.chip.flash = s.chip.flash ∧ t.otp = s.otp ∧ t.pending = s.pending) ∧
  (∀ (s : State) (m : Master) (v : Word) (d : Nat),
    s.chip.Calm → s.chip.writes m Reg.PMU_CMD = true → s.chip.bit F.PMU_STATUS_BUSY = false →
    bits v.toNat 15 8 = 0x40 + d → d < 6 → bits v.toNat 1 0 = 0 →
    (s.chip.notOn (Chip.closeSet (2 ^ (12 + d))) = 0 → ∃ t, exec (.set m v) s = .next t ∧
        Only [Reg.PMU_CMD] s t s.chip) ∧
    (s.chip.notOn (Chip.closeSet (2 ^ (12 + d))) ≠ 0 → ∃ t, exec (.set m v) s = .next t ∧
        t.chip.bit F.PMU_STATUS_BUSY = true ∧
        t.chip.pmu.req = s.chip.pmu.req ||| s.chip.notOn (Chip.closeSet (2 ^ (12 + d))) ∧
        Only [Reg.PMU_CMD, Reg.PMU_STATUS] s t { s.chip with pmu := { s.chip.pmu with req := t.chip.pmu.req } })) ∧
  (∀ (s : State) (m : Master) (v : Word),
    s.chip.Calm → s.chip.writes m Reg.PMU_CMD = true → s.chip.bit F.PMU_STATUS_BUSY = false →
    (s.chip.planErr s.chip.standbyPlan m.id true false ≠ 0 → ∃ t, exec (.standby m v) s = .next t ∧
        t.chip.fld F.PMU_STATUS_ERR = s.chip.planErr s.chip.standbyPlan m.id true false ∧
        t.chip.bit F.PMU_STATUS_BUSY = s.chip.bit F.PMU_STATUS_BUSY ∧ Only [Reg.PMU_CMD, Reg.PMU_STATUS] s t s.chip)
      ∧
    (s.chip.planErr s.chip.standbyPlan m.id true false = 0 → s.chip.domOn 10 = true ∨ s.chip.domOn 11 = true →
        ∃ t, exec (.standby m v) s = .next t ∧ t.chip.bit F.PMU_STATUS_BUSY = true ∧
        Raised F.PMU_STATUS_PREP 120 s t ∧ Only ([Reg.PMU_CMD, Reg.PMU_STATUS] ++ [Reg.EVT_PEND 3]) s t s.chip)) ∧
  (∀ (s : State) (m : Master) (v : Word) (d b : Nat),
    s.chip.Calm → s.chip.writes m Reg.PMU_CMD = true → s.chip.bit F.PMU_STATUS_BUSY = false →
    d = s.chip.notOn (Chip.closeSet (s.chip.fld F.PMU_WAKE_SET_SET)) →
    b = s.chip.banksNotOn (s.chip.fld F.PMU_WAKE_SERAI_SET) → ∃ t, exec (.wake m v) s = .next t ∧
    t.chip.fbit F.PMU_WAKE_SRC_SRC 6 = true ∧
    (d = 0 ∧ b = 0 → t.chip.pmu = s.chip.pmu ∧ Only [Reg.PMU_CMD, Reg.PMU_WAKE_SRC] s t s.chip) ∧
    (d ≠ 0 ∨ b ≠ 0 → t.chip.bit F.PMU_STATUS_BUSY = true ∧
        t.chip.pmu = { s.chip.pmu with req := s.chip.pmu.req ||| d, reqBanks := s.chip.pmu.reqBanks ||| b } ∧
        Only ([Reg.PMU_CMD, Reg.PMU_STATUS] ++ [Reg.PMU_WAKE_SRC]) s t { s.chip with pmu := t.chip.pmu })) ∧
  (∀ (s : State),
    s.chip.Calm → s.chip.bit F.PMU_STATUS_PREP = false ∨ s.chip.prepared = false →
    ∃ t, exec .prepComplete s = .next t ∧ Only [] s t s.chip) ∧
  (∀ (s : State),
    s.chip.Calm → s.chip.bit F.PMU_STATUS_PREP = true → s.chip.prepared = true → s.chip.tick.phase = .idle →
    s.chip.bit F.SEC_REC_CTRL_BUSY = false → s.chip.sec.fuseOp = none → s.chip.sec.ospi = none →
    s.chip.fld F.TICK_STATUS_RUNNING = 0 → ∃ t, exec .prepComplete s = .next t ∧
    t.chip.bit F.PMU_STATUS_PREP = false ∧
    (∀ d, d < 18 →
        t.chip.domState d = if s.chip.domState d = 2 then 2 else if s.chip.fbit F.PMU_STBY_CFG_RET d = true then 1
          else 2) ∧
    (∀ b, b < 32 → t.chip.seraiState b = if s.chip.seraiState b = 2 then 2 else if b < 8 ∧
        s.chip.fbit F.PMU_STBY_SERAI_RET b = true then 1 else 2) ∧ t.chip.bit F.PMU_STATUS_LPMODE = true ∧
    (s.chip.domOn 17 = true → t.chip.reg64 Reg.SLP_RTC_IN_LO Reg.SLP_RTC_IN_HI = s.chip.rtc) ∧
    t.chip.flash = s.chip.flash ∧ t.otp = s.otp ∧ t.pending = s.pending) ∧
  (∀ (s : State),
    s.chip.Calm → ∃ t, exec .prepTimeout s = .next t ∧ (s.chip.bit F.PMU_STATUS_PREP = false → Only [] s t s.chip) ∧
    (s.chip.bit F.PMU_STATUS_PREP = true → t.chip.bit F.PMU_STATUS_PREP = false ∧
        t.chip.bit F.PMU_STATUS_BUSY = false ∧ t.chip.fld F.PMU_STATUS_ERR = 10 ∧ Only [Reg.PMU_STATUS] s t s.chip)) ∧
  (∀ (s : State) (level : Bool) (at_ : WakeAt) (hit : Bool),
    s.chip.Calm → s.chip.entering = false →
    hit = (s.chip.bit F.PMU_WAKE_EN_PIN && level != s.chip.bit F.PMU_WAKE_EN_PIN_POL &&
          (!s.chip.bit F.PMU_WAKE_EN_PIN_EDGE || s.chip.pmu.pin == s.chip.bit F.PMU_WAKE_EN_PIN_POL)) →
    ∃ t, exec (.wakePin level at_) s = .next t ∧ t.chip.pmu.pin = level ∧
    (hit = false → Only [] s t { s.chip with pmu := { s.chip.pmu with pin := level } }) ∧
    (hit = true → t.chip.fbit F.PMU_WAKE_SRC_SRC 1 = true ∧
        (∀ d, bitAt (s.chip.notOn (Chip.closeSet (s.chip.fld F.PMU_WAKE_SET_SET))) d = true →
            bitAt t.chip.pmu.req d = true) ∧
        Only [Reg.PMU_WAKE_SRC, Reg.PMU_STATUS] s t { s.chip with pmu := t.chip.pmu })) ∧
  (∀ (s : State),
    s.chip.Calm → s.chip.entering = true → s.chip.bit F.PMU_WAKE_EN_PIN = true →
    s.chip.bit F.PMU_WAKE_EN_PIN_EDGE = true → s.chip.bit F.PMU_WAKE_EN_PIN_POL = false → s.chip.pmu.pin = false →
    ∃ t, exec (.wakePin true .window) s = .next t ∧ t.chip.bit F.PMU_STATUS_EDGE_LOST = true ∧
    t.chip.pmu = { s.chip.pmu with pin := true } ∧ Only [Reg.PMU_STATUS] s t { s.chip with pmu := t.chip.pmu }) ∧
  (∀ (s : State),
    s.chip.Calm → s.chip.entering = true → s.chip.bit F.PMU_WAKE_EN_PIN = true →
    s.chip.bit F.PMU_WAKE_EN_PIN_EDGE = false → s.chip.bit F.PMU_WAKE_EN_PIN_POL = false →
    ∃ t, exec (.wakePin true .entering) s = .next t ∧ t.chip.bit F.PMU_STATUS_ENTRY_ABORT = true ∧
    t.chip.bit F.PMU_STATUS_PREP = false ∧ t.chip.bit F.PMU_STATUS_LPMODE = false ∧ t.chip.pmu.wait = none ∧
    t.chip.pmu.fresh = none ∧ t.chip.fbit F.PMU_WAKE_SRC_SRC 1 = true ∧
    Only [Reg.PMU_WAKE_SRC, Reg.PMU_STATUS] s t { s.chip with pmu := t.chip.pmu }) ∧
  (∀ (s : State) (at_ : WakeAt),
    s.chip.Calm → ∃ t, exec (.rtcAlarm at_) s = .next t ∧
    (s.chip.bit F.RTC_CTRL_EN = false ∨ s.chip.bit F.RTC_CTRL_ALARM_EN = false → Only [] s t s.chip) ∧
    (s.chip.bit F.RTC_CTRL_EN = true → s.chip.bit F.RTC_CTRL_ALARM_EN = true →
        t.chip.rtc = s.chip.rtcAlarmAt % 2 ^ 48 ∧ Raised F.RTC_CTRL_ALARM 123 s t ∧
        (s.chip.bit F.PMU_WAKE_EN_RTC = false → t.chip.pmu = s.chip.pmu) ∧
        (s.chip.bit F.PMU_WAKE_EN_RTC = true → s.chip.entering = false → t.chip.fbit F.PMU_WAKE_SRC_SRC 2 = true) ∧
        Only [Reg.RTC_CTRL, Reg.RTC_CNT_LO, Reg.RTC_CNT_HI, Reg.EVT_PEND 3, Reg.PMU_WAKE_SRC, Reg.PMU_STATUS] s t
          { s.chip with pmu := t.chip.pmu })) ∧
  (∀ (s : State),
    s.chip.Calm → ∃ t, exec .rtcXtalFail s = .next t ∧ (s.chip.fld F.RTC_CTRL_ACTIVE_SRC ≠ 1 → Only [] s t s.chip) ∧
    (s.chip.fld F.RTC_CTRL_ACTIVE_SRC = 1 → t.chip.fld F.RTC_CTRL_ACTIVE_SRC = 0 ∧
        t.chip.bit F.RTC_CTRL_XFAIL = true ∧
        t.chip.pmu = { s.chip.pmu with slpMixed := s.chip.pmu.slpMixed || !s.chip.domOn 17 } ∧
        Only [Reg.RTC_CTRL] s t { s.chip with pmu := t.chip.pmu })) ∧
  (∀ (s : State),
    s.chip.Calm →
    s.chip.pmu.seq.isSome = true ∨
      (s.chip.notOn (Chip.closeSet s.chip.pmu.req) = 0 ∧ s.chip.banksNotOn s.chip.pmu.reqBanks = 0) →
    ∃ t, exec .wakeSequence s = .next t ∧ Only [] s t s.chip) ∧
  (∀ (s : State) (d b : Nat),
    s.chip.Calm → s.chip.pmu.seq = none → d = s.chip.notOn (Chip.closeSet s.chip.pmu.req) →
    b = s.chip.banksNotOn s.chip.pmu.reqBanks → d ≠ 0 ∨ b ≠ 0 → ∃ t, exec .wakeSequence s = .next t ∧
    t.chip.bit F.PMU_STATUS_BUSY = true ∧ t.chip.bit F.PMU_STATUS_LPMODE = false ∧
    (∀ k, k < 18 → t.chip.domState k = if bitAt d k = true then 3 else s.chip.domState k) ∧
    (∀ k, k < 32 → t.chip.seraiState k = if bitAt b k = true then 3 else s.chip.seraiState k) ∧ t.chip.pmu.req = 0 ∧
    t.chip.pmu.reqBanks = 0 ∧
    (∃ q ∈ t.chip.pmu.seq, q.doms = d ∧ q.banks = b ∧ (s.chip.bit F.PMU_STATUS_LPMODE = true → q.step = 1)) ∧
    Only [Reg.PMU_STATUS, Reg.PMU_DSTATE0, Reg.PMU_DSTATE1, Reg.PMU_SSTATE0, Reg.PMU_SSTATE1] s t
      { s.chip with pmu := t.chip.pmu }) ∧
  (∀ (s : State) (dt : Nat),
    s.chip.Calm → s.chip.pmu.seq = none → (∃ t, exec (.wakeStepReady dt) s = .next t ∧ Only [] s t s.chip) ∧
    (∃ t, exec .wakeStepTimeout s = .next t ∧ Only [] s t s.chip)) ∧
  (∀ (s : State) (dt : Nat) (q : WakeSeq),
    s.chip.Calm → s.chip.pmu.seq = some q → q.step = 1 → s.chip.pmu.req = 0 ∧ s.chip.pmu.reqBanks = 0 →
    bitAt q.doms 17 = true → s.chip.bit F.RTC_CTRL_EN = true → ∃ t, exec (.wakeStepReady dt) s = .next t ∧
    t.chip.rtc = (s.chip.rtc + dt) % 2 ^ 48 ∧
    (∃ r ∈ t.chip.pmu.seq, r.step = 2 ∧ r.doms = q.doms ∧ r.banks = q.banks ∧ r.tried = false) ∧
    Only [Reg.RTC_CNT_LO, Reg.RTC_CNT_HI] s t { s.chip with pmu := t.chip.pmu }) ∧
  (∀ (s : State) (q : WakeSeq),
    s.chip.Calm → s.chip.pmu.seq = some q → q.step = 4 → q.doms = 2 ^ 13 → s.chip.pmu.req = 0 ∧
    s.chip.pmu.reqBanks = 0 → s.chip.bit F.RTC_CTRL_EN = false → s.chip.domState 13 = 3 → q.was 13 = 2 →
    ∃ t, exec (.wakeStepReady 0) s = .next t ∧ t.chip.domOn 13 = true ∧
    (∀ d, d < 18 → d ≠ 13 → t.chip.domState d = s.chip.domState d) ∧ Raised F.PMU_STATUS_DOM_READY 120 s t ∧
    t.chip.bit F.PMU_STATUS_BUSY = false ∧ t.chip.pmu.seq = none ∧ t.otp = s.otp ∧ t.pending = s.pending ∧
    KeepsMem s t) ∧
  (∀ (s : State) (q : WakeSeq),
    s.chip.Calm → s.chip.pmu.seq = some q →
    (q.step = 4 → ∃ t, exec .wakeStepTimeout s = .next t ∧ Only [] s t s.chip) ∧
    (q.step ≠ 4 → q.tried = false → ∃ t, exec .wakeStepTimeout s = .next t ∧
        Only [] s t { s.chip with pmu := { s.chip.pmu with seq := some { q with tried := true } } }) ∧
    (q.step = 1 → q.tried = true → ∃ t, exec .wakeStepTimeout s = .next t ∧
        t.chip.reg Reg.PMU_DSTATE0 = q.prior.getD 0 0 ∧ t.chip.reg Reg.PMU_DSTATE1 = q.prior.getD 1 0 ∧
        t.chip.reg Reg.PMU_SSTATE0 = q.prior.getD 2 0 ∧ t.chip.reg Reg.PMU_SSTATE1 = q.prior.getD 3 0 ∧
        t.chip.bit F.PMU_STATUS_LPMODE = true ∧ t.chip.bit F.PMU_STATUS_BUSY = false ∧
        Raised F.PMU_STATUS_WAKEFAIL 122 s t ∧
        t.chip.pmu = { s.chip.pmu with seq := none, req := 0, reqBanks := 0 } ∧
        Only [Reg.PMU_STATUS, Reg.PMU_DSTATE0, Reg.PMU_DSTATE1, Reg.PMU_SSTATE0, Reg.PMU_SSTATE1, Reg.EVT_PEND 3] s
          t { s.chip with pmu := t.chip.pmu }) ∧
    (q.step = 2 → q.tried = true → ∃ t, exec .wakeStepTimeout s = .next t ∧ Raised F.PMU_STATUS_DEGRADED 122 s t ∧
        (∃ r ∈ t.chip.pmu.seq, r.rc = true ∧ 3 ≤ r.step))) ∧
  (∀ (s : State) (q : WakeSeq) (a : Nat) (l : List Nat),
    s.chip.Calm → s.chip.pmu.seq = some q → q.step = 3 → q.tried = true → q.arrays = a :: l → l ≠ [] → a < 8 →
    ∃ t, exec .wakeStepTimeout s = .next t ∧ t.chip.seraiState a = 2 ∧
    t.chip.fbit F.PMU_RETLOST_LOST (12 + a) = true ∧ Raised F.PMU_STATUS_MEMFAIL 122 s t ∧
    t.chip.pmu = { s.chip.pmu with seq := some { q with arrays := l, tried := false } } ∧
    (∀ d, d < 18 → t.chip.domState d = s.chip.domState d)) ∧
  (∀ (s : State) (m : Master) (v : Word),
    s.chip.Calm → s.chip.writes m Reg.PMU_PAD_HOLD = true → ∃ t, exec (.padHoldRelease m v) s = .next t ∧
    (∀ d, d < 18 →
        t.chip.fbit F.PMU_PAD_HOLD_HOLD d =
          (s.chip.fbit F.PMU_PAD_HOLD_HOLD d && !(bitAt v.toNat d && s.chip.domOn d))) ∧
    Only [Reg.PMU_PAD_HOLD] s t s.chip) ∧
  (∀ (s : State) (sel : Bool) (k : Nat),
    s.chip.Calm →
    k ∉ [Reg.PMU_RST_CAUSE, Reg.HPORT_CFG, Reg.EVT_PEND 3, Reg.FUSE_STATE, Reg.FUSE_SLOT, Reg.ID_LIFECYCLE] →
    s.otp.ceil = [] → s.chip.sec.fuseOp = none → s.chip.sec.ospi = none →
    (∃ t, exec (.powerOn sel) s = .next t ∧ t.chip.reg k = Reg.resetOf k ∧
        t.chip.fld F.HPORT_CFG_I2C_ADDR = (if sel then 0x2D else 0x2C) ∧ t.chip.reg Reg.PMU_RST_CAUSE = 1 ∧
        t.chip.cores = [] ∧ t.chip.flash = s.chip.flash ∧ t.chip.sec = {} ∧ t.otp = s.otp ∧ t.pending = s.pending) ∧
    (∃ t, exec .pinReset s = .next t ∧ t.chip.reg k = Reg.resetOf k ∧
        t.chip.fld F.HPORT_CFG_I2C_ADDR = s.chip.fld F.HPORT_CFG_I2C_ADDR ∧
        t.chip.fbit ⟨Reg.PMU_RST_CAUSE, 31, 0⟩ 3 = true ∧ t.chip.cores = [] ∧ t.chip.flash = s.chip.flash ∧
        t.otp = s.otp ∧ t.pending = s.pending) ∧
    (∃ t, exec (.brownOut sel) s = .next t ∧ t.chip.reg k = Reg.resetOf k ∧
        t.chip.fbit ⟨Reg.PMU_RST_CAUSE, 31, 0⟩ (if s.chip.bit F.PMU_STATUS_LPMODE then 1 else 2) = true ∧
        t.chip.pends 121 = true ∧ t.chip.cores = [] ∧ t.chip.flash = s.chip.flash ∧ t.otp = s.otp ∧
        t.pending = s.pending))

/-- A step runs the command at the front of the queue on the state with the queue's rest. -/
def Obligations.stepRunsFrontCommand : Prop :=
  ∀ (s : State) (i : Instr) (rest : List Instr), s.pending = i :: rest → step s = exec i { s with pending := rest }

/-- No command stops the block, and none touches the queue. What a step does with an empty queue is the model's choice
(log entry 2). -/
def Obligations.queueDiscipline : Prop :=
  (∀ (i : Instr) (s : State), ∃ t, exec i s = .next t ∧ t.pending = s.pending) ∧
  (∀ (s : State), s.pending = [] → s.chip.bit F.RTC_CTRL_EN = false → step s = .next s) ∧
  (∀ (s : State),
    s.pending = [] → s.chip.bit F.RTC_CTRL_EN = true → ∃ t, step s = .next t ∧
    t.chip.rtc = (s.chip.rtc + 1) % 2 ^ 48 ∧
    (s.chip.bit F.RTC_CTRL_ALARM_EN = true → t.chip.rtc = s.chip.rtcAlarmAt % 2 ^ 48 →
        Raised F.RTC_CTRL_ALARM 123 s t) ∧
    Only [Reg.RTC_CNT_LO, Reg.RTC_CNT_HI, Reg.RTC_CTRL, Reg.EVT_PEND 3, Reg.PMU_WAKE_SRC, Reg.PMU_STATUS] s t
      { s.chip with pmu := t.chip.pmu })

/-- The canonical form of the memories is an invariant of every step. -/
def Obligations.stepKeepsMemoryForm : Prop :=
  ∀ (s t : State), Wf s → steps s t → Wf t

/-- Fuses only grow (R402, R409, R410): no step clears a bit or takes the lifecycle back. -/
def Obligations.fusesOnlyGrow : Prop :=
  ∀ (s t : State), steps s t → Otp.le s.otp t.otp
end

