-- ==== Sys2Proof/Laws/Tab.lean ====
section
/-! SUPPORT. The laws of sparse tables: a read after a write, and that every operation keeps the canonical form. -/

namespace Sys2Proof.Machine

variable {α : Type}

theorem Tab.get_drop_same (d : Nat → α) (t : List (Nat × α)) (k : Nat) : Tab.get d (Tab.drop t k) k = d k := by
  induction t with
  | nil => rfl
  | cons p t ih =>
    obtain ⟨j, v⟩ := p
    by_cases h : j = k <;> simp [Tab.drop, Tab.get, h, ih]

theorem Tab.get_drop_other (d : Nat → α) (t : List (Nat × α)) {k j : Nat} (h : j ≠ k) :
    Tab.get d (Tab.drop t k) j = Tab.get d t j := by
  induction t with
  | nil => rfl
  | cons p t ih =>
    obtain ⟨i, v⟩ := p
    by_cases h1 : i = k
    · subst h1
      simp [Tab.drop, Tab.get, ih, Ne.symm h]
    · by_cases h2 : i = j
      · subst h2
        simp [Tab.drop, Tab.get, h1]
      · simp [Tab.drop, Tab.get, h1, h2, ih]

theorem Tab.get_ins_other (d : Nat → α) (t : List (Nat × α)) {k j : Nat} (v : α) (h : j ≠ k) :
    Tab.get d (Tab.ins k v t) j = Tab.get d t j := by
  induction t with
  | nil => simp [Tab.ins, Tab.get, Ne.symm h]
  | cons p t ih =>
    obtain ⟨i, w⟩ := p
    by_cases h1 : k < i
    · simp [Tab.ins, Tab.get, h1, Ne.symm h]
    · by_cases h2 : i = j
      · subst h2
        simp [Tab.ins, Tab.get, h1]
      · simp [Tab.ins, Tab.get, h1, h2, ih]

theorem Tab.get_ins_drop (d : Nat → α) (t : List (Nat × α)) (k : Nat) (v : α) :
    Tab.get d (Tab.ins k v (Tab.drop t k)) k = v := by
  induction t with
  | nil => simp [Tab.drop, Tab.ins, Tab.get]
  | cons p t ih =>
    obtain ⟨i, w⟩ := p
    by_cases h1 : i = k
    · simpa [Tab.drop, h1] using ih
    · by_cases h2 : k < i
      · simp [Tab.drop, Tab.ins, Tab.get, h1, h2]
      · simp [Tab.drop, Tab.ins, Tab.get, h1, h2, ih]

@[simp] theorem Tab.get_set_same [DecidableEq α] (d : Nat → α) (t : List (Nat × α)) (k : Nat) (v : α) :
    Tab.get d (Tab.set d t k v) k = v := by
  by_cases h : v = d k
  · simp [Tab.set, h, Tab.get_drop_same]
  · simp [Tab.set, h, Tab.get_ins_drop]

theorem Tab.get_set_other [DecidableEq α] (d : Nat → α) (t : List (Nat × α)) {k j : Nat} (v : α) (h : j ≠ k) :
    Tab.get d (Tab.set d t k v) j = Tab.get d t j := by
  by_cases h1 : v = d k
  · simp [Tab.set, h1, Tab.get_drop_other d t h]
  · simp [Tab.set, h1, Tab.get_ins_other d _ v h, Tab.get_drop_other d t h]

theorem Tab.above_mono {a b : Nat} (h : a ≤ b) {t : List (Nat × α)} (ht : Tab.above b t = true) :
    Tab.above a t = true := by
  induction t with
  | nil => rfl
  | cons p t ih =>
    simp only [Tab.above, Bool.and_eq_true, decide_eq_true_eq] at ht ⊢
    exact ⟨by omega, ih ht.2⟩

theorem Tab.above_drop {b k : Nat} {t : List (Nat × α)} (ht : Tab.above b t = true) :
    Tab.above b (Tab.drop t k) = true := by
  induction t with
  | nil => rfl
  | cons p t ih =>
    obtain ⟨j, v⟩ := p
    simp only [Tab.above, Bool.and_eq_true, decide_eq_true_eq] at ht
    by_cases h : j = k
    · simpa [Tab.drop, h] using ih ht.2
    · simp [Tab.drop, h, Tab.above, ht.1, ih ht.2]

theorem Tab.wf_drop [DecidableEq α] {d : Nat → α} {t : List (Nat × α)} (k : Nat) (ht : Tab.wf d t = true) :
    Tab.wf d (Tab.drop t k) = true := by
  induction t with
  | nil => rfl
  | cons p t ih =>
    obtain ⟨j, v⟩ := p
    simp only [Tab.wf, Bool.and_eq_true] at ht
    by_cases h : j = k
    · simpa [Tab.drop, h] using ih ht.2
    · simp [Tab.drop, h, Tab.wf, Tab.above_drop ht.1.2, ih ht.2]
      simpa using ht.1.1

theorem Tab.above_ins {b k : Nat} {v : α} (hk : b < k) {t : List (Nat × α)} (ht : Tab.above b t = true) :
    Tab.above b (Tab.ins k v t) = true := by
  induction t with
  | nil => simp [Tab.ins, Tab.above, hk]
  | cons p t ih =>
    obtain ⟨j, w⟩ := p
    simp only [Tab.above, Bool.and_eq_true, decide_eq_true_eq] at ht
    by_cases h : k < j <;> simp [Tab.ins, h, Tab.above, hk, ht.1, ht.2, ih ht.2]

theorem Tab.wf_ins_drop [DecidableEq α] {d : Nat → α} {t : List (Nat × α)} {k : Nat} {v : α} (hv : v ≠ d k)
    (ht : Tab.wf d t = true) : Tab.wf d (Tab.ins k v (Tab.drop t k)) = true := by
  induction t with
  | nil => simp [Tab.drop, Tab.ins, Tab.wf, Tab.above, hv]
  | cons p t ih =>
    obtain ⟨j, w⟩ := p
    have ht' := ht
    simp only [Tab.wf, Bool.and_eq_true] at ht
    by_cases h : j = k
    · simpa [Tab.drop, h] using ih ht.2
    · by_cases h2 : k < j
      · have := Tab.above_drop (k := k) ht.1.2
        simp [Tab.drop, h, Tab.ins, h2, Tab.wf, hv, Tab.above, this, Tab.wf_drop k ht.2,
          Tab.above_mono (Nat.le_of_lt h2) this]
        simpa using ht.1.1
      · have hjk : j < k := by omega
        simp [Tab.drop, h, Tab.ins, h2, Tab.wf, ih ht.2, Tab.above_ins hjk (Tab.above_drop ht.1.2)]
        simpa using ht.1.1

/-- Every write keeps the canonical form. -/
theorem Tab.wf_set [DecidableEq α] {d : Nat → α} {t : List (Nat × α)} (k : Nat) (v : α) (ht : Tab.wf d t = true) :
    Tab.wf d (Tab.set d t k v) = true := by
  by_cases h : v = d k
  · simpa [Tab.set, h] using Tab.wf_drop k ht
  · simpa [Tab.set, h] using Tab.wf_ins_drop h ht

theorem Tab.above_keep {b : Nat} {p : Nat → Bool} {t : List (Nat × α)} (ht : Tab.above b t = true) :
    Tab.above b (Tab.keep p t) = true := by
  induction t with
  | nil => rfl
  | cons q t ih =>
    obtain ⟨j, v⟩ := q
    simp only [Tab.above, Bool.and_eq_true, decide_eq_true_eq] at ht
    by_cases h : p j <;> simp [Tab.keep, h, Tab.above, ht.1, ih ht.2]

/-- Keeping some of the entries keeps the canonical form. -/
theorem Tab.wf_keep [DecidableEq α] {d : Nat → α} (p : Nat → Bool) {t : List (Nat × α)} (ht : Tab.wf d t = true) :
    Tab.wf d (Tab.keep p t) = true := by
  induction t with
  | nil => rfl
  | cons q t ih =>
    obtain ⟨j, v⟩ := q
    simp only [Tab.wf, Bool.and_eq_true] at ht
    by_cases h : p j
    · simp [Tab.keep, h, Tab.wf, Tab.above_keep ht.1.2, ih ht.2]
      simpa using ht.1.1
    · simpa [Tab.keep, h] using ih ht.2

/-- The entries kept are canonical over any defaults that agree with the old ones on them. -/
theorem Tab.wf_keep_congr [DecidableEq α] {d d' : Nat → α} (p : Nat → Bool) (hd : ∀ j, p j = true → d' j = d j)
    {t : List (Nat × α)} (ht : Tab.wf d t = true) : Tab.wf d' (Tab.keep p t) = true := by
  induction t with
  | nil => rfl
  | cons q t ih =>
    obtain ⟨j, v⟩ := q
    simp only [Tab.wf, Bool.and_eq_true] at ht
    by_cases h : p j
    · simp [Tab.keep, h, Tab.wf, Tab.above_keep ht.1.2, ih ht.2, hd j h]
      simpa using ht.1.1
    · simpa [Tab.keep, h] using ih ht.2

end Sys2Proof.Machine
end

