-- ==== Sys2Proof/Laws/Reg.lean ====
section
/-! SUPPORT. The laws of registers and fields: a read after a write, what a write leaves alone, raising events. -/

namespace Sys2Proof.Machine

/-- A field lies inside its register. -/
def Field.ok (f : Field) : Bool := decide (f.lo ≤ f.hi) && decide (f.hi < 32)

/-- Two fields share no bit. -/
def Field.apart (f g : Field) : Bool := decide (f.reg ≠ g.reg) || decide (f.hi < g.lo) || decide (g.hi < f.lo)

theorem bits_lt (w hi lo : Nat) : bits w hi lo < 2 ^ (hi + 1 - lo) := Nat.mod_lt _ (Nat.two_pow_pos _)

theorem bits_eq (w hi lo : Nat) : bits w hi lo = w / 2 ^ lo % 2 ^ (hi + 1 - lo) := by
  simp [bits, Nat.shiftRight_eq_div_pow]

/-- Splitting a number at two places. -/
theorem split3 (w lo n : Nat) :
    w = w / 2 ^ lo / 2 ^ n * 2 ^ (lo + n) + w / 2 ^ lo % 2 ^ n * 2 ^ lo + w % 2 ^ lo := by
  have h1 := Nat.div_add_mod w (2 ^ lo)
  have h2 := Nat.div_add_mod (w / 2 ^ lo) (2 ^ n)
  have h3 : 2 ^ (lo + n) = 2 ^ lo * 2 ^ n := Nat.pow_add 2 lo n
  rw [h3]
  nth_rewrite 1 [← h1]
  nth_rewrite 1 [← h2]
  ring

theorem Field.put_toNat (w : Word) (f : Field) (v : Nat) (h : f.ok = true) :
    (Field.put w f v).toNat = w.toNat / 2 ^ f.lo / 2 ^ (f.hi + 1 - f.lo) * 2 ^ (f.hi + 1)
      + v % 2 ^ (f.hi + 1 - f.lo) * 2 ^ f.lo + w.toNat % 2 ^ f.lo := by
  simp only [Field.ok, Bool.and_eq_true, decide_eq_true_eq] at h
  obtain ⟨h1, h2⟩ := h
  have hs := split3 w.toNat f.lo (f.hi + 1 - f.lo)
  have he : f.lo + (f.hi + 1 - f.lo) = f.hi + 1 := by omega
  rw [he] at hs
  have hw := w.isLt
  have hm : w.toNat % 2 ^ f.lo < 2 ^ f.lo := Nat.mod_lt _ (Nat.two_pow_pos _)
  have hv : v % 2 ^ (f.hi + 1 - f.lo) < 2 ^ (f.hi + 1 - f.lo) := Nat.mod_lt _ (Nat.two_pow_pos _)
  have hp : 2 ^ (f.hi + 1 - f.lo) * 2 ^ f.lo = 2 ^ (f.hi + 1) := by rw [← Nat.pow_add]; congr 1; omega
  have hq : 2 ^ (f.hi + 1) * 2 ^ (32 - (f.hi + 1)) = 2 ^ 32 := by rw [← Nat.pow_add]; congr 1; omega
  unfold Field.put
  rw [bits_eq, Nat.shiftLeft_eq, Nat.shiftLeft_eq, BitVec.toNat_ofNat]
  have hsub : w.toNat - w.toNat / 2 ^ f.lo % 2 ^ (f.hi + 1 - f.lo) * 2 ^ f.lo
      = w.toNat / 2 ^ f.lo / 2 ^ (f.hi + 1 - f.lo) * 2 ^ (f.hi + 1) + w.toNat % 2 ^ f.lo := by omega
  rw [hsub]
  set A := w.toNat / 2 ^ f.lo / 2 ^ (f.hi + 1 - f.lo) with hA
  have hA' : A < 2 ^ (32 - (f.hi + 1)) := by
    by_contra hc
    push Not at hc
    have := Nat.mul_le_mul_right (2 ^ (f.hi + 1)) hc
    rw [Nat.mul_comm (2 ^ (32 - (f.hi + 1)))] at this
    omega
  have hb : v % 2 ^ (f.hi + 1 - f.lo) * 2 ^ f.lo + w.toNat % 2 ^ f.lo < 2 ^ (f.hi + 1) := by
    rw [← hp]
    have := Nat.mul_le_mul_right (2 ^ f.lo) (Nat.succ_le_of_lt hv)
    simp only [Nat.succ_eq_add_one, Nat.add_mul, Nat.one_mul] at this
    omega
  have ha := Nat.mul_le_mul_right (2 ^ (f.hi + 1)) (Nat.succ_le_of_lt hA')
  simp only [Nat.succ_eq_add_one, Nat.add_mul, Nat.one_mul] at ha
  rw [Nat.mul_comm (2 ^ (32 - (f.hi + 1)))] at ha
  rw [Nat.mod_eq_of_lt (by omega)]
  omega

theorem Field.bits_put (w : Word) (f : Field) (v : Nat) (h : f.ok = true) :
    bits (Field.put w f v).toNat f.hi f.lo = v % 2 ^ (f.hi + 1 - f.lo) := by
  have hp := Field.put_toNat w f v h
  simp only [Field.ok, Bool.and_eq_true, decide_eq_true_eq] at h
  rw [bits_eq, hp]
  have hm : w.toNat % 2 ^ f.lo < 2 ^ f.lo := Nat.mod_lt _ (Nat.two_pow_pos _)
  have he : 2 ^ (f.hi + 1) = 2 ^ (f.hi + 1 - f.lo) * 2 ^ f.lo := by rw [← Nat.pow_add]; congr 1; omega
  rw [he, ← Nat.mul_assoc, ← Nat.add_mul, Nat.mul_comm _ (2 ^ f.lo), Nat.mul_add_div (Nat.two_pow_pos _),
    Nat.div_eq_of_lt hm, Nat.add_zero, Nat.mul_add_mod_self_right, Nat.mod_mod]

theorem Field.bits_put_apart (w : Word) (f : Field) (v hi lo : Nat) (h : f.ok = true) (h2 : lo ≤ hi)
    (ha : f.hi < lo ∨ hi < f.lo) : bits (Field.put w f v).toNat hi lo = bits w.toNat hi lo := by
  have hp := Field.put_toNat w f v h
  simp only [Field.ok, Bool.and_eq_true, decide_eq_true_eq] at h
  have hs := split3 w.toNat f.lo (f.hi + 1 - f.lo)
  have hx : f.lo + (f.hi + 1 - f.lo) = f.hi + 1 := by omega
  rw [hx] at hs
  have hm : w.toNat % 2 ^ f.lo < 2 ^ f.lo := Nat.mod_lt _ (Nat.two_pow_pos _)
  have hv : v % 2 ^ (f.hi + 1 - f.lo) < 2 ^ (f.hi + 1 - f.lo) := Nat.mod_lt _ (Nat.two_pow_pos _)
  have hw : w.toNat / 2 ^ f.lo % 2 ^ (f.hi + 1 - f.lo) < 2 ^ (f.hi + 1 - f.lo) := Nat.mod_lt _ (Nat.two_pow_pos _)
  have he : 2 ^ (f.hi + 1 - f.lo) * 2 ^ f.lo = 2 ^ (f.hi + 1) := by rw [← Nat.pow_add]; congr 1; omega
  have lt2 : ∀ x, x < 2 ^ (f.hi + 1 - f.lo) → x * 2 ^ f.lo + w.toNat % 2 ^ f.lo < 2 ^ (f.hi + 1) := by
    intro x hx
    have := Nat.mul_le_mul_right (2 ^ f.lo) (Nat.succ_le_of_lt hx)
    simp only [Nat.succ_eq_add_one, Nat.add_mul, Nat.one_mul] at this
    omega
  rw [bits_eq, bits_eq]
  rcases ha with ha | ha
  · -- both agree above f.hi
    have hd : ∀ x, x * 2 ^ f.lo + w.toNat % 2 ^ f.lo < 2 ^ (f.hi + 1) →
        (w.toNat / 2 ^ f.lo / 2 ^ (f.hi + 1 - f.lo) * 2 ^ (f.hi + 1) + x * 2 ^ f.lo + w.toNat % 2 ^ f.lo) / 2 ^ lo
          = w.toNat / 2 ^ f.lo / 2 ^ (f.hi + 1 - f.lo) / 2 ^ (lo - (f.hi + 1)) := by
      intro x hx
      have e : 2 ^ lo = 2 ^ (f.hi + 1) * 2 ^ (lo - (f.hi + 1)) := by rw [← Nat.pow_add]; congr 1; omega
      rw [e, ← Nat.div_div_eq_div_mul, Nat.add_assoc, Nat.mul_comm _ (2 ^ (f.hi + 1)),
        Nat.mul_add_div (Nat.two_pow_pos _), Nat.div_eq_of_lt hx, Nat.add_zero]
    have e1 := hd _ (lt2 _ hv)
    have e2 := hd _ (lt2 _ hw)
    rw [← hs] at e2
    rw [hp, e1, e2]
  · -- both agree below f.lo
    have e : 2 ^ f.lo = 2 ^ (hi + 1) * 2 ^ (f.lo - (hi + 1)) := by rw [← Nat.pow_add]; congr 1; omega
    have hmod : ∀ y, y % 2 ^ f.lo = w.toNat % 2 ^ f.lo → y / 2 ^ lo % 2 ^ (hi + 1 - lo)
        = w.toNat / 2 ^ lo % 2 ^ (hi + 1 - lo) := by
      intro y hy
      have hd : ∀ z, z / 2 ^ lo % 2 ^ (hi + 1 - lo) = z % 2 ^ (hi + 1) / 2 ^ lo := by
        intro z
        have e' : 2 ^ (hi + 1) = 2 ^ lo * 2 ^ (hi + 1 - lo) := by rw [← Nat.pow_add]; congr 1; omega
        rw [e', Nat.mod_mul_right_div_self]
      have e'' : (2 ^ (hi + 1)) ∣ 2 ^ f.lo := ⟨_, e⟩
      rw [hd, hd, ← Nat.mod_mod_of_dvd y e'', hy, Nat.mod_mod_of_dvd _ e'']
    apply hmod
    have e3 : 2 ^ (f.hi + 1) = 2 ^ f.lo * 2 ^ (f.hi + 1 - f.lo) := by rw [← Nat.pow_add]; congr 1; omega
    have e4 : w.toNat / 2 ^ f.lo / 2 ^ (f.hi + 1 - f.lo) * (2 ^ f.lo * 2 ^ (f.hi + 1 - f.lo))
        + v % 2 ^ (f.hi + 1 - f.lo) * 2 ^ f.lo + w.toNat % 2 ^ f.lo
        = (w.toNat / 2 ^ f.lo / 2 ^ (f.hi + 1 - f.lo) * 2 ^ (f.hi + 1 - f.lo) + v % 2 ^ (f.hi + 1 - f.lo)) * 2 ^ f.lo
          + w.toNat % 2 ^ f.lo := by ring
    rw [hp, e3, e4, Nat.mul_comm _ (2 ^ f.lo), Nat.mul_add_mod, Nat.mod_mod]

namespace Chip

@[simp] theorem reg_setReg_same (c : Chip) (k : Nat) (v : Word) : (c.setReg k v).reg k = v := by
  simp [Chip.reg, Chip.setReg]

theorem reg_setReg_other (c : Chip) {k j : Nat} (v : Word) (h : j ≠ k) : (c.setReg k v).reg j = c.reg j := by
  simp [Chip.reg, Chip.setReg, Tab.get_set_other _ _ v h]

@[simp] theorem fld_setFld_same (c : Chip) (f : Field) (v : Nat) (h : f.ok = true) :
    (c.setFld f v).fld f = v % 2 ^ (f.hi + 1 - f.lo) := by
  simp [Chip.fld, Chip.setFld, Field.bits_put _ f v h]

theorem fld_setFld_other (c : Chip) (f g : Field) (v : Nat) (h : f.ok = true) (hg : g.lo ≤ g.hi)
    (ha : f.apart g = true) : (c.setFld f v).fld g = c.fld g := by
  simp only [Field.apart, Bool.or_eq_true, decide_eq_true_eq] at ha
  unfold Chip.fld Chip.setFld
  by_cases hr : g.reg = f.reg
  · rw [hr, reg_setReg_same]
    have : f.hi < g.lo ∨ g.hi < f.lo := by
      rcases ha with (ha | ha) | ha
      · exact absurd hr.symm ha
      · exact Or.inl ha
      · exact Or.inr ha
    exact Field.bits_put_apart _ f v _ _ h hg this
  · rw [reg_setReg_other _ _ hr]

theorem reg_setFld_other (c : Chip) (f : Field) (v : Nat) {k : Nat} (h : k ≠ f.reg) :
    (c.setFld f v).reg k = c.reg k := reg_setReg_other c _ h

theorem bit_setFld_other (c : Chip) (f g : Field) (v : Nat) (h : f.ok = true) (hg : g.lo ≤ g.hi)
    (ha : f.apart g = true) : (c.setFld f v).bit g = c.bit g := by
  simp [Chip.bit, fld_setFld_other c f g v h hg ha]

theorem reg_raise_other (c : Chip) (e : Nat) {k : Nat} (h : k ≠ Reg.EVT_PEND (e / 32)) : (c.raise e).reg k = c.reg k := by
  unfold Chip.raise Chip.setFbit
  rw [reg_setFld_other]
  · rfl
  · exact h

theorem withBit_self (w i : Nat) : bitAt (withBit w i) i = true := by
  unfold withBit
  by_cases h : bitAt w i
  · simp [h]
  · simp only [h, Bool.false_eq_true, if_false]
    simp only [bitAt, beq_iff_eq] at h ⊢
    rw [Nat.add_div_right _ (Nat.two_pow_pos i)]
    omega

theorem withBit_lt (w i n : Nat) (h : w < 2 ^ n) (hi : i < n) : withBit w i < 2 ^ n := by
  unfold withBit
  by_cases hb : bitAt w i
  · simpa [hb] using h
  · simp only [hb, Bool.false_eq_true, if_false]
    simp only [bitAt, beq_iff_eq] at hb
    have h1 := split3 w i (n - i)
    have hp : 2 ^ n = 2 ^ i * 2 ^ (n - i) := by rw [← Nat.pow_add]; congr 1; omega
    have h2 : w / 2 ^ i < 2 ^ (n - i) := by
      rw [Nat.div_lt_iff_lt_mul (Nat.two_pow_pos i), Nat.mul_comm, ← hp]; exact h
    have hev : 2 ^ (n - i) = 2 * 2 ^ (n - i - 1) := by rw [← Nat.pow_succ']; congr 1; omega
    have h3 : w / 2 ^ i + 1 < 2 ^ (n - i) := by omega
    have h4 := Nat.div_add_mod w (2 ^ i)
    have h5 : w % 2 ^ i < 2 ^ i := Nat.mod_lt _ (Nat.two_pow_pos i)
    have h6 := Nat.mul_le_mul_left (2 ^ i) (Nat.succ_le_of_lt h3)
    rw [hp]
    have h7 : 2 ^ i * (w / 2 ^ i + 1).succ = 2 ^ i * (w / 2 ^ i) + 2 ^ i + 2 ^ i := by
      rw [Nat.succ_eq_add_one]; ring
    omega

theorem bitAt_eq_testBit (x k : Nat) : bitAt x k = x.testBit k := by
  rw [Nat.testBit_eq_decide_div_mod_eq]
  simp only [bitAt]
  by_cases h : x / 2 ^ k % 2 = 1 <;> simp [h]

theorem withBit_other (w i j : Nat) (h : j ≠ i) : bitAt (withBit w i) j = bitAt w j := by
  unfold withBit
  by_cases hb : bitAt w i
  · simp [hb]
  · simp only [hb, Bool.false_eq_true, if_false]
    simp only [bitAt, beq_iff_eq] at hb
    have hr : w % 2 ^ i < 2 ^ i := Nat.mod_lt _ (Nat.two_pow_pos i)
    have e1 : w = 2 ^ i * (w / 2 ^ i) + w % 2 ^ i := (Nat.div_add_mod w (2 ^ i)).symm
    have e2 : w + 2 ^ i = 2 ^ i * (w / 2 ^ i + 1) + w % 2 ^ i := by rw [Nat.mul_add]; omega
    rw [bitAt_eq_testBit, bitAt_eq_testBit, e2]
    conv_rhs => rw [e1]
    rw [Nat.testBit_two_pow_mul_add _ hr, Nat.testBit_two_pow_mul_add _ hr]
    by_cases hj : j < i
    · simp [hj]
    · simp only [hj, if_false]
      obtain ⟨d, hd⟩ : ∃ d, j - i = d + 1 := ⟨j - i - 1, by omega⟩
      rw [hd, Nat.testBit_succ, Nat.testBit_succ]
      congr 1
      omega

end Chip

end Sys2Proof.Machine
end

