-- ==== Sys2Proof/Laws/Ops.lean ====
section
/-! SUPPORT. One lemma per shared operation: what every command ends with, a register write and read by a master, an event
raised, a memory word written. -/

namespace Sys2Proof.Machine

/-! ### The end of a command -/

theorem Otp.cut_id (o : Otp) (c0 c : Chip) (h : c0.sec.fuseOp = none ∨ c.sec.fuseOp.isSome) : o.cut c0 c = (o, c) := by
  unfold Otp.cut
  rcases h with h | h
  · rw [h]
  · cases h0 : c0.sec.fuseOp <;> cases h1 : c.sec.fuseOp <;> simp_all

theorem Chip.ospiCut_id (c0 c : Chip) (h : c0.sec.ospi = none ∨ c.sec.ospi.isSome) : c0.ospiCut c = c := by
  unfold Chip.ospiCut
  rcases h with h | h
  · rw [h]
  · cases h0 : c0.sec.ospi <;> cases h1 : c.sec.ospi <;> simp_all

/-- Units follow the clocks only where the tick pauses or stops, or the safe clock takes over. -/
theorem Chip.follow_id (c0 c : Chip) (hp : c.bit F.TICK_STATUS_PAUSED = true → c0.bit F.TICK_STATUS_PAUSED = true)
    (hr : c0.bit F.TICK_STATUS_RUNNING = true → c.bit F.TICK_STATUS_RUNNING = true)
    (hs : c.bit F.CLK_STATUS_SAFE = true → c0.bit F.CLK_STATUS_SAFE = true) : Chip.follow c0 c = c := by
  have e1 : (c.bit F.TICK_STATUS_PAUSED && !c0.bit F.TICK_STATUS_PAUSED) = false := by
    cases h : c.bit F.TICK_STATUS_PAUSED <;> simp_all
  have e2 : (c0.bit F.TICK_STATUS_RUNNING && !c.bit F.TICK_STATUS_RUNNING) = false := by
    cases h : c0.bit F.TICK_STATUS_RUNNING <;> simp_all
  have e3 : (c.bit F.CLK_STATUS_SAFE && !c0.bit F.CLK_STATUS_SAFE) = false := by
    cases h : c.bit F.CLK_STATUS_SAFE <;> simp_all
  simp [Chip.follow, Chip.when, e1, e2, e3]

theorem Chip.conclude_calm (c0 c : Chip) (o : Otp) (h : c.Calm) (hf : Chip.follow c0 c = c) : Chip.conclude c0 c o = c := by
  obtain ⟨h1, h2, h3⟩ := h
  simp [Chip.conclude, hf, Chip.migCheck, h1, Chip.mbWakeTake, h2, Chip.fuseSettle, h3]

/-- A command that leaves a calm block, and keeps the clocks' state and the operations of the fuses and the flash, is over
with what it does itself. -/
theorem concluded_calm (s t : State) (h : t.chip.Calm)
    (hp : t.chip.bit F.TICK_STATUS_PAUSED = true → s.chip.bit F.TICK_STATUS_PAUSED = true)
    (hr : s.chip.bit F.TICK_STATUS_RUNNING = true → t.chip.bit F.TICK_STATUS_RUNNING = true)
    (hs : t.chip.bit F.CLK_STATUS_SAFE = true → s.chip.bit F.CLK_STATUS_SAFE = true)
    (h1 : s.chip.sec.fuseOp = none ∨ t.chip.sec.fuseOp.isSome) (h2 : s.chip.sec.ospi = none ∨ t.chip.sec.ospi.isSome) :
    concluded s t = t := by
  unfold concluded
  rw [Chip.ospiCut_id _ _ h2, Otp.cut_id _ _ _ h1]
  simp only
  rw [Chip.conclude_calm _ _ _ h (Chip.follow_id _ _ hp hr hs)]

/-- The same for a command on the block alone that keeps the clocks' registers and the security block. -/
theorem run_calm (f : Chip → Chip) (s : State) (h : (f s.begin_.chip).Calm)
    (hk : ∀ k ∈ [Reg.TICK_STATUS, Reg.CLK_STATUS], (f s.begin_.chip).reg k = s.chip.reg k)
    (hsec : (f s.begin_.chip).sec = s.chip.sec) :
    run f s = .next { s with chip := f s.begin_.chip } := by
  have e1 : (f s.begin_.chip).reg Reg.TICK_STATUS = s.chip.reg Reg.TICK_STATUS := hk _ (by simp)
  have e2 : (f s.begin_.chip).reg Reg.CLK_STATUS = s.chip.reg Reg.CLK_STATUS := hk _ (by simp)
  unfold run finish
  rw [concluded_calm]
  · exact h
  · simp [Chip.bit, Chip.fld, F.TICK_STATUS_PAUSED, e1]
  · simp [Chip.bit, Chip.fld, F.TICK_STATUS_RUNNING, e1]
  · simp [Chip.bit, Chip.fld, F.CLK_STATUS_SAFE, e2]
  · simp only [hsec]; cases s.chip.sec.fuseOp <;> simp
  · simp only [hsec]; cases s.chip.sec.ospi <;> simp

/-! ### Memory keeps its canonical form -/

theorem Chip.setByte_wf (c : Chip) (a : Nat) (b : Byte) (h : Memory.wf c = true) : Memory.wf (c.setByte a b) = true := by
  simp only [Memory.wf, Bool.and_eq_true] at h ⊢
  exact ⟨Tab.wf_set a b h.1, h.2⟩

theorem Chip.setRaw_wf (c : Chip) (a : Nat) (w : Word) (h : Memory.wf c = true) : Memory.wf (c.setRaw a w) = true := by
  unfold Chip.setRaw
  exact Chip.setByte_wf _ _ _ (Chip.setByte_wf _ _ _ (Chip.setByte_wf _ _ _ (Chip.setByte_wf _ _ _ h)))

/-- Memory.wf looks at the two byte tables and at what their unlisted bytes read as. -/
theorem Memory.wf_congr {c d : Chip} (h1 : d.mem = c.mem) (h2 : d.lost = c.lost) (h3 : d.ddr = c.ddr)
    (h4 : d.ddrLost = c.ddrLost) : Memory.wf d = Memory.wf c := by
  simp [Memory.wf, h1, h2, h3, h4]

theorem Chip.when_wf (c : Chip) (b : Bool) (f : Chip → Chip) (h : Memory.wf c = true) (hf : Memory.wf (f c) = true) :
    Memory.wf (c.when b f) = true := by
  unfold Chip.when
  split
  · exact hf
  · exact h

theorem Chip.setReg_wf (c : Chip) (k : Nat) (v : Word) : Memory.wf (c.setReg k v) = Memory.wf c :=
  Memory.wf_congr rfl rfl rfl rfl

theorem Chip.setEcc_wf (c : Chip) (a n : Nat) : Memory.wf (c.setEcc a n) = Memory.wf c := Memory.wf_congr rfl rfl rfl rfl

theorem Chip.untag_wf (c : Chip) (a : Nat) (h : Memory.wf c = true) : Memory.wf (c.untag a) = true :=
  Chip.when_wf c _ _ h (by rw [Memory.wf_congr (c := c)] <;> first | exact h | rfl)

theorem Chip.breakSeal_wf (c : Chip) (a : Nat) (h : Memory.wf c = true) : Memory.wf (c.breakSeal a) = true :=
  Chip.when_wf c _ _ h (by unfold Chip.setFld; rw [Chip.setReg_wf]; exact h)

/-- Writing a word keeps the canonical form. -/
theorem Chip.poke_wf (c : Chip) (a mask : Nat) (v : Word) (h : Memory.wf c = true) : Memory.wf (c.poke a mask v) = true := by
  have h1 := Chip.breakSeal_wf _ a (Chip.untag_wf _ a (Chip.setRaw_wf c a (merge (c.peek a) v mask) h))
  unfold Chip.poke
  generalize ((c.setRaw a (merge (c.peek a) v mask)).untag a).breakSeal a = d at h1 ⊢
  exact Chip.when_wf d _ _ h1 (by rw [Chip.setEcc_wf]; exact h1)

theorem Chip.setDdrByte_wf (c : Chip) (a : Nat) (b : Byte) (h : Memory.wf c = true) :
    Memory.wf (c.setDdrByte a b) = true := by
  simp only [Memory.wf, Bool.and_eq_true] at h ⊢
  exact ⟨h.1, Tab.wf_set a b h.2⟩

/-- Writing a word of external memory keeps the canonical form. -/
theorem Chip.pokeDdr_wf (c : Chip) (a mask : Nat) (v : Word) (h : Memory.wf c = true) :
    Memory.wf (c.pokeDdr a mask v) = true := by
  have : ∀ (l : List Nat) (c : Chip), Memory.wf c = true →
      Memory.wf (l.foldl (fun c k => c.when (bitAt mask k) (·.setDdrByte (a + k) (byteOf v k))) c) = true := by
    intro l
    induction l with
    | nil => intro c h; exact h
    | cons k l ih =>
      intro c h
      exact ih _ (Chip.when_wf _ _ _ h (Chip.setDdrByte_wf _ _ _ h))
  exact this _ _ h

/-- A memory that loses its content keeps the canonical form. -/
theorem Chip.lose_wf (c : Chip) (n : Nat) (h : Memory.wf c = true) : Memory.wf (c.lose n) = true := by
  simp only [Memory.wf, Bool.and_eq_true] at h ⊢
  refine ⟨Tab.wf_keep_congr _ (fun j hj => ?_) h.1, h.2⟩
  have hn : memNo j ≠ n := by simpa using hj
  simp [unlisted, Chip.lose, Tab.get_set_other _ _ _ hn]

/-- The external memory that loses its content keeps it too. -/
theorem Chip.loseDdr_wf (c : Chip) (h : Memory.wf c = true) : Memory.wf c.loseDdr = true := by
  simp only [Memory.wf, Bool.and_eq_true] at h
  simp [Memory.wf, Chip.loseDdr, h.1, Tab.wf]

end Sys2Proof.Machine
end

