-- ==== Sys2Proof/Laws/Bus.lean ====
section
/-! SUPPORT. Registers over the bus: where a master writes or reads a register, the access is that register's own write or
read (R10, R24, R26, R341). -/

namespace Sys2Proof.Machine

/-- The address is a register's: in peripheral space, or in an engine's control region outside the register-file window. -/
def isReg (a : Nat) : Bool :=
  a % 4 == 0 &&
    (decide (0x40000000 ≤ a) && decide (a < 0x40150000) ||
      decide (0x30000000 ≤ a) && decide (a < 0x32800000) && decide (0x180000 ≤ (a - 0x30000000) % 0x400000) &&
        decide ((a - 0x30000000) % 0x400000 < 0x190000) &&
        !(decide (0x181000 ≤ (a - 0x30000000) % 0x400000) && decide ((a - 0x30000000) % 0x400000 < 0x182000)))

theorem isReg_mul {a : Nat} (h : isReg a = true) : a / 4 * 4 = a := by
  simp only [isReg, Bool.and_eq_true, beq_iff_eq] at h
  omega

theorem place_reg (c : Chip) (id : Nat) {a : Nat} (h : isReg a = true) : c.place id a = .reg a := by
  simp only [isReg, Bool.and_eq_true, Bool.or_eq_true, Bool.not_eq_true', Bool.and_eq_false_iff, beq_iff_eq,
    decide_eq_true_eq, decide_eq_false_iff_not] at h
  obtain ⟨h4, h⟩ := h
  unfold Chip.place
  rcases h with h | h
  · rw [if_neg (by omega), if_neg (by omega), if_neg (by omega), if_neg (by omega), if_neg (by omega), if_neg (by omega),
      if_neg (by omega), if_neg (by omega), if_neg (by omega), if_neg (by omega), if_pos (by omega)]
  · rw [if_neg (by omega), if_neg (by omega), if_neg (by omega), if_neg (by omega), if_neg (by omega), if_neg (by omega),
      if_neg (by omega), if_neg (by omega), if_pos (by omega)]
    unfold enginePlace
    rw [if_neg (by omega), if_neg (by omega), if_neg (by omega), if_neg (by omega), if_neg (by omega), if_neg (by omega),
      if_neg (by omega), if_neg (by omega), if_pos (by omega)]

theorem busWrite_reg (c : Chip) (id a : Nat) (v : Word) (h : isReg a = true) (hr : c.regReached id a = true)
    (hg : c.ledgerGuarded a = false ∨ id = mDbg) : c.busWrite id a 4 15 v false = c.regPut id a v := by
  have hm := isReg_mul h
  have h4 : a % 4 = 0 := by simp only [isReg, Bool.and_eq_true, beq_iff_eq] at h; exact h.1
  have hgg : (c.ledgerGuarded a && id != mDbg) = false := by
    rcases hg with hg | hg <;> simp [hg]
  unfold Chip.busWrite
  rw [hm, hgg]
  simp only [Bool.false_eq_true, if_false]
  unfold Chip.busPut
  rw [hm, place_reg c id h]
  simp [Chip.placeOpen, hr, h4]

theorem windowOf_spec {c : Chip} {id a off : Nat} (h : c.windowOf id a = some off) : c.windowReg id off = some a := by
  have := List.find?_some h
  simpa using this

theorem Chip.when_false (c : Chip) (f : Chip → Chip) : c.when false f = c := rfl

theorem masterWrite_secp (c : Chip) (a : Nat) (v : Word) : c.masterWrite .secp a v =
    (c.busWrite Master.secp.id a 4 15 v false).1.when (c.busWrite Master.secp.id a 4 15 v false).2 (·.answer .busError) := rfl

theorem masterWrite_cp (c : Chip) (a : Nat) (v : Word) : c.masterWrite .cp a v =
    (c.busWrite Master.cp.id a 4 15 v false).1.when (c.busWrite Master.cp.id a 4 15 v false).2 (·.answer .busError) := rfl

theorem masterWrite_debug (c : Chip) (a : Nat) (v : Word) : c.masterWrite .debug a v =
    if c.debugReaches a = true then
      (c.busWrite mDbg a 4 15 v false).1.when (c.busWrite mDbg a 4 15 v false).2 (·.answer .busError)
    else c.debugRefuse := by
  show c.debugAccess a (some v) = _
  unfold Chip.debugAccess
  cases c.debugReaches a <;> rfl

theorem masterWrite_port (c : Chip) (m : Master) (a : Nat) (v : Word) (off : Nat) (hm : m = .spi ∨ m = .i2c ∨ m = .usb)
    (ho : c.windowOf m.id a = some off) {d : Chip} (hw : c.hostWrite m.id off v = (true, d)) : c.masterWrite m a v = d := by
  rcases hm with rfl | rfl | rfl <;>
  · delta Chip.masterWrite
    dsimp only
    rw [ho]
    dsimp only
    rw [hw]
    rfl

/-- A master that writes the register at `a` gives it its own write. -/
theorem masterWrite_reg (c : Chip) (m : Master) (a : Nat) (v : Word) (h : isReg a = true) (hw : c.writes m a = true)
    (he : (c.regPut m.id a v).2 = false) : c.masterWrite m a v = (c.regPut m.id a v).1 := by
  have port : ∀ id, c.portWrites id a = true → ∃ off, c.windowOf id a = some off ∧ c.hostWrite id off v = (true, (c.regPut id a v).1) := by
    intro id h
    delta Chip.portWrites at h
    cases ho : c.windowOf id a with
    | none => simp [ho] at h
    | some off =>
      simp only [ho, Bool.and_eq_true, Bool.not_eq_true', Bool.and_eq_false_iff, bne_iff_ne, ne_eq,
        decide_eq_false_iff_not, bne_eq_false_iff_eq] at h
      have hw := windowOf_spec ho
      refine ⟨off, rfl, ?_⟩
      have h610 : off ≠ 0x610 := by
        intro hc; subst hc; simp [Chip.windowReg] at hw
      have h600 : ¬(0x600 ≤ off ∧ off < 0x610) := by
        intro hc
        simp only [Chip.windowReg] at hw
        rw [if_neg (by omega), if_neg (by omega), if_neg (by omega), if_neg (by omega), if_neg (by omega), if_neg (by omega),
          if_neg (by omega)] at hw
        cases hw
      unfold Chip.hostWrite
      rw [if_neg h600, if_neg (by omega), if_neg (by omega), hw]
  cases m with
  | secp =>
    have hw : (c.regReached Master.secp.id a && !c.ledgerGuarded a) = true := hw
    simp only [Bool.and_eq_true, Bool.not_eq_true'] at hw
    rw [masterWrite_secp, busWrite_reg c _ a v h hw.1 (Or.inl hw.2), he, Chip.when_false]
  | cp =>
    have hw : (c.regReached Master.cp.id a && !c.ledgerGuarded a) = true := hw
    simp only [Bool.and_eq_true, Bool.not_eq_true'] at hw
    rw [masterWrite_cp, busWrite_reg c _ a v h hw.1 (Or.inl hw.2), he, Chip.when_false]
  | debug =>
    have hw : (c.debugReaches a && c.regReached mDbg a) = true := hw
    simp only [Bool.and_eq_true] at hw
    have hid : Master.id .debug = mDbg := rfl
    rw [hid] at he ⊢
    rw [masterWrite_debug, if_pos hw.1, busWrite_reg c mDbg a v h hw.2 (Or.inr rfl)]
    rw [he, Chip.when_false]
  | spi =>
    have hw' : c.portWrites Master.spi.id a = true := hw
    obtain ⟨off, h1, h2⟩ := port Master.spi.id hw'
    exact masterWrite_port c .spi a v off (Or.inl rfl) h1 h2
  | i2c =>
    have hw' : c.portWrites Master.i2c.id a = true := hw
    obtain ⟨off, h1, h2⟩ := port Master.i2c.id hw'
    exact masterWrite_port c .i2c a v off (Or.inr (Or.inl rfl)) h1 h2
  | usb =>
    have hw' : c.portWrites Master.usb.id a = true := hw
    obtain ⟨off, h1, h2⟩ := port Master.usb.id hw'
    exact masterWrite_port c .usb a v off (Or.inr (Or.inr rfl)) h1 h2

/-- What a write needs to look at: the registers of a word written whole with one field replaced. -/
theorem writeWith_reg (c : Chip) (m : Master) (f : Field) (x : Nat) (v : Word) (h : isReg f.reg = true)
    (hw : c.writes m f.reg = true) (he : (c.regPut m.id f.reg (f.put v x)).2 = false) :
    c.writeWith m f x v = (c.regPut m.id f.reg (f.put v x)).1 := masterWrite_reg c m f.reg _ h hw he

theorem bitAt_eq_bits (w i : Nat) : bitAt w i = (bits w i i == 1) := by
  simp [bitAt, bits_eq]

theorem bitAt_put_self (w : Word) (f : Field) (v : Nat) (h : f.ok = true) (h1 : f.hi = f.lo) :
    bitAt (Field.put w f v).toNat f.lo = (v % 2 == 1) := by
  have := Field.bits_put w f v h
  rw [h1] at this
  rw [bitAt_eq_bits, this]
  simp

theorem bitAt_put_apart (w : Word) (f : Field) (v i : Nat) (h : f.ok = true) (ha : f.hi < i ∨ i < f.lo) :
    bitAt (Field.put w f v).toNat i = bitAt w.toNat i := by
  rw [bitAt_eq_bits, bitAt_eq_bits, Field.bits_put_apart w f v i i h (Nat.le_refl i) ha]

end Sys2Proof.Machine
end

