-- ==== Sys2Proof/Laws/Engine.lean ====
section
/-! SUPPORT. What the choice among tied results (R67) does: nothing where no two are tied, as in every issue of one
syllable. -/

namespace Sys2Proof.Machine

/-- Where no two results are tied, all are kept and no free value is drawn. -/
theorem keepOne_untied {α : Type} [DecidableEq α] (tied : α → α → Bool) (c : Chip) (l kept : List α)
    (h : (kept ++ l).Pairwise fun g f => tied f g = false) : keepOne tied c kept l = (c, kept ++ l) := by
  induction l generalizing kept with
  | nil => simp [keepOne]
  | cons f l ih =>
    have hf : kept.find? (tied f) = none := by
      rw [List.find?_eq_none]
      intro g hg
      simp [(List.pairwise_append.mp h).2.2 g hg f (by simp)]
    simp only [keepOne, hf]
    rw [ih (kept ++ [f]) (by simpa using h)]
    simp

/-- Results that all come from one syllable are not tied. -/
theorem Fx.untie_of_one (fx : Fx) (l : List (Nat × Syl)) (a : Nat) (hf : ∀ f ∈ fx.fl, f.addr = a)
    (ha : fx.acc.length ≤ 1) : fx.untie l = fx := by
  have h1 : ([] ++ fx.fl).Pairwise fun g f : Flight => (f.dst != Dest.nothing && f.dst == g.dst && f.wait == g.wait &&
      f.addr != g.addr && unitAt l f.addr == unitAt l g.addr) = false := by
    rw [List.nil_append, List.pairwise_iff_forall_sublist]
    intro g f hs
    have hg := hf g (hs.subset (by simp))
    have hf' := hf f (hs.subset (by simp))
    simp [hg, hf']
  have h2 : ([] ++ fx.acc).Pairwise fun g f : AccRes => (f.isA && g.isA && f.ix == g.ix) = false := by
    rcases hx : fx.acc with _ | ⟨x, _ | ⟨y, t⟩⟩
    · simp
    · simp
    · simp [hx] at ha
  simp only [Fx.untie, keepOne_untied _ _ _ _ h1, keepOne_untied _ _ _ _ h2, List.nil_append]

end Sys2Proof.Machine
end

