-- ==== Sys2Proof/Laws/State.lean ====
section
/-! SUPPORT. What each update of the block leaves as it was, field by field, and the views of registers, cores and what
stands beside the cores that it leaves; what it makes of its own field. Every lemma is true by unfolding. -/

namespace Sys2Proof.Machine

/-! ### The state -/

@[simp] theorem State.begin_otp (s : State) : s.begin_.otp = s.otp := rfl
@[simp] theorem State.begin_pending (s : State) : s.begin_.pending = s.pending := rfl
@[simp] theorem State.begin_chip (s : State) : s.begin_.chip = { s.chip with resp := .none } := rfl
@[simp] theorem State.reset_otp : State.reset.otp = {} := rfl
@[simp] theorem State.reset_chip : State.reset.chip = {} := rfl
@[simp] theorem State.reset_pending : State.reset.pending = [] := rfl

namespace Chip

variable (c : Chip)

/-! ### `setReg` -/

@[simp] theorem setReg_fuseDue (k : Nat) (v : Word) : (c.setReg k v).fuseDue = c.fuseDue := rfl
@[simp] theorem setReg_resp (k : Nat) (v : Word) : (c.setReg k v).resp = c.resp := rfl
@[simp] theorem setReg_drawn (k : Nat) (v : Word) : (c.setReg k v).drawn = c.drawn := rfl
@[simp] theorem setReg_mem (k : Nat) (v : Word) : (c.setReg k v).mem = c.mem := rfl
@[simp] theorem setReg_lost (k : Nat) (v : Word) : (c.setReg k v).lost = c.lost := rfl
@[simp] theorem setReg_ecc (k : Nat) (v : Word) : (c.setReg k v).ecc = c.ecc := rfl
@[simp] theorem setReg_tags (k : Nat) (v : Word) : (c.setReg k v).tags = c.tags := rfl
@[simp] theorem setReg_ddr (k : Nat) (v : Word) : (c.setReg k v).ddr = c.ddr := rfl
@[simp] theorem setReg_ddrLost (k : Nat) (v : Word) : (c.setReg k v).ddrLost = c.ddrLost := rfl
@[simp] theorem setReg_image (k : Nat) (v : Word) : (c.setReg k v).image = c.image := rfl
@[simp] theorem setReg_tick (k : Nat) (v : Word) : (c.setReg k v).tick = c.tick := rfl
@[simp] theorem setReg_cores (k : Nat) (v : Word) : (c.setReg k v).cores = c.cores := rfl
@[simp] theorem setReg_aux (k : Nat) (v : Word) : (c.setReg k v).aux = c.aux := rfl
@[simp] theorem setReg_shadow (k : Nat) (v : Word) : (c.setReg k v).shadow = c.shadow := rfl
@[simp] theorem setReg_strm (k : Nat) (v : Word) : (c.setReg k v).strm = c.strm := rfl
@[simp] theorem setReg_pan (k : Nat) (v : Word) : (c.setReg k v).pan = c.pan := rfl
@[simp] theorem setReg_spare (k : Nat) (v : Word) : (c.setReg k v).spare = c.spare := rfl
@[simp] theorem setReg_mbWake (k : Nat) (v : Word) : (c.setReg k v).mbWake = c.mbWake := rfl
@[simp] theorem setReg_tlk (k : Nat) (v : Word) : (c.setReg k v).tlk = c.tlk := rfl
@[simp] theorem setReg_sap (k : Nat) (v : Word) : (c.setReg k v).sap = c.sap := rfl
@[simp] theorem setReg_asrc (k : Nat) (v : Word) : (c.setReg k v).asrc = c.asrc := rfl
@[simp] theorem setReg_rtr (k : Nat) (v : Word) : (c.setReg k v).rtr = c.rtr := rfl
@[simp] theorem setReg_clk (k : Nat) (v : Word) : (c.setReg k v).clk = c.clk := rfl
@[simp] theorem setReg_sense (k : Nat) (v : Word) : (c.setReg k v).sense = c.sense := rfl
@[simp] theorem setReg_act (k : Nat) (v : Word) : (c.setReg k v).act = c.act := rfl
@[simp] theorem setReg_usb (k : Nat) (v : Word) : (c.setReg k v).usb = c.usb := rfl
@[simp] theorem setReg_midi (k : Nat) (v : Word) : (c.setReg k v).midi = c.midi := rfl
@[simp] theorem setReg_flash (k : Nat) (v : Word) : (c.setReg k v).flash = c.flash := rfl
@[simp] theorem setReg_sec (k : Nat) (v : Word) : (c.setReg k v).sec = c.sec := rfl
@[simp] theorem setReg_pmu (k : Nat) (v : Word) : (c.setReg k v).pmu = c.pmu := rfl
@[simp] theorem setReg_irq (k : Nat) (v : Word) : (c.setReg k v).irq = c.irq := rfl
@[simp] theorem setReg_ndo (k : Nat) (v : Word) : (c.setReg k v).ndo = c.ndo := rfl
@[simp] theorem setReg_scrub (k : Nat) (v : Word) : (c.setReg k v).scrub = c.scrub := rfl
@[simp] theorem setReg_core (k : Nat) (v : Word) (j : Nat) : (c.setReg k v).core j = c.core j := rfl
@[simp] theorem setReg_auxOf (k : Nat) (v : Word) (j : Nat) : (c.setReg k v).auxOf j = c.auxOf j := rfl

/-! ### `setReg64` -/

@[simp] theorem setReg64_fuseDue (k h v : Nat) : (c.setReg64 k h v).fuseDue = c.fuseDue := rfl
@[simp] theorem setReg64_resp (k h v : Nat) : (c.setReg64 k h v).resp = c.resp := rfl
@[simp] theorem setReg64_drawn (k h v : Nat) : (c.setReg64 k h v).drawn = c.drawn := rfl
@[simp] theorem setReg64_mem (k h v : Nat) : (c.setReg64 k h v).mem = c.mem := rfl
@[simp] theorem setReg64_lost (k h v : Nat) : (c.setReg64 k h v).lost = c.lost := rfl
@[simp] theorem setReg64_ecc (k h v : Nat) : (c.setReg64 k h v).ecc = c.ecc := rfl
@[simp] theorem setReg64_tags (k h v : Nat) : (c.setReg64 k h v).tags = c.tags := rfl
@[simp] theorem setReg64_ddr (k h v : Nat) : (c.setReg64 k h v).ddr = c.ddr := rfl
@[simp] theorem setReg64_ddrLost (k h v : Nat) : (c.setReg64 k h v).ddrLost = c.ddrLost := rfl
@[simp] theorem setReg64_image (k h v : Nat) : (c.setReg64 k h v).image = c.image := rfl
@[simp] theorem setReg64_tick (k h v : Nat) : (c.setReg64 k h v).tick = c.tick := rfl
@[simp] theorem setReg64_cores (k h v : Nat) : (c.setReg64 k h v).cores = c.cores := rfl
@[simp] theorem setReg64_aux (k h v : Nat) : (c.setReg64 k h v).aux = c.aux := rfl
@[simp] theorem setReg64_shadow (k h v : Nat) : (c.setReg64 k h v).shadow = c.shadow := rfl
@[simp] theorem setReg64_strm (k h v : Nat) : (c.setReg64 k h v).strm = c.strm := rfl
@[simp] theorem setReg64_pan (k h v : Nat) : (c.setReg64 k h v).pan = c.pan := rfl
@[simp] theorem setReg64_spare (k h v : Nat) : (c.setReg64 k h v).spare = c.spare := rfl
@[simp] theorem setReg64_mbWake (k h v : Nat) : (c.setReg64 k h v).mbWake = c.mbWake := rfl
@[simp] theorem setReg64_tlk (k h v : Nat) : (c.setReg64 k h v).tlk = c.tlk := rfl
@[simp] theorem setReg64_sap (k h v : Nat) : (c.setReg64 k h v).sap = c.sap := rfl
@[simp] theorem setReg64_asrc (k h v : Nat) : (c.setReg64 k h v).asrc = c.asrc := rfl
@[simp] theorem setReg64_rtr (k h v : Nat) : (c.setReg64 k h v).rtr = c.rtr := rfl
@[simp] theorem setReg64_clk (k h v : Nat) : (c.setReg64 k h v).clk = c.clk := rfl
@[simp] theorem setReg64_sense (k h v : Nat) : (c.setReg64 k h v).sense = c.sense := rfl
@[simp] theorem setReg64_act (k h v : Nat) : (c.setReg64 k h v).act = c.act := rfl
@[simp] theorem setReg64_usb (k h v : Nat) : (c.setReg64 k h v).usb = c.usb := rfl
@[simp] theorem setReg64_midi (k h v : Nat) : (c.setReg64 k h v).midi = c.midi := rfl
@[simp] theorem setReg64_flash (k h v : Nat) : (c.setReg64 k h v).flash = c.flash := rfl
@[simp] theorem setReg64_sec (k h v : Nat) : (c.setReg64 k h v).sec = c.sec := rfl
@[simp] theorem setReg64_pmu (k h v : Nat) : (c.setReg64 k h v).pmu = c.pmu := rfl
@[simp] theorem setReg64_irq (k h v : Nat) : (c.setReg64 k h v).irq = c.irq := rfl
@[simp] theorem setReg64_ndo (k h v : Nat) : (c.setReg64 k h v).ndo = c.ndo := rfl
@[simp] theorem setReg64_scrub (k h v : Nat) : (c.setReg64 k h v).scrub = c.scrub := rfl
@[simp] theorem setReg64_core (k h v : Nat) (j : Nat) : (c.setReg64 k h v).core j = c.core j := rfl
@[simp] theorem setReg64_auxOf (k h v : Nat) (j : Nat) : (c.setReg64 k h v).auxOf j = c.auxOf j := rfl

/-! ### `setFld` -/

@[simp] theorem setFld_fuseDue (f : Field) (v : Nat) : (c.setFld f v).fuseDue = c.fuseDue := rfl
@[simp] theorem setFld_resp (f : Field) (v : Nat) : (c.setFld f v).resp = c.resp := rfl
@[simp] theorem setFld_drawn (f : Field) (v : Nat) : (c.setFld f v).drawn = c.drawn := rfl
@[simp] theorem setFld_mem (f : Field) (v : Nat) : (c.setFld f v).mem = c.mem := rfl
@[simp] theorem setFld_lost (f : Field) (v : Nat) : (c.setFld f v).lost = c.lost := rfl
@[simp] theorem setFld_ecc (f : Field) (v : Nat) : (c.setFld f v).ecc = c.ecc := rfl
@[simp] theorem setFld_tags (f : Field) (v : Nat) : (c.setFld f v).tags = c.tags := rfl
@[simp] theorem setFld_ddr (f : Field) (v : Nat) : (c.setFld f v).ddr = c.ddr := rfl
@[simp] theorem setFld_ddrLost (f : Field) (v : Nat) : (c.setFld f v).ddrLost = c.ddrLost := rfl
@[simp] theorem setFld_image (f : Field) (v : Nat) : (c.setFld f v).image = c.image := rfl
@[simp] theorem setFld_tick (f : Field) (v : Nat) : (c.setFld f v).tick = c.tick := rfl
@[simp] theorem setFld_cores (f : Field) (v : Nat) : (c.setFld f v).cores = c.cores := rfl
@[simp] theorem setFld_aux (f : Field) (v : Nat) : (c.setFld f v).aux = c.aux := rfl
@[simp] theorem setFld_shadow (f : Field) (v : Nat) : (c.setFld f v).shadow = c.shadow := rfl
@[simp] theorem setFld_strm (f : Field) (v : Nat) : (c.setFld f v).strm = c.strm := rfl
@[simp] theorem setFld_pan (f : Field) (v : Nat) : (c.setFld f v).pan = c.pan := rfl
@[simp] theorem setFld_spare (f : Field) (v : Nat) : (c.setFld f v).spare = c.spare := rfl
@[simp] theorem setFld_mbWake (f : Field) (v : Nat) : (c.setFld f v).mbWake = c.mbWake := rfl
@[simp] theorem setFld_tlk (f : Field) (v : Nat) : (c.setFld f v).tlk = c.tlk := rfl
@[simp] theorem setFld_sap (f : Field) (v : Nat) : (c.setFld f v).sap = c.sap := rfl
@[simp] theorem setFld_asrc (f : Field) (v : Nat) : (c.setFld f v).asrc = c.asrc := rfl
@[simp] theorem setFld_rtr (f : Field) (v : Nat) : (c.setFld f v).rtr = c.rtr := rfl
@[simp] theorem setFld_clk (f : Field) (v : Nat) : (c.setFld f v).clk = c.clk := rfl
@[simp] theorem setFld_sense (f : Field) (v : Nat) : (c.setFld f v).sense = c.sense := rfl
@[simp] theorem setFld_act (f : Field) (v : Nat) : (c.setFld f v).act = c.act := rfl
@[simp] theorem setFld_usb (f : Field) (v : Nat) : (c.setFld f v).usb = c.usb := rfl
@[simp] theorem setFld_midi (f : Field) (v : Nat) : (c.setFld f v).midi = c.midi := rfl
@[simp] theorem setFld_flash (f : Field) (v : Nat) : (c.setFld f v).flash = c.flash := rfl
@[simp] theorem setFld_sec (f : Field) (v : Nat) : (c.setFld f v).sec = c.sec := rfl
@[simp] theorem setFld_pmu (f : Field) (v : Nat) : (c.setFld f v).pmu = c.pmu := rfl
@[simp] theorem setFld_irq (f : Field) (v : Nat) : (c.setFld f v).irq = c.irq := rfl
@[simp] theorem setFld_ndo (f : Field) (v : Nat) : (c.setFld f v).ndo = c.ndo := rfl
@[simp] theorem setFld_scrub (f : Field) (v : Nat) : (c.setFld f v).scrub = c.scrub := rfl
@[simp] theorem setFld_core (f : Field) (v : Nat) (j : Nat) : (c.setFld f v).core j = c.core j := rfl
@[simp] theorem setFld_auxOf (f : Field) (v : Nat) (j : Nat) : (c.setFld f v).auxOf j = c.auxOf j := rfl

/-! ### `setFbit` -/

@[simp] theorem setFbit_fuseDue (f : Field) (i : Nat) : (c.setFbit f i).fuseDue = c.fuseDue := rfl
@[simp] theorem setFbit_resp (f : Field) (i : Nat) : (c.setFbit f i).resp = c.resp := rfl
@[simp] theorem setFbit_drawn (f : Field) (i : Nat) : (c.setFbit f i).drawn = c.drawn := rfl
@[simp] theorem setFbit_mem (f : Field) (i : Nat) : (c.setFbit f i).mem = c.mem := rfl
@[simp] theorem setFbit_lost (f : Field) (i : Nat) : (c.setFbit f i).lost = c.lost := rfl
@[simp] theorem setFbit_ecc (f : Field) (i : Nat) : (c.setFbit f i).ecc = c.ecc := rfl
@[simp] theorem setFbit_tags (f : Field) (i : Nat) : (c.setFbit f i).tags = c.tags := rfl
@[simp] theorem setFbit_ddr (f : Field) (i : Nat) : (c.setFbit f i).ddr = c.ddr := rfl
@[simp] theorem setFbit_ddrLost (f : Field) (i : Nat) : (c.setFbit f i).ddrLost = c.ddrLost := rfl
@[simp] theorem setFbit_image (f : Field) (i : Nat) : (c.setFbit f i).image = c.image := rfl
@[simp] theorem setFbit_tick (f : Field) (i : Nat) : (c.setFbit f i).tick = c.tick := rfl
@[simp] theorem setFbit_cores (f : Field) (i : Nat) : (c.setFbit f i).cores = c.cores := rfl
@[simp] theorem setFbit_aux (f : Field) (i : Nat) : (c.setFbit f i).aux = c.aux := rfl
@[simp] theorem setFbit_shadow (f : Field) (i : Nat) : (c.setFbit f i).shadow = c.shadow := rfl
@[simp] theorem setFbit_strm (f : Field) (i : Nat) : (c.setFbit f i).strm = c.strm := rfl
@[simp] theorem setFbit_pan (f : Field) (i : Nat) : (c.setFbit f i).pan = c.pan := rfl
@[simp] theorem setFbit_spare (f : Field) (i : Nat) : (c.setFbit f i).spare = c.spare := rfl
@[simp] theorem setFbit_mbWake (f : Field) (i : Nat) : (c.setFbit f i).mbWake = c.mbWake := rfl
@[simp] theorem setFbit_tlk (f : Field) (i : Nat) : (c.setFbit f i).tlk = c.tlk := rfl
@[simp] theorem setFbit_sap (f : Field) (i : Nat) : (c.setFbit f i).sap = c.sap := rfl
@[simp] theorem setFbit_asrc (f : Field) (i : Nat) : (c.setFbit f i).asrc = c.asrc := rfl
@[simp] theorem setFbit_rtr (f : Field) (i : Nat) : (c.setFbit f i).rtr = c.rtr := rfl
@[simp] theorem setFbit_clk (f : Field) (i : Nat) : (c.setFbit f i).clk = c.clk := rfl
@[simp] theorem setFbit_sense (f : Field) (i : Nat) : (c.setFbit f i).sense = c.sense := rfl
@[simp] theorem setFbit_act (f : Field) (i : Nat) : (c.setFbit f i).act = c.act := rfl
@[simp] theorem setFbit_usb (f : Field) (i : Nat) : (c.setFbit f i).usb = c.usb := rfl
@[simp] theorem setFbit_midi (f : Field) (i : Nat) : (c.setFbit f i).midi = c.midi := rfl
@[simp] theorem setFbit_flash (f : Field) (i : Nat) : (c.setFbit f i).flash = c.flash := rfl
@[simp] theorem setFbit_sec (f : Field) (i : Nat) : (c.setFbit f i).sec = c.sec := rfl
@[simp] theorem setFbit_pmu (f : Field) (i : Nat) : (c.setFbit f i).pmu = c.pmu := rfl
@[simp] theorem setFbit_irq (f : Field) (i : Nat) : (c.setFbit f i).irq = c.irq := rfl
@[simp] theorem setFbit_ndo (f : Field) (i : Nat) : (c.setFbit f i).ndo = c.ndo := rfl
@[simp] theorem setFbit_scrub (f : Field) (i : Nat) : (c.setFbit f i).scrub = c.scrub := rfl
@[simp] theorem setFbit_core (f : Field) (i : Nat) (j : Nat) : (c.setFbit f i).core j = c.core j := rfl
@[simp] theorem setFbit_auxOf (f : Field) (i : Nat) (j : Nat) : (c.setFbit f i).auxOf j = c.auxOf j := rfl

/-! ### `clrFbit` -/

@[simp] theorem clrFbit_fuseDue (f : Field) (i : Nat) : (c.clrFbit f i).fuseDue = c.fuseDue := rfl
@[simp] theorem clrFbit_resp (f : Field) (i : Nat) : (c.clrFbit f i).resp = c.resp := rfl
@[simp] theorem clrFbit_drawn (f : Field) (i : Nat) : (c.clrFbit f i).drawn = c.drawn := rfl
@[simp] theorem clrFbit_mem (f : Field) (i : Nat) : (c.clrFbit f i).mem = c.mem := rfl
@[simp] theorem clrFbit_lost (f : Field) (i : Nat) : (c.clrFbit f i).lost = c.lost := rfl
@[simp] theorem clrFbit_ecc (f : Field) (i : Nat) : (c.clrFbit f i).ecc = c.ecc := rfl
@[simp] theorem clrFbit_tags (f : Field) (i : Nat) : (c.clrFbit f i).tags = c.tags := rfl
@[simp] theorem clrFbit_ddr (f : Field) (i : Nat) : (c.clrFbit f i).ddr = c.ddr := rfl
@[simp] theorem clrFbit_ddrLost (f : Field) (i : Nat) : (c.clrFbit f i).ddrLost = c.ddrLost := rfl
@[simp] theorem clrFbit_image (f : Field) (i : Nat) : (c.clrFbit f i).image = c.image := rfl
@[simp] theorem clrFbit_tick (f : Field) (i : Nat) : (c.clrFbit f i).tick = c.tick := rfl
@[simp] theorem clrFbit_cores (f : Field) (i : Nat) : (c.clrFbit f i).cores = c.cores := rfl
@[simp] theorem clrFbit_aux (f : Field) (i : Nat) : (c.clrFbit f i).aux = c.aux := rfl
@[simp] theorem clrFbit_shadow (f : Field) (i : Nat) : (c.clrFbit f i).shadow = c.shadow := rfl
@[simp] theorem clrFbit_strm (f : Field) (i : Nat) : (c.clrFbit f i).strm = c.strm := rfl
@[simp] theorem clrFbit_pan (f : Field) (i : Nat) : (c.clrFbit f i).pan = c.pan := rfl
@[simp] theorem clrFbit_spare (f : Field) (i : Nat) : (c.clrFbit f i).spare = c.spare := rfl
@[simp] theorem clrFbit_mbWake (f : Field) (i : Nat) : (c.clrFbit f i).mbWake = c.mbWake := rfl
@[simp] theorem clrFbit_tlk (f : Field) (i : Nat) : (c.clrFbit f i).tlk = c.tlk := rfl
@[simp] theorem clrFbit_sap (f : Field) (i : Nat) : (c.clrFbit f i).sap = c.sap := rfl
@[simp] theorem clrFbit_asrc (f : Field) (i : Nat) : (c.clrFbit f i).asrc = c.asrc := rfl
@[simp] theorem clrFbit_rtr (f : Field) (i : Nat) : (c.clrFbit f i).rtr = c.rtr := rfl
@[simp] theorem clrFbit_clk (f : Field) (i : Nat) : (c.clrFbit f i).clk = c.clk := rfl
@[simp] theorem clrFbit_sense (f : Field) (i : Nat) : (c.clrFbit f i).sense = c.sense := rfl
@[simp] theorem clrFbit_act (f : Field) (i : Nat) : (c.clrFbit f i).act = c.act := rfl
@[simp] theorem clrFbit_usb (f : Field) (i : Nat) : (c.clrFbit f i).usb = c.usb := rfl
@[simp] theorem clrFbit_midi (f : Field) (i : Nat) : (c.clrFbit f i).midi = c.midi := rfl
@[simp] theorem clrFbit_flash (f : Field) (i : Nat) : (c.clrFbit f i).flash = c.flash := rfl
@[simp] theorem clrFbit_sec (f : Field) (i : Nat) : (c.clrFbit f i).sec = c.sec := rfl
@[simp] theorem clrFbit_pmu (f : Field) (i : Nat) : (c.clrFbit f i).pmu = c.pmu := rfl
@[simp] theorem clrFbit_irq (f : Field) (i : Nat) : (c.clrFbit f i).irq = c.irq := rfl
@[simp] theorem clrFbit_ndo (f : Field) (i : Nat) : (c.clrFbit f i).ndo = c.ndo := rfl
@[simp] theorem clrFbit_scrub (f : Field) (i : Nat) : (c.clrFbit f i).scrub = c.scrub := rfl
@[simp] theorem clrFbit_core (f : Field) (i : Nat) (j : Nat) : (c.clrFbit f i).core j = c.core j := rfl
@[simp] theorem clrFbit_auxOf (f : Field) (i : Nat) (j : Nat) : (c.clrFbit f i).auxOf j = c.auxOf j := rfl

/-! ### `bumpBy` -/

@[simp] theorem bumpBy_fuseDue (f : Field) (n : Nat) : (c.bumpBy f n).fuseDue = c.fuseDue := rfl
@[simp] theorem bumpBy_resp (f : Field) (n : Nat) : (c.bumpBy f n).resp = c.resp := rfl
@[simp] theorem bumpBy_drawn (f : Field) (n : Nat) : (c.bumpBy f n).drawn = c.drawn := rfl
@[simp] theorem bumpBy_mem (f : Field) (n : Nat) : (c.bumpBy f n).mem = c.mem := rfl
@[simp] theorem bumpBy_lost (f : Field) (n : Nat) : (c.bumpBy f n).lost = c.lost := rfl
@[simp] theorem bumpBy_ecc (f : Field) (n : Nat) : (c.bumpBy f n).ecc = c.ecc := rfl
@[simp] theorem bumpBy_tags (f : Field) (n : Nat) : (c.bumpBy f n).tags = c.tags := rfl
@[simp] theorem bumpBy_ddr (f : Field) (n : Nat) : (c.bumpBy f n).ddr = c.ddr := rfl
@[simp] theorem bumpBy_ddrLost (f : Field) (n : Nat) : (c.bumpBy f n).ddrLost = c.ddrLost := rfl
@[simp] theorem bumpBy_image (f : Field) (n : Nat) : (c.bumpBy f n).image = c.image := rfl
@[simp] theorem bumpBy_tick (f : Field) (n : Nat) : (c.bumpBy f n).tick = c.tick := rfl
@[simp] theorem bumpBy_cores (f : Field) (n : Nat) : (c.bumpBy f n).cores = c.cores := rfl
@[simp] theorem bumpBy_aux (f : Field) (n : Nat) : (c.bumpBy f n).aux = c.aux := rfl
@[simp] theorem bumpBy_shadow (f : Field) (n : Nat) : (c.bumpBy f n).shadow = c.shadow := rfl
@[simp] theorem bumpBy_strm (f : Field) (n : Nat) : (c.bumpBy f n).strm = c.strm := rfl
@[simp] theorem bumpBy_pan (f : Field) (n : Nat) : (c.bumpBy f n).pan = c.pan := rfl
@[simp] theorem bumpBy_spare (f : Field) (n : Nat) : (c.bumpBy f n).spare = c.spare := rfl
@[simp] theorem bumpBy_mbWake (f : Field) (n : Nat) : (c.bumpBy f n).mbWake = c.mbWake := rfl
@[simp] theorem bumpBy_tlk (f : Field) (n : Nat) : (c.bumpBy f n).tlk = c.tlk := rfl
@[simp] theorem bumpBy_sap (f : Field) (n : Nat) : (c.bumpBy f n).sap = c.sap := rfl
@[simp] theorem bumpBy_asrc (f : Field) (n : Nat) : (c.bumpBy f n).asrc = c.asrc := rfl
@[simp] theorem bumpBy_rtr (f : Field) (n : Nat) : (c.bumpBy f n).rtr = c.rtr := rfl
@[simp] theorem bumpBy_clk (f : Field) (n : Nat) : (c.bumpBy f n).clk = c.clk := rfl
@[simp] theorem bumpBy_sense (f : Field) (n : Nat) : (c.bumpBy f n).sense = c.sense := rfl
@[simp] theorem bumpBy_act (f : Field) (n : Nat) : (c.bumpBy f n).act = c.act := rfl
@[simp] theorem bumpBy_usb (f : Field) (n : Nat) : (c.bumpBy f n).usb = c.usb := rfl
@[simp] theorem bumpBy_midi (f : Field) (n : Nat) : (c.bumpBy f n).midi = c.midi := rfl
@[simp] theorem bumpBy_flash (f : Field) (n : Nat) : (c.bumpBy f n).flash = c.flash := rfl
@[simp] theorem bumpBy_sec (f : Field) (n : Nat) : (c.bumpBy f n).sec = c.sec := rfl
@[simp] theorem bumpBy_pmu (f : Field) (n : Nat) : (c.bumpBy f n).pmu = c.pmu := rfl
@[simp] theorem bumpBy_irq (f : Field) (n : Nat) : (c.bumpBy f n).irq = c.irq := rfl
@[simp] theorem bumpBy_ndo (f : Field) (n : Nat) : (c.bumpBy f n).ndo = c.ndo := rfl
@[simp] theorem bumpBy_scrub (f : Field) (n : Nat) : (c.bumpBy f n).scrub = c.scrub := rfl
@[simp] theorem bumpBy_core (f : Field) (n : Nat) (j : Nat) : (c.bumpBy f n).core j = c.core j := rfl
@[simp] theorem bumpBy_auxOf (f : Field) (n : Nat) (j : Nat) : (c.bumpBy f n).auxOf j = c.auxOf j := rfl

/-! ### `setEngState` -/

@[simp] theorem setEngState_fuseDue (p n : Nat) : (c.setEngState p n).fuseDue = c.fuseDue := rfl
@[simp] theorem setEngState_resp (p n : Nat) : (c.setEngState p n).resp = c.resp := rfl
@[simp] theorem setEngState_drawn (p n : Nat) : (c.setEngState p n).drawn = c.drawn := rfl
@[simp] theorem setEngState_mem (p n : Nat) : (c.setEngState p n).mem = c.mem := rfl
@[simp] theorem setEngState_lost (p n : Nat) : (c.setEngState p n).lost = c.lost := rfl
@[simp] theorem setEngState_ecc (p n : Nat) : (c.setEngState p n).ecc = c.ecc := rfl
@[simp] theorem setEngState_tags (p n : Nat) : (c.setEngState p n).tags = c.tags := rfl
@[simp] theorem setEngState_ddr (p n : Nat) : (c.setEngState p n).ddr = c.ddr := rfl
@[simp] theorem setEngState_ddrLost (p n : Nat) : (c.setEngState p n).ddrLost = c.ddrLost := rfl
@[simp] theorem setEngState_image (p n : Nat) : (c.setEngState p n).image = c.image := rfl
@[simp] theorem setEngState_tick (p n : Nat) : (c.setEngState p n).tick = c.tick := rfl
@[simp] theorem setEngState_cores (p n : Nat) : (c.setEngState p n).cores = c.cores := rfl
@[simp] theorem setEngState_aux (p n : Nat) : (c.setEngState p n).aux = c.aux := rfl
@[simp] theorem setEngState_shadow (p n : Nat) : (c.setEngState p n).shadow = c.shadow := rfl
@[simp] theorem setEngState_strm (p n : Nat) : (c.setEngState p n).strm = c.strm := rfl
@[simp] theorem setEngState_pan (p n : Nat) : (c.setEngState p n).pan = c.pan := rfl
@[simp] theorem setEngState_spare (p n : Nat) : (c.setEngState p n).spare = c.spare := rfl
@[simp] theorem setEngState_mbWake (p n : Nat) : (c.setEngState p n).mbWake = c.mbWake := rfl
@[simp] theorem setEngState_tlk (p n : Nat) : (c.setEngState p n).tlk = c.tlk := rfl
@[simp] theorem setEngState_sap (p n : Nat) : (c.setEngState p n).sap = c.sap := rfl
@[simp] theorem setEngState_asrc (p n : Nat) : (c.setEngState p n).asrc = c.asrc := rfl
@[simp] theorem setEngState_rtr (p n : Nat) : (c.setEngState p n).rtr = c.rtr := rfl
@[simp] theorem setEngState_clk (p n : Nat) : (c.setEngState p n).clk = c.clk := rfl
@[simp] theorem setEngState_sense (p n : Nat) : (c.setEngState p n).sense = c.sense := rfl
@[simp] theorem setEngState_act (p n : Nat) : (c.setEngState p n).act = c.act := rfl
@[simp] theorem setEngState_usb (p n : Nat) : (c.setEngState p n).usb = c.usb := rfl
@[simp] theorem setEngState_midi (p n : Nat) : (c.setEngState p n).midi = c.midi := rfl
@[simp] theorem setEngState_flash (p n : Nat) : (c.setEngState p n).flash = c.flash := rfl
@[simp] theorem setEngState_sec (p n : Nat) : (c.setEngState p n).sec = c.sec := rfl
@[simp] theorem setEngState_pmu (p n : Nat) : (c.setEngState p n).pmu = c.pmu := rfl
@[simp] theorem setEngState_irq (p n : Nat) : (c.setEngState p n).irq = c.irq := rfl
@[simp] theorem setEngState_ndo (p n : Nat) : (c.setEngState p n).ndo = c.ndo := rfl
@[simp] theorem setEngState_scrub (p n : Nat) : (c.setEngState p n).scrub = c.scrub := rfl
@[simp] theorem setEngState_core (p n : Nat) (j : Nat) : (c.setEngState p n).core j = c.core j := rfl
@[simp] theorem setEngState_auxOf (p n : Nat) (j : Nat) : (c.setEngState p n).auxOf j = c.auxOf j := rfl

/-! ### `sumNews` -/

@[simp] theorem sumNews_regs (b : Bool) : (c.sumNews b).regs = c.regs := rfl
@[simp] theorem sumNews_fuseDue (b : Bool) : (c.sumNews b).fuseDue = c.fuseDue := rfl
@[simp] theorem sumNews_resp (b : Bool) : (c.sumNews b).resp = c.resp := rfl
@[simp] theorem sumNews_drawn (b : Bool) : (c.sumNews b).drawn = c.drawn := rfl
@[simp] theorem sumNews_mem (b : Bool) : (c.sumNews b).mem = c.mem := rfl
@[simp] theorem sumNews_lost (b : Bool) : (c.sumNews b).lost = c.lost := rfl
@[simp] theorem sumNews_ecc (b : Bool) : (c.sumNews b).ecc = c.ecc := rfl
@[simp] theorem sumNews_tags (b : Bool) : (c.sumNews b).tags = c.tags := rfl
@[simp] theorem sumNews_ddr (b : Bool) : (c.sumNews b).ddr = c.ddr := rfl
@[simp] theorem sumNews_ddrLost (b : Bool) : (c.sumNews b).ddrLost = c.ddrLost := rfl
@[simp] theorem sumNews_image (b : Bool) : (c.sumNews b).image = c.image := rfl
@[simp] theorem sumNews_tick (b : Bool) : (c.sumNews b).tick = c.tick := rfl
@[simp] theorem sumNews_cores (b : Bool) : (c.sumNews b).cores = c.cores := rfl
@[simp] theorem sumNews_aux (b : Bool) : (c.sumNews b).aux = c.aux := rfl
@[simp] theorem sumNews_shadow (b : Bool) : (c.sumNews b).shadow = c.shadow := rfl
@[simp] theorem sumNews_strm (b : Bool) : (c.sumNews b).strm = c.strm := rfl
@[simp] theorem sumNews_pan (b : Bool) : (c.sumNews b).pan = c.pan := rfl
@[simp] theorem sumNews_spare (b : Bool) : (c.sumNews b).spare = c.spare := rfl
@[simp] theorem sumNews_mbWake (b : Bool) : (c.sumNews b).mbWake = c.mbWake := rfl
@[simp] theorem sumNews_tlk (b : Bool) : (c.sumNews b).tlk = c.tlk := rfl
@[simp] theorem sumNews_sap (b : Bool) : (c.sumNews b).sap = c.sap := rfl
@[simp] theorem sumNews_asrc (b : Bool) : (c.sumNews b).asrc = c.asrc := rfl
@[simp] theorem sumNews_rtr (b : Bool) : (c.sumNews b).rtr = c.rtr := rfl
@[simp] theorem sumNews_clk (b : Bool) : (c.sumNews b).clk = c.clk := rfl
@[simp] theorem sumNews_sense (b : Bool) : (c.sumNews b).sense = c.sense := rfl
@[simp] theorem sumNews_act (b : Bool) : (c.sumNews b).act = c.act := rfl
@[simp] theorem sumNews_midi (b : Bool) : (c.sumNews b).midi = c.midi := rfl
@[simp] theorem sumNews_flash (b : Bool) : (c.sumNews b).flash = c.flash := rfl
@[simp] theorem sumNews_sec (b : Bool) : (c.sumNews b).sec = c.sec := rfl
@[simp] theorem sumNews_pmu (b : Bool) : (c.sumNews b).pmu = c.pmu := rfl
@[simp] theorem sumNews_irq (b : Bool) : (c.sumNews b).irq = c.irq := rfl
@[simp] theorem sumNews_ndo (b : Bool) : (c.sumNews b).ndo = c.ndo := rfl
@[simp] theorem sumNews_scrub (b : Bool) : (c.sumNews b).scrub = c.scrub := rfl
@[simp] theorem sumNews_reg (b : Bool) (j : Nat) : (c.sumNews b).reg j = c.reg j := rfl
@[simp] theorem sumNews_fld (b : Bool) (g : Field) : (c.sumNews b).fld g = c.fld g := rfl
@[simp] theorem sumNews_bit (b : Bool) (g : Field) : (c.sumNews b).bit g = c.bit g := rfl
@[simp] theorem sumNews_core (b : Bool) (j : Nat) : (c.sumNews b).core j = c.core j := rfl
@[simp] theorem sumNews_auxOf (b : Bool) (j : Nat) : (c.sumNews b).auxOf j = c.auxOf j := rfl

/-! ### `raise` -/

@[simp] theorem raise_fuseDue (e : Nat) : (c.raise e).fuseDue = c.fuseDue := rfl
@[simp] theorem raise_resp (e : Nat) : (c.raise e).resp = c.resp := rfl
@[simp] theorem raise_drawn (e : Nat) : (c.raise e).drawn = c.drawn := rfl
@[simp] theorem raise_mem (e : Nat) : (c.raise e).mem = c.mem := rfl
@[simp] theorem raise_lost (e : Nat) : (c.raise e).lost = c.lost := rfl
@[simp] theorem raise_ecc (e : Nat) : (c.raise e).ecc = c.ecc := rfl
@[simp] theorem raise_tags (e : Nat) : (c.raise e).tags = c.tags := rfl
@[simp] theorem raise_ddr (e : Nat) : (c.raise e).ddr = c.ddr := rfl
@[simp] theorem raise_ddrLost (e : Nat) : (c.raise e).ddrLost = c.ddrLost := rfl
@[simp] theorem raise_image (e : Nat) : (c.raise e).image = c.image := rfl
@[simp] theorem raise_tick (e : Nat) : (c.raise e).tick = c.tick := rfl
@[simp] theorem raise_cores (e : Nat) : (c.raise e).cores = c.cores := rfl
@[simp] theorem raise_aux (e : Nat) : (c.raise e).aux = c.aux := rfl
@[simp] theorem raise_shadow (e : Nat) : (c.raise e).shadow = c.shadow := rfl
@[simp] theorem raise_strm (e : Nat) : (c.raise e).strm = c.strm := rfl
@[simp] theorem raise_pan (e : Nat) : (c.raise e).pan = c.pan := rfl
@[simp] theorem raise_spare (e : Nat) : (c.raise e).spare = c.spare := rfl
@[simp] theorem raise_mbWake (e : Nat) : (c.raise e).mbWake = c.mbWake := rfl
@[simp] theorem raise_tlk (e : Nat) : (c.raise e).tlk = c.tlk := rfl
@[simp] theorem raise_sap (e : Nat) : (c.raise e).sap = c.sap := rfl
@[simp] theorem raise_asrc (e : Nat) : (c.raise e).asrc = c.asrc := rfl
@[simp] theorem raise_rtr (e : Nat) : (c.raise e).rtr = c.rtr := rfl
@[simp] theorem raise_clk (e : Nat) : (c.raise e).clk = c.clk := rfl
@[simp] theorem raise_sense (e : Nat) : (c.raise e).sense = c.sense := rfl
@[simp] theorem raise_act (e : Nat) : (c.raise e).act = c.act := rfl
@[simp] theorem raise_midi (e : Nat) : (c.raise e).midi = c.midi := rfl
@[simp] theorem raise_flash (e : Nat) : (c.raise e).flash = c.flash := rfl
@[simp] theorem raise_sec (e : Nat) : (c.raise e).sec = c.sec := rfl
@[simp] theorem raise_pmu (e : Nat) : (c.raise e).pmu = c.pmu := rfl
@[simp] theorem raise_irq (e : Nat) : (c.raise e).irq = c.irq := rfl
@[simp] theorem raise_ndo (e : Nat) : (c.raise e).ndo = c.ndo := rfl
@[simp] theorem raise_scrub (e : Nat) : (c.raise e).scrub = c.scrub := rfl
@[simp] theorem raise_core (e : Nat) (j : Nat) : (c.raise e).core j = c.core j := rfl
@[simp] theorem raise_auxOf (e : Nat) (j : Nat) : (c.raise e).auxOf j = c.auxOf j := rfl

/-! ### `answer` -/

@[simp] theorem answer_resp (r : Resp) : (c.answer r).resp = r := rfl
@[simp] theorem answer_regs (r : Resp) : (c.answer r).regs = c.regs := rfl
@[simp] theorem answer_fuseDue (r : Resp) : (c.answer r).fuseDue = c.fuseDue := rfl
@[simp] theorem answer_drawn (r : Resp) : (c.answer r).drawn = c.drawn := rfl
@[simp] theorem answer_mem (r : Resp) : (c.answer r).mem = c.mem := rfl
@[simp] theorem answer_lost (r : Resp) : (c.answer r).lost = c.lost := rfl
@[simp] theorem answer_ecc (r : Resp) : (c.answer r).ecc = c.ecc := rfl
@[simp] theorem answer_tags (r : Resp) : (c.answer r).tags = c.tags := rfl
@[simp] theorem answer_ddr (r : Resp) : (c.answer r).ddr = c.ddr := rfl
@[simp] theorem answer_ddrLost (r : Resp) : (c.answer r).ddrLost = c.ddrLost := rfl
@[simp] theorem answer_image (r : Resp) : (c.answer r).image = c.image := rfl
@[simp] theorem answer_tick (r : Resp) : (c.answer r).tick = c.tick := rfl
@[simp] theorem answer_cores (r : Resp) : (c.answer r).cores = c.cores := rfl
@[simp] theorem answer_aux (r : Resp) : (c.answer r).aux = c.aux := rfl
@[simp] theorem answer_shadow (r : Resp) : (c.answer r).shadow = c.shadow := rfl
@[simp] theorem answer_strm (r : Resp) : (c.answer r).strm = c.strm := rfl
@[simp] theorem answer_pan (r : Resp) : (c.answer r).pan = c.pan := rfl
@[simp] theorem answer_spare (r : Resp) : (c.answer r).spare = c.spare := rfl
@[simp] theorem answer_mbWake (r : Resp) : (c.answer r).mbWake = c.mbWake := rfl
@[simp] theorem answer_tlk (r : Resp) : (c.answer r).tlk = c.tlk := rfl
@[simp] theorem answer_sap (r : Resp) : (c.answer r).sap = c.sap := rfl
@[simp] theorem answer_asrc (r : Resp) : (c.answer r).asrc = c.asrc := rfl
@[simp] theorem answer_rtr (r : Resp) : (c.answer r).rtr = c.rtr := rfl
@[simp] theorem answer_clk (r : Resp) : (c.answer r).clk = c.clk := rfl
@[simp] theorem answer_sense (r : Resp) : (c.answer r).sense = c.sense := rfl
@[simp] theorem answer_act (r : Resp) : (c.answer r).act = c.act := rfl
@[simp] theorem answer_usb (r : Resp) : (c.answer r).usb = c.usb := rfl
@[simp] theorem answer_midi (r : Resp) : (c.answer r).midi = c.midi := rfl
@[simp] theorem answer_flash (r : Resp) : (c.answer r).flash = c.flash := rfl
@[simp] theorem answer_sec (r : Resp) : (c.answer r).sec = c.sec := rfl
@[simp] theorem answer_pmu (r : Resp) : (c.answer r).pmu = c.pmu := rfl
@[simp] theorem answer_irq (r : Resp) : (c.answer r).irq = c.irq := rfl
@[simp] theorem answer_ndo (r : Resp) : (c.answer r).ndo = c.ndo := rfl
@[simp] theorem answer_scrub (r : Resp) : (c.answer r).scrub = c.scrub := rfl
@[simp] theorem answer_reg (r : Resp) (j : Nat) : (c.answer r).reg j = c.reg j := rfl
@[simp] theorem answer_fld (r : Resp) (g : Field) : (c.answer r).fld g = c.fld g := rfl
@[simp] theorem answer_bit (r : Resp) (g : Field) : (c.answer r).bit g = c.bit g := rfl
@[simp] theorem answer_core (r : Resp) (j : Nat) : (c.answer r).core j = c.core j := rfl
@[simp] theorem answer_auxOf (r : Resp) (j : Nat) : (c.answer r).auxOf j = c.auxOf j := rfl

/-! ### `setCore` -/

@[simp] theorem setCore_regs (k : Nat) (v : Core) : (c.setCore k v).regs = c.regs := rfl
@[simp] theorem setCore_fuseDue (k : Nat) (v : Core) : (c.setCore k v).fuseDue = c.fuseDue := rfl
@[simp] theorem setCore_resp (k : Nat) (v : Core) : (c.setCore k v).resp = c.resp := rfl
@[simp] theorem setCore_drawn (k : Nat) (v : Core) : (c.setCore k v).drawn = c.drawn := rfl
@[simp] theorem setCore_mem (k : Nat) (v : Core) : (c.setCore k v).mem = c.mem := rfl
@[simp] theorem setCore_lost (k : Nat) (v : Core) : (c.setCore k v).lost = c.lost := rfl
@[simp] theorem setCore_ecc (k : Nat) (v : Core) : (c.setCore k v).ecc = c.ecc := rfl
@[simp] theorem setCore_tags (k : Nat) (v : Core) : (c.setCore k v).tags = c.tags := rfl
@[simp] theorem setCore_ddr (k : Nat) (v : Core) : (c.setCore k v).ddr = c.ddr := rfl
@[simp] theorem setCore_ddrLost (k : Nat) (v : Core) : (c.setCore k v).ddrLost = c.ddrLost := rfl
@[simp] theorem setCore_image (k : Nat) (v : Core) : (c.setCore k v).image = c.image := rfl
@[simp] theorem setCore_tick (k : Nat) (v : Core) : (c.setCore k v).tick = c.tick := rfl
@[simp] theorem setCore_aux (k : Nat) (v : Core) : (c.setCore k v).aux = c.aux := rfl
@[simp] theorem setCore_shadow (k : Nat) (v : Core) : (c.setCore k v).shadow = c.shadow := rfl
@[simp] theorem setCore_strm (k : Nat) (v : Core) : (c.setCore k v).strm = c.strm := rfl
@[simp] theorem setCore_pan (k : Nat) (v : Core) : (c.setCore k v).pan = c.pan := rfl
@[simp] theorem setCore_spare (k : Nat) (v : Core) : (c.setCore k v).spare = c.spare := rfl
@[simp] theorem setCore_mbWake (k : Nat) (v : Core) : (c.setCore k v).mbWake = c.mbWake := rfl
@[simp] theorem setCore_tlk (k : Nat) (v : Core) : (c.setCore k v).tlk = c.tlk := rfl
@[simp] theorem setCore_sap (k : Nat) (v : Core) : (c.setCore k v).sap = c.sap := rfl
@[simp] theorem setCore_asrc (k : Nat) (v : Core) : (c.setCore k v).asrc = c.asrc := rfl
@[simp] theorem setCore_rtr (k : Nat) (v : Core) : (c.setCore k v).rtr = c.rtr := rfl
@[simp] theorem setCore_clk (k : Nat) (v : Core) : (c.setCore k v).clk = c.clk := rfl
@[simp] theorem setCore_sense (k : Nat) (v : Core) : (c.setCore k v).sense = c.sense := rfl
@[simp] theorem setCore_act (k : Nat) (v : Core) : (c.setCore k v).act = c.act := rfl
@[simp] theorem setCore_usb (k : Nat) (v : Core) : (c.setCore k v).usb = c.usb := rfl
@[simp] theorem setCore_midi (k : Nat) (v : Core) : (c.setCore k v).midi = c.midi := rfl
@[simp] theorem setCore_flash (k : Nat) (v : Core) : (c.setCore k v).flash = c.flash := rfl
@[simp] theorem setCore_sec (k : Nat) (v : Core) : (c.setCore k v).sec = c.sec := rfl
@[simp] theorem setCore_pmu (k : Nat) (v : Core) : (c.setCore k v).pmu = c.pmu := rfl
@[simp] theorem setCore_irq (k : Nat) (v : Core) : (c.setCore k v).irq = c.irq := rfl
@[simp] theorem setCore_ndo (k : Nat) (v : Core) : (c.setCore k v).ndo = c.ndo := rfl
@[simp] theorem setCore_scrub (k : Nat) (v : Core) : (c.setCore k v).scrub = c.scrub := rfl
@[simp] theorem setCore_reg (k : Nat) (v : Core) (j : Nat) : (c.setCore k v).reg j = c.reg j := rfl
@[simp] theorem setCore_fld (k : Nat) (v : Core) (g : Field) : (c.setCore k v).fld g = c.fld g := rfl
@[simp] theorem setCore_bit (k : Nat) (v : Core) (g : Field) : (c.setCore k v).bit g = c.bit g := rfl
@[simp] theorem setCore_auxOf (k : Nat) (v : Core) (j : Nat) : (c.setCore k v).auxOf j = c.auxOf j := rfl

/-! ### `modCore` -/

@[simp] theorem modCore_regs (k : Nat) (f : Core → Core) : (c.modCore k f).regs = c.regs := rfl
@[simp] theorem modCore_fuseDue (k : Nat) (f : Core → Core) : (c.modCore k f).fuseDue = c.fuseDue := rfl
@[simp] theorem modCore_resp (k : Nat) (f : Core → Core) : (c.modCore k f).resp = c.resp := rfl
@[simp] theorem modCore_drawn (k : Nat) (f : Core → Core) : (c.modCore k f).drawn = c.drawn := rfl
@[simp] theorem modCore_mem (k : Nat) (f : Core → Core) : (c.modCore k f).mem = c.mem := rfl
@[simp] theorem modCore_lost (k : Nat) (f : Core → Core) : (c.modCore k f).lost = c.lost := rfl
@[simp] theorem modCore_ecc (k : Nat) (f : Core → Core) : (c.modCore k f).ecc = c.ecc := rfl
@[simp] theorem modCore_tags (k : Nat) (f : Core → Core) : (c.modCore k f).tags = c.tags := rfl
@[simp] theorem modCore_ddr (k : Nat) (f : Core → Core) : (c.modCore k f).ddr = c.ddr := rfl
@[simp] theorem modCore_ddrLost (k : Nat) (f : Core → Core) : (c.modCore k f).ddrLost = c.ddrLost := rfl
@[simp] theorem modCore_image (k : Nat) (f : Core → Core) : (c.modCore k f).image = c.image := rfl
@[simp] theorem modCore_tick (k : Nat) (f : Core → Core) : (c.modCore k f).tick = c.tick := rfl
@[simp] theorem modCore_aux (k : Nat) (f : Core → Core) : (c.modCore k f).aux = c.aux := rfl
@[simp] theorem modCore_shadow (k : Nat) (f : Core → Core) : (c.modCore k f).shadow = c.shadow := rfl
@[simp] theorem modCore_strm (k : Nat) (f : Core → Core) : (c.modCore k f).strm = c.strm := rfl
@[simp] theorem modCore_pan (k : Nat) (f : Core → Core) : (c.modCore k f).pan = c.pan := rfl
@[simp] theorem modCore_spare (k : Nat) (f : Core → Core) : (c.modCore k f).spare = c.spare := rfl
@[simp] theorem modCore_mbWake (k : Nat) (f : Core → Core) : (c.modCore k f).mbWake = c.mbWake := rfl
@[simp] theorem modCore_tlk (k : Nat) (f : Core → Core) : (c.modCore k f).tlk = c.tlk := rfl
@[simp] theorem modCore_sap (k : Nat) (f : Core → Core) : (c.modCore k f).sap = c.sap := rfl
@[simp] theorem modCore_asrc (k : Nat) (f : Core → Core) : (c.modCore k f).asrc = c.asrc := rfl
@[simp] theorem modCore_rtr (k : Nat) (f : Core → Core) : (c.modCore k f).rtr = c.rtr := rfl
@[simp] theorem modCore_clk (k : Nat) (f : Core → Core) : (c.modCore k f).clk = c.clk := rfl
@[simp] theorem modCore_sense (k : Nat) (f : Core → Core) : (c.modCore k f).sense = c.sense := rfl
@[simp] theorem modCore_act (k : Nat) (f : Core → Core) : (c.modCore k f).act = c.act := rfl
@[simp] theorem modCore_usb (k : Nat) (f : Core → Core) : (c.modCore k f).usb = c.usb := rfl
@[simp] theorem modCore_midi (k : Nat) (f : Core → Core) : (c.modCore k f).midi = c.midi := rfl
@[simp] theorem modCore_flash (k : Nat) (f : Core → Core) : (c.modCore k f).flash = c.flash := rfl
@[simp] theorem modCore_sec (k : Nat) (f : Core → Core) : (c.modCore k f).sec = c.sec := rfl
@[simp] theorem modCore_pmu (k : Nat) (f : Core → Core) : (c.modCore k f).pmu = c.pmu := rfl
@[simp] theorem modCore_irq (k : Nat) (f : Core → Core) : (c.modCore k f).irq = c.irq := rfl
@[simp] theorem modCore_ndo (k : Nat) (f : Core → Core) : (c.modCore k f).ndo = c.ndo := rfl
@[simp] theorem modCore_scrub (k : Nat) (f : Core → Core) : (c.modCore k f).scrub = c.scrub := rfl
@[simp] theorem modCore_reg (k : Nat) (f : Core → Core) (j : Nat) : (c.modCore k f).reg j = c.reg j := rfl
@[simp] theorem modCore_fld (k : Nat) (f : Core → Core) (g : Field) : (c.modCore k f).fld g = c.fld g := rfl
@[simp] theorem modCore_bit (k : Nat) (f : Core → Core) (g : Field) : (c.modCore k f).bit g = c.bit g := rfl
@[simp] theorem modCore_auxOf (k : Nat) (f : Core → Core) (j : Nat) : (c.modCore k f).auxOf j = c.auxOf j := rfl

/-! ### `setAux` -/

@[simp] theorem setAux_regs (k : Nat) (v : Aux) : (c.setAux k v).regs = c.regs := rfl
@[simp] theorem setAux_fuseDue (k : Nat) (v : Aux) : (c.setAux k v).fuseDue = c.fuseDue := rfl
@[simp] theorem setAux_resp (k : Nat) (v : Aux) : (c.setAux k v).resp = c.resp := rfl
@[simp] theorem setAux_drawn (k : Nat) (v : Aux) : (c.setAux k v).drawn = c.drawn := rfl
@[simp] theorem setAux_mem (k : Nat) (v : Aux) : (c.setAux k v).mem = c.mem := rfl
@[simp] theorem setAux_lost (k : Nat) (v : Aux) : (c.setAux k v).lost = c.lost := rfl
@[simp] theorem setAux_ecc (k : Nat) (v : Aux) : (c.setAux k v).ecc = c.ecc := rfl
@[simp] theorem setAux_tags (k : Nat) (v : Aux) : (c.setAux k v).tags = c.tags := rfl
@[simp] theorem setAux_ddr (k : Nat) (v : Aux) : (c.setAux k v).ddr = c.ddr := rfl
@[simp] theorem setAux_ddrLost (k : Nat) (v : Aux) : (c.setAux k v).ddrLost = c.ddrLost := rfl
@[simp] theorem setAux_image (k : Nat) (v : Aux) : (c.setAux k v).image = c.image := rfl
@[simp] theorem setAux_tick (k : Nat) (v : Aux) : (c.setAux k v).tick = c.tick := rfl
@[simp] theorem setAux_cores (k : Nat) (v : Aux) : (c.setAux k v).cores = c.cores := rfl
@[simp] theorem setAux_shadow (k : Nat) (v : Aux) : (c.setAux k v).shadow = c.shadow := rfl
@[simp] theorem setAux_strm (k : Nat) (v : Aux) : (c.setAux k v).strm = c.strm := rfl
@[simp] theorem setAux_pan (k : Nat) (v : Aux) : (c.setAux k v).pan = c.pan := rfl
@[simp] theorem setAux_spare (k : Nat) (v : Aux) : (c.setAux k v).spare = c.spare := rfl
@[simp] theorem setAux_mbWake (k : Nat) (v : Aux) : (c.setAux k v).mbWake = c.mbWake := rfl
@[simp] theorem setAux_tlk (k : Nat) (v : Aux) : (c.setAux k v).tlk = c.tlk := rfl
@[simp] theorem setAux_sap (k : Nat) (v : Aux) : (c.setAux k v).sap = c.sap := rfl
@[simp] theorem setAux_asrc (k : Nat) (v : Aux) : (c.setAux k v).asrc = c.asrc := rfl
@[simp] theorem setAux_rtr (k : Nat) (v : Aux) : (c.setAux k v).rtr = c.rtr := rfl
@[simp] theorem setAux_clk (k : Nat) (v : Aux) : (c.setAux k v).clk = c.clk := rfl
@[simp] theorem setAux_sense (k : Nat) (v : Aux) : (c.setAux k v).sense = c.sense := rfl
@[simp] theorem setAux_act (k : Nat) (v : Aux) : (c.setAux k v).act = c.act := rfl
@[simp] theorem setAux_usb (k : Nat) (v : Aux) : (c.setAux k v).usb = c.usb := rfl
@[simp] theorem setAux_midi (k : Nat) (v : Aux) : (c.setAux k v).midi = c.midi := rfl
@[simp] theorem setAux_flash (k : Nat) (v : Aux) : (c.setAux k v).flash = c.flash := rfl
@[simp] theorem setAux_sec (k : Nat) (v : Aux) : (c.setAux k v).sec = c.sec := rfl
@[simp] theorem setAux_pmu (k : Nat) (v : Aux) : (c.setAux k v).pmu = c.pmu := rfl
@[simp] theorem setAux_irq (k : Nat) (v : Aux) : (c.setAux k v).irq = c.irq := rfl
@[simp] theorem setAux_ndo (k : Nat) (v : Aux) : (c.setAux k v).ndo = c.ndo := rfl
@[simp] theorem setAux_scrub (k : Nat) (v : Aux) : (c.setAux k v).scrub = c.scrub := rfl
@[simp] theorem setAux_reg (k : Nat) (v : Aux) (j : Nat) : (c.setAux k v).reg j = c.reg j := rfl
@[simp] theorem setAux_fld (k : Nat) (v : Aux) (g : Field) : (c.setAux k v).fld g = c.fld g := rfl
@[simp] theorem setAux_bit (k : Nat) (v : Aux) (g : Field) : (c.setAux k v).bit g = c.bit g := rfl
@[simp] theorem setAux_core (k : Nat) (v : Aux) (j : Nat) : (c.setAux k v).core j = c.core j := rfl

/-! ### `modAux` -/

@[simp] theorem modAux_regs (k : Nat) (f : Aux → Aux) : (c.modAux k f).regs = c.regs := rfl
@[simp] theorem modAux_fuseDue (k : Nat) (f : Aux → Aux) : (c.modAux k f).fuseDue = c.fuseDue := rfl
@[simp] theorem modAux_resp (k : Nat) (f : Aux → Aux) : (c.modAux k f).resp = c.resp := rfl
@[simp] theorem modAux_drawn (k : Nat) (f : Aux → Aux) : (c.modAux k f).drawn = c.drawn := rfl
@[simp] theorem modAux_mem (k : Nat) (f : Aux → Aux) : (c.modAux k f).mem = c.mem := rfl
@[simp] theorem modAux_lost (k : Nat) (f : Aux → Aux) : (c.modAux k f).lost = c.lost := rfl
@[simp] theorem modAux_ecc (k : Nat) (f : Aux → Aux) : (c.modAux k f).ecc = c.ecc := rfl
@[simp] theorem modAux_tags (k : Nat) (f : Aux → Aux) : (c.modAux k f).tags = c.tags := rfl
@[simp] theorem modAux_ddr (k : Nat) (f : Aux → Aux) : (c.modAux k f).ddr = c.ddr := rfl
@[simp] theorem modAux_ddrLost (k : Nat) (f : Aux → Aux) : (c.modAux k f).ddrLost = c.ddrLost := rfl
@[simp] theorem modAux_image (k : Nat) (f : Aux → Aux) : (c.modAux k f).image = c.image := rfl
@[simp] theorem modAux_tick (k : Nat) (f : Aux → Aux) : (c.modAux k f).tick = c.tick := rfl
@[simp] theorem modAux_cores (k : Nat) (f : Aux → Aux) : (c.modAux k f).cores = c.cores := rfl
@[simp] theorem modAux_shadow (k : Nat) (f : Aux → Aux) : (c.modAux k f).shadow = c.shadow := rfl
@[simp] theorem modAux_strm (k : Nat) (f : Aux → Aux) : (c.modAux k f).strm = c.strm := rfl
@[simp] theorem modAux_pan (k : Nat) (f : Aux → Aux) : (c.modAux k f).pan = c.pan := rfl
@[simp] theorem modAux_spare (k : Nat) (f : Aux → Aux) : (c.modAux k f).spare = c.spare := rfl
@[simp] theorem modAux_mbWake (k : Nat) (f : Aux → Aux) : (c.modAux k f).mbWake = c.mbWake := rfl
@[simp] theorem modAux_tlk (k : Nat) (f : Aux → Aux) : (c.modAux k f).tlk = c.tlk := rfl
@[simp] theorem modAux_sap (k : Nat) (f : Aux → Aux) : (c.modAux k f).sap = c.sap := rfl
@[simp] theorem modAux_asrc (k : Nat) (f : Aux → Aux) : (c.modAux k f).asrc = c.asrc := rfl
@[simp] theorem modAux_rtr (k : Nat) (f : Aux → Aux) : (c.modAux k f).rtr = c.rtr := rfl
@[simp] theorem modAux_clk (k : Nat) (f : Aux → Aux) : (c.modAux k f).clk = c.clk := rfl
@[simp] theorem modAux_sense (k : Nat) (f : Aux → Aux) : (c.modAux k f).sense = c.sense := rfl
@[simp] theorem modAux_act (k : Nat) (f : Aux → Aux) : (c.modAux k f).act = c.act := rfl
@[simp] theorem modAux_usb (k : Nat) (f : Aux → Aux) : (c.modAux k f).usb = c.usb := rfl
@[simp] theorem modAux_midi (k : Nat) (f : Aux → Aux) : (c.modAux k f).midi = c.midi := rfl
@[simp] theorem modAux_flash (k : Nat) (f : Aux → Aux) : (c.modAux k f).flash = c.flash := rfl
@[simp] theorem modAux_sec (k : Nat) (f : Aux → Aux) : (c.modAux k f).sec = c.sec := rfl
@[simp] theorem modAux_pmu (k : Nat) (f : Aux → Aux) : (c.modAux k f).pmu = c.pmu := rfl
@[simp] theorem modAux_irq (k : Nat) (f : Aux → Aux) : (c.modAux k f).irq = c.irq := rfl
@[simp] theorem modAux_ndo (k : Nat) (f : Aux → Aux) : (c.modAux k f).ndo = c.ndo := rfl
@[simp] theorem modAux_scrub (k : Nat) (f : Aux → Aux) : (c.modAux k f).scrub = c.scrub := rfl
@[simp] theorem modAux_reg (k : Nat) (f : Aux → Aux) (j : Nat) : (c.modAux k f).reg j = c.reg j := rfl
@[simp] theorem modAux_fld (k : Nat) (f : Aux → Aux) (g : Field) : (c.modAux k f).fld g = c.fld g := rfl
@[simp] theorem modAux_bit (k : Nat) (f : Aux → Aux) (g : Field) : (c.modAux k f).bit g = c.bit g := rfl
@[simp] theorem modAux_core (k : Nat) (f : Aux → Aux) (j : Nat) : (c.modAux k f).core j = c.core j := rfl

/-! ### `setByte` -/

@[simp] theorem setByte_regs (a : Nat) (b : Byte) : (c.setByte a b).regs = c.regs := rfl
@[simp] theorem setByte_fuseDue (a : Nat) (b : Byte) : (c.setByte a b).fuseDue = c.fuseDue := rfl
@[simp] theorem setByte_resp (a : Nat) (b : Byte) : (c.setByte a b).resp = c.resp := rfl
@[simp] theorem setByte_drawn (a : Nat) (b : Byte) : (c.setByte a b).drawn = c.drawn := rfl
@[simp] theorem setByte_lost (a : Nat) (b : Byte) : (c.setByte a b).lost = c.lost := rfl
@[simp] theorem setByte_ecc (a : Nat) (b : Byte) : (c.setByte a b).ecc = c.ecc := rfl
@[simp] theorem setByte_tags (a : Nat) (b : Byte) : (c.setByte a b).tags = c.tags := rfl
@[simp] theorem setByte_ddr (a : Nat) (b : Byte) : (c.setByte a b).ddr = c.ddr := rfl
@[simp] theorem setByte_ddrLost (a : Nat) (b : Byte) : (c.setByte a b).ddrLost = c.ddrLost := rfl
@[simp] theorem setByte_image (a : Nat) (b : Byte) : (c.setByte a b).image = c.image := rfl
@[simp] theorem setByte_tick (a : Nat) (b : Byte) : (c.setByte a b).tick = c.tick := rfl
@[simp] theorem setByte_cores (a : Nat) (b : Byte) : (c.setByte a b).cores = c.cores := rfl
@[simp] theorem setByte_aux (a : Nat) (b : Byte) : (c.setByte a b).aux = c.aux := rfl
@[simp] theorem setByte_shadow (a : Nat) (b : Byte) : (c.setByte a b).shadow = c.shadow := rfl
@[simp] theorem setByte_strm (a : Nat) (b : Byte) : (c.setByte a b).strm = c.strm := rfl
@[simp] theorem setByte_pan (a : Nat) (b : Byte) : (c.setByte a b).pan = c.pan := rfl
@[simp] theorem setByte_spare (a : Nat) (b : Byte) : (c.setByte a b).spare = c.spare := rfl
@[simp] theorem setByte_mbWake (a : Nat) (b : Byte) : (c.setByte a b).mbWake = c.mbWake := rfl
@[simp] theorem setByte_tlk (a : Nat) (b : Byte) : (c.setByte a b).tlk = c.tlk := rfl
@[simp] theorem setByte_sap (a : Nat) (b : Byte) : (c.setByte a b).sap = c.sap := rfl
@[simp] theorem setByte_asrc (a : Nat) (b : Byte) : (c.setByte a b).asrc = c.asrc := rfl
@[simp] theorem setByte_rtr (a : Nat) (b : Byte) : (c.setByte a b).rtr = c.rtr := rfl
@[simp] theorem setByte_clk (a : Nat) (b : Byte) : (c.setByte a b).clk = c.clk := rfl
@[simp] theorem setByte_sense (a : Nat) (b : Byte) : (c.setByte a b).sense = c.sense := rfl
@[simp] theorem setByte_act (a : Nat) (b : Byte) : (c.setByte a b).act = c.act := rfl
@[simp] theorem setByte_usb (a : Nat) (b : Byte) : (c.setByte a b).usb = c.usb := rfl
@[simp] theorem setByte_midi (a : Nat) (b : Byte) : (c.setByte a b).midi = c.midi := rfl
@[simp] theorem setByte_flash (a : Nat) (b : Byte) : (c.setByte a b).flash = c.flash := rfl
@[simp] theorem setByte_sec (a : Nat) (b : Byte) : (c.setByte a b).sec = c.sec := rfl
@[simp] theorem setByte_pmu (a : Nat) (b : Byte) : (c.setByte a b).pmu = c.pmu := rfl
@[simp] theorem setByte_irq (a : Nat) (b : Byte) : (c.setByte a b).irq = c.irq := rfl
@[simp] theorem setByte_ndo (a : Nat) (b : Byte) : (c.setByte a b).ndo = c.ndo := rfl
@[simp] theorem setByte_scrub (a : Nat) (b : Byte) : (c.setByte a b).scrub = c.scrub := rfl
@[simp] theorem setByte_reg (a : Nat) (b : Byte) (j : Nat) : (c.setByte a b).reg j = c.reg j := rfl
@[simp] theorem setByte_fld (a : Nat) (b : Byte) (g : Field) : (c.setByte a b).fld g = c.fld g := rfl
@[simp] theorem setByte_bit (a : Nat) (b : Byte) (g : Field) : (c.setByte a b).bit g = c.bit g := rfl
@[simp] theorem setByte_core (a : Nat) (b : Byte) (j : Nat) : (c.setByte a b).core j = c.core j := rfl
@[simp] theorem setByte_auxOf (a : Nat) (b : Byte) (j : Nat) : (c.setByte a b).auxOf j = c.auxOf j := rfl

/-! ### `setEcc` -/

@[simp] theorem setEcc_regs (a n : Nat) : (c.setEcc a n).regs = c.regs := rfl
@[simp] theorem setEcc_fuseDue (a n : Nat) : (c.setEcc a n).fuseDue = c.fuseDue := rfl
@[simp] theorem setEcc_resp (a n : Nat) : (c.setEcc a n).resp = c.resp := rfl
@[simp] theorem setEcc_drawn (a n : Nat) : (c.setEcc a n).drawn = c.drawn := rfl
@[simp] theorem setEcc_mem (a n : Nat) : (c.setEcc a n).mem = c.mem := rfl
@[simp] theorem setEcc_lost (a n : Nat) : (c.setEcc a n).lost = c.lost := rfl
@[simp] theorem setEcc_tags (a n : Nat) : (c.setEcc a n).tags = c.tags := rfl
@[simp] theorem setEcc_ddr (a n : Nat) : (c.setEcc a n).ddr = c.ddr := rfl
@[simp] theorem setEcc_ddrLost (a n : Nat) : (c.setEcc a n).ddrLost = c.ddrLost := rfl
@[simp] theorem setEcc_image (a n : Nat) : (c.setEcc a n).image = c.image := rfl
@[simp] theorem setEcc_tick (a n : Nat) : (c.setEcc a n).tick = c.tick := rfl
@[simp] theorem setEcc_cores (a n : Nat) : (c.setEcc a n).cores = c.cores := rfl
@[simp] theorem setEcc_aux (a n : Nat) : (c.setEcc a n).aux = c.aux := rfl
@[simp] theorem setEcc_shadow (a n : Nat) : (c.setEcc a n).shadow = c.shadow := rfl
@[simp] theorem setEcc_strm (a n : Nat) : (c.setEcc a n).strm = c.strm := rfl
@[simp] theorem setEcc_pan (a n : Nat) : (c.setEcc a n).pan = c.pan := rfl
@[simp] theorem setEcc_spare (a n : Nat) : (c.setEcc a n).spare = c.spare := rfl
@[simp] theorem setEcc_mbWake (a n : Nat) : (c.setEcc a n).mbWake = c.mbWake := rfl
@[simp] theorem setEcc_tlk (a n : Nat) : (c.setEcc a n).tlk = c.tlk := rfl
@[simp] theorem setEcc_sap (a n : Nat) : (c.setEcc a n).sap = c.sap := rfl
@[simp] theorem setEcc_asrc (a n : Nat) : (c.setEcc a n).asrc = c.asrc := rfl
@[simp] theorem setEcc_rtr (a n : Nat) : (c.setEcc a n).rtr = c.rtr := rfl
@[simp] theorem setEcc_clk (a n : Nat) : (c.setEcc a n).clk = c.clk := rfl
@[simp] theorem setEcc_sense (a n : Nat) : (c.setEcc a n).sense = c.sense := rfl
@[simp] theorem setEcc_act (a n : Nat) : (c.setEcc a n).act = c.act := rfl
@[simp] theorem setEcc_usb (a n : Nat) : (c.setEcc a n).usb = c.usb := rfl
@[simp] theorem setEcc_midi (a n : Nat) : (c.setEcc a n).midi = c.midi := rfl
@[simp] theorem setEcc_flash (a n : Nat) : (c.setEcc a n).flash = c.flash := rfl
@[simp] theorem setEcc_sec (a n : Nat) : (c.setEcc a n).sec = c.sec := rfl
@[simp] theorem setEcc_pmu (a n : Nat) : (c.setEcc a n).pmu = c.pmu := rfl
@[simp] theorem setEcc_irq (a n : Nat) : (c.setEcc a n).irq = c.irq := rfl
@[simp] theorem setEcc_ndo (a n : Nat) : (c.setEcc a n).ndo = c.ndo := rfl
@[simp] theorem setEcc_scrub (a n : Nat) : (c.setEcc a n).scrub = c.scrub := rfl
@[simp] theorem setEcc_reg (a n : Nat) (j : Nat) : (c.setEcc a n).reg j = c.reg j := rfl
@[simp] theorem setEcc_fld (a n : Nat) (g : Field) : (c.setEcc a n).fld g = c.fld g := rfl
@[simp] theorem setEcc_bit (a n : Nat) (g : Field) : (c.setEcc a n).bit g = c.bit g := rfl
@[simp] theorem setEcc_core (a n : Nat) (j : Nat) : (c.setEcc a n).core j = c.core j := rfl
@[simp] theorem setEcc_auxOf (a n : Nat) (j : Nat) : (c.setEcc a n).auxOf j = c.auxOf j := rfl

/-! ### `setDdrByte` -/

@[simp] theorem setDdrByte_regs (a : Nat) (b : Byte) : (c.setDdrByte a b).regs = c.regs := rfl
@[simp] theorem setDdrByte_fuseDue (a : Nat) (b : Byte) : (c.setDdrByte a b).fuseDue = c.fuseDue := rfl
@[simp] theorem setDdrByte_resp (a : Nat) (b : Byte) : (c.setDdrByte a b).resp = c.resp := rfl
@[simp] theorem setDdrByte_drawn (a : Nat) (b : Byte) : (c.setDdrByte a b).drawn = c.drawn := rfl
@[simp] theorem setDdrByte_mem (a : Nat) (b : Byte) : (c.setDdrByte a b).mem = c.mem := rfl
@[simp] theorem setDdrByte_lost (a : Nat) (b : Byte) : (c.setDdrByte a b).lost = c.lost := rfl
@[simp] theorem setDdrByte_ecc (a : Nat) (b : Byte) : (c.setDdrByte a b).ecc = c.ecc := rfl
@[simp] theorem setDdrByte_tags (a : Nat) (b : Byte) : (c.setDdrByte a b).tags = c.tags := rfl
@[simp] theorem setDdrByte_ddrLost (a : Nat) (b : Byte) : (c.setDdrByte a b).ddrLost = c.ddrLost := rfl
@[simp] theorem setDdrByte_image (a : Nat) (b : Byte) : (c.setDdrByte a b).image = c.image := rfl
@[simp] theorem setDdrByte_tick (a : Nat) (b : Byte) : (c.setDdrByte a b).tick = c.tick := rfl
@[simp] theorem setDdrByte_cores (a : Nat) (b : Byte) : (c.setDdrByte a b).cores = c.cores := rfl
@[simp] theorem setDdrByte_aux (a : Nat) (b : Byte) : (c.setDdrByte a b).aux = c.aux := rfl
@[simp] theorem setDdrByte_shadow (a : Nat) (b : Byte) : (c.setDdrByte a b).shadow = c.shadow := rfl
@[simp] theorem setDdrByte_strm (a : Nat) (b : Byte) : (c.setDdrByte a b).strm = c.strm := rfl
@[simp] theorem setDdrByte_pan (a : Nat) (b : Byte) : (c.setDdrByte a b).pan = c.pan := rfl
@[simp] theorem setDdrByte_spare (a : Nat) (b : Byte) : (c.setDdrByte a b).spare = c.spare := rfl
@[simp] theorem setDdrByte_mbWake (a : Nat) (b : Byte) : (c.setDdrByte a b).mbWake = c.mbWake := rfl
@[simp] theorem setDdrByte_tlk (a : Nat) (b : Byte) : (c.setDdrByte a b).tlk = c.tlk := rfl
@[simp] theorem setDdrByte_sap (a : Nat) (b : Byte) : (c.setDdrByte a b).sap = c.sap := rfl
@[simp] theorem setDdrByte_asrc (a : Nat) (b : Byte) : (c.setDdrByte a b).asrc = c.asrc := rfl
@[simp] theorem setDdrByte_rtr (a : Nat) (b : Byte) : (c.setDdrByte a b).rtr = c.rtr := rfl
@[simp] theorem setDdrByte_clk (a : Nat) (b : Byte) : (c.setDdrByte a b).clk = c.clk := rfl
@[simp] theorem setDdrByte_sense (a : Nat) (b : Byte) : (c.setDdrByte a b).sense = c.sense := rfl
@[simp] theorem setDdrByte_act (a : Nat) (b : Byte) : (c.setDdrByte a b).act = c.act := rfl
@[simp] theorem setDdrByte_usb (a : Nat) (b : Byte) : (c.setDdrByte a b).usb = c.usb := rfl
@[simp] theorem setDdrByte_midi (a : Nat) (b : Byte) : (c.setDdrByte a b).midi = c.midi := rfl
@[simp] theorem setDdrByte_flash (a : Nat) (b : Byte) : (c.setDdrByte a b).flash = c.flash := rfl
@[simp] theorem setDdrByte_sec (a : Nat) (b : Byte) : (c.setDdrByte a b).sec = c.sec := rfl
@[simp] theorem setDdrByte_pmu (a : Nat) (b : Byte) : (c.setDdrByte a b).pmu = c.pmu := rfl
@[simp] theorem setDdrByte_irq (a : Nat) (b : Byte) : (c.setDdrByte a b).irq = c.irq := rfl
@[simp] theorem setDdrByte_ndo (a : Nat) (b : Byte) : (c.setDdrByte a b).ndo = c.ndo := rfl
@[simp] theorem setDdrByte_scrub (a : Nat) (b : Byte) : (c.setDdrByte a b).scrub = c.scrub := rfl
@[simp] theorem setDdrByte_reg (a : Nat) (b : Byte) (j : Nat) : (c.setDdrByte a b).reg j = c.reg j := rfl
@[simp] theorem setDdrByte_fld (a : Nat) (b : Byte) (g : Field) : (c.setDdrByte a b).fld g = c.fld g := rfl
@[simp] theorem setDdrByte_bit (a : Nat) (b : Byte) (g : Field) : (c.setDdrByte a b).bit g = c.bit g := rfl
@[simp] theorem setDdrByte_core (a : Nat) (b : Byte) (j : Nat) : (c.setDdrByte a b).core j = c.core j := rfl
@[simp] theorem setDdrByte_auxOf (a : Nat) (b : Byte) (j : Nat) : (c.setDdrByte a b).auxOf j = c.auxOf j := rfl

/-! ### `setFlash` -/

@[simp] theorem setFlash_regs (a : Nat) (b : Byte) : (c.setFlash a b).regs = c.regs := rfl
@[simp] theorem setFlash_fuseDue (a : Nat) (b : Byte) : (c.setFlash a b).fuseDue = c.fuseDue := rfl
@[simp] theorem setFlash_resp (a : Nat) (b : Byte) : (c.setFlash a b).resp = c.resp := rfl
@[simp] theorem setFlash_drawn (a : Nat) (b : Byte) : (c.setFlash a b).drawn = c.drawn := rfl
@[simp] theorem setFlash_mem (a : Nat) (b : Byte) : (c.setFlash a b).mem = c.mem := rfl
@[simp] theorem setFlash_lost (a : Nat) (b : Byte) : (c.setFlash a b).lost = c.lost := rfl
@[simp] theorem setFlash_ecc (a : Nat) (b : Byte) : (c.setFlash a b).ecc = c.ecc := rfl
@[simp] theorem setFlash_tags (a : Nat) (b : Byte) : (c.setFlash a b).tags = c.tags := rfl
@[simp] theorem setFlash_ddr (a : Nat) (b : Byte) : (c.setFlash a b).ddr = c.ddr := rfl
@[simp] theorem setFlash_ddrLost (a : Nat) (b : Byte) : (c.setFlash a b).ddrLost = c.ddrLost := rfl
@[simp] theorem setFlash_image (a : Nat) (b : Byte) : (c.setFlash a b).image = c.image := rfl
@[simp] theorem setFlash_tick (a : Nat) (b : Byte) : (c.setFlash a b).tick = c.tick := rfl
@[simp] theorem setFlash_cores (a : Nat) (b : Byte) : (c.setFlash a b).cores = c.cores := rfl
@[simp] theorem setFlash_aux (a : Nat) (b : Byte) : (c.setFlash a b).aux = c.aux := rfl
@[simp] theorem setFlash_shadow (a : Nat) (b : Byte) : (c.setFlash a b).shadow = c.shadow := rfl
@[simp] theorem setFlash_strm (a : Nat) (b : Byte) : (c.setFlash a b).strm = c.strm := rfl
@[simp] theorem setFlash_pan (a : Nat) (b : Byte) : (c.setFlash a b).pan = c.pan := rfl
@[simp] theorem setFlash_spare (a : Nat) (b : Byte) : (c.setFlash a b).spare = c.spare := rfl
@[simp] theorem setFlash_mbWake (a : Nat) (b : Byte) : (c.setFlash a b).mbWake = c.mbWake := rfl
@[simp] theorem setFlash_tlk (a : Nat) (b : Byte) : (c.setFlash a b).tlk = c.tlk := rfl
@[simp] theorem setFlash_sap (a : Nat) (b : Byte) : (c.setFlash a b).sap = c.sap := rfl
@[simp] theorem setFlash_asrc (a : Nat) (b : Byte) : (c.setFlash a b).asrc = c.asrc := rfl
@[simp] theorem setFlash_rtr (a : Nat) (b : Byte) : (c.setFlash a b).rtr = c.rtr := rfl
@[simp] theorem setFlash_clk (a : Nat) (b : Byte) : (c.setFlash a b).clk = c.clk := rfl
@[simp] theorem setFlash_sense (a : Nat) (b : Byte) : (c.setFlash a b).sense = c.sense := rfl
@[simp] theorem setFlash_act (a : Nat) (b : Byte) : (c.setFlash a b).act = c.act := rfl
@[simp] theorem setFlash_usb (a : Nat) (b : Byte) : (c.setFlash a b).usb = c.usb := rfl
@[simp] theorem setFlash_midi (a : Nat) (b : Byte) : (c.setFlash a b).midi = c.midi := rfl
@[simp] theorem setFlash_sec (a : Nat) (b : Byte) : (c.setFlash a b).sec = c.sec := rfl
@[simp] theorem setFlash_pmu (a : Nat) (b : Byte) : (c.setFlash a b).pmu = c.pmu := rfl
@[simp] theorem setFlash_irq (a : Nat) (b : Byte) : (c.setFlash a b).irq = c.irq := rfl
@[simp] theorem setFlash_ndo (a : Nat) (b : Byte) : (c.setFlash a b).ndo = c.ndo := rfl
@[simp] theorem setFlash_scrub (a : Nat) (b : Byte) : (c.setFlash a b).scrub = c.scrub := rfl
@[simp] theorem setFlash_reg (a : Nat) (b : Byte) (j : Nat) : (c.setFlash a b).reg j = c.reg j := rfl
@[simp] theorem setFlash_fld (a : Nat) (b : Byte) (g : Field) : (c.setFlash a b).fld g = c.fld g := rfl
@[simp] theorem setFlash_bit (a : Nat) (b : Byte) (g : Field) : (c.setFlash a b).bit g = c.bit g := rfl
@[simp] theorem setFlash_core (a : Nat) (b : Byte) (j : Nat) : (c.setFlash a b).core j = c.core j := rfl
@[simp] theorem setFlash_auxOf (a : Nat) (b : Byte) (j : Nat) : (c.setFlash a b).auxOf j = c.auxOf j := rfl

/-! ### `modTick` -/

@[simp] theorem modTick_tick (f : Tick → Tick) : (c.modTick f).tick = f c.tick := rfl
@[simp] theorem modTick_regs (f : Tick → Tick) : (c.modTick f).regs = c.regs := rfl
@[simp] theorem modTick_fuseDue (f : Tick → Tick) : (c.modTick f).fuseDue = c.fuseDue := rfl
@[simp] theorem modTick_resp (f : Tick → Tick) : (c.modTick f).resp = c.resp := rfl
@[simp] theorem modTick_drawn (f : Tick → Tick) : (c.modTick f).drawn = c.drawn := rfl
@[simp] theorem modTick_mem (f : Tick → Tick) : (c.modTick f).mem = c.mem := rfl
@[simp] theorem modTick_lost (f : Tick → Tick) : (c.modTick f).lost = c.lost := rfl
@[simp] theorem modTick_ecc (f : Tick → Tick) : (c.modTick f).ecc = c.ecc := rfl
@[simp] theorem modTick_tags (f : Tick → Tick) : (c.modTick f).tags = c.tags := rfl
@[simp] theorem modTick_ddr (f : Tick → Tick) : (c.modTick f).ddr = c.ddr := rfl
@[simp] theorem modTick_ddrLost (f : Tick → Tick) : (c.modTick f).ddrLost = c.ddrLost := rfl
@[simp] theorem modTick_image (f : Tick → Tick) : (c.modTick f).image = c.image := rfl
@[simp] theorem modTick_cores (f : Tick → Tick) : (c.modTick f).cores = c.cores := rfl
@[simp] theorem modTick_aux (f : Tick → Tick) : (c.modTick f).aux = c.aux := rfl
@[simp] theorem modTick_shadow (f : Tick → Tick) : (c.modTick f).shadow = c.shadow := rfl
@[simp] theorem modTick_strm (f : Tick → Tick) : (c.modTick f).strm = c.strm := rfl
@[simp] theorem modTick_pan (f : Tick → Tick) : (c.modTick f).pan = c.pan := rfl
@[simp] theorem modTick_spare (f : Tick → Tick) : (c.modTick f).spare = c.spare := rfl
@[simp] theorem modTick_mbWake (f : Tick → Tick) : (c.modTick f).mbWake = c.mbWake := rfl
@[simp] theorem modTick_tlk (f : Tick → Tick) : (c.modTick f).tlk = c.tlk := rfl
@[simp] theorem modTick_sap (f : Tick → Tick) : (c.modTick f).sap = c.sap := rfl
@[simp] theorem modTick_asrc (f : Tick → Tick) : (c.modTick f).asrc = c.asrc := rfl
@[simp] theorem modTick_rtr (f : Tick → Tick) : (c.modTick f).rtr = c.rtr := rfl
@[simp] theorem modTick_clk (f : Tick → Tick) : (c.modTick f).clk = c.clk := rfl
@[simp] theorem modTick_sense (f : Tick → Tick) : (c.modTick f).sense = c.sense := rfl
@[simp] theorem modTick_act (f : Tick → Tick) : (c.modTick f).act = c.act := rfl
@[simp] theorem modTick_usb (f : Tick → Tick) : (c.modTick f).usb = c.usb := rfl
@[simp] theorem modTick_midi (f : Tick → Tick) : (c.modTick f).midi = c.midi := rfl
@[simp] theorem modTick_flash (f : Tick → Tick) : (c.modTick f).flash = c.flash := rfl
@[simp] theorem modTick_sec (f : Tick → Tick) : (c.modTick f).sec = c.sec := rfl
@[simp] theorem modTick_pmu (f : Tick → Tick) : (c.modTick f).pmu = c.pmu := rfl
@[simp] theorem modTick_irq (f : Tick → Tick) : (c.modTick f).irq = c.irq := rfl
@[simp] theorem modTick_ndo (f : Tick → Tick) : (c.modTick f).ndo = c.ndo := rfl
@[simp] theorem modTick_scrub (f : Tick → Tick) : (c.modTick f).scrub = c.scrub := rfl
@[simp] theorem modTick_reg (f : Tick → Tick) (j : Nat) : (c.modTick f).reg j = c.reg j := rfl
@[simp] theorem modTick_fld (f : Tick → Tick) (g : Field) : (c.modTick f).fld g = c.fld g := rfl
@[simp] theorem modTick_bit (f : Tick → Tick) (g : Field) : (c.modTick f).bit g = c.bit g := rfl
@[simp] theorem modTick_core (f : Tick → Tick) (j : Nat) : (c.modTick f).core j = c.core j := rfl
@[simp] theorem modTick_auxOf (f : Tick → Tick) (j : Nat) : (c.modTick f).auxOf j = c.auxOf j := rfl

/-! ### `modClk` -/

@[simp] theorem modClk_clk (f : Clk → Clk) : (c.modClk f).clk = f c.clk := rfl
@[simp] theorem modClk_regs (f : Clk → Clk) : (c.modClk f).regs = c.regs := rfl
@[simp] theorem modClk_fuseDue (f : Clk → Clk) : (c.modClk f).fuseDue = c.fuseDue := rfl
@[simp] theorem modClk_resp (f : Clk → Clk) : (c.modClk f).resp = c.resp := rfl
@[simp] theorem modClk_drawn (f : Clk → Clk) : (c.modClk f).drawn = c.drawn := rfl
@[simp] theorem modClk_mem (f : Clk → Clk) : (c.modClk f).mem = c.mem := rfl
@[simp] theorem modClk_lost (f : Clk → Clk) : (c.modClk f).lost = c.lost := rfl
@[simp] theorem modClk_ecc (f : Clk → Clk) : (c.modClk f).ecc = c.ecc := rfl
@[simp] theorem modClk_tags (f : Clk → Clk) : (c.modClk f).tags = c.tags := rfl
@[simp] theorem modClk_ddr (f : Clk → Clk) : (c.modClk f).ddr = c.ddr := rfl
@[simp] theorem modClk_ddrLost (f : Clk → Clk) : (c.modClk f).ddrLost = c.ddrLost := rfl
@[simp] theorem modClk_image (f : Clk → Clk) : (c.modClk f).image = c.image := rfl
@[simp] theorem modClk_tick (f : Clk → Clk) : (c.modClk f).tick = c.tick := rfl
@[simp] theorem modClk_cores (f : Clk → Clk) : (c.modClk f).cores = c.cores := rfl
@[simp] theorem modClk_aux (f : Clk → Clk) : (c.modClk f).aux = c.aux := rfl
@[simp] theorem modClk_shadow (f : Clk → Clk) : (c.modClk f).shadow = c.shadow := rfl
@[simp] theorem modClk_strm (f : Clk → Clk) : (c.modClk f).strm = c.strm := rfl
@[simp] theorem modClk_pan (f : Clk → Clk) : (c.modClk f).pan = c.pan := rfl
@[simp] theorem modClk_spare (f : Clk → Clk) : (c.modClk f).spare = c.spare := rfl
@[simp] theorem modClk_mbWake (f : Clk → Clk) : (c.modClk f).mbWake = c.mbWake := rfl
@[simp] theorem modClk_tlk (f : Clk → Clk) : (c.modClk f).tlk = c.tlk := rfl
@[simp] theorem modClk_sap (f : Clk → Clk) : (c.modClk f).sap = c.sap := rfl
@[simp] theorem modClk_asrc (f : Clk → Clk) : (c.modClk f).asrc = c.asrc := rfl
@[simp] theorem modClk_rtr (f : Clk → Clk) : (c.modClk f).rtr = c.rtr := rfl
@[simp] theorem modClk_sense (f : Clk → Clk) : (c.modClk f).sense = c.sense := rfl
@[simp] theorem modClk_act (f : Clk → Clk) : (c.modClk f).act = c.act := rfl
@[simp] theorem modClk_usb (f : Clk → Clk) : (c.modClk f).usb = c.usb := rfl
@[simp] theorem modClk_midi (f : Clk → Clk) : (c.modClk f).midi = c.midi := rfl
@[simp] theorem modClk_flash (f : Clk → Clk) : (c.modClk f).flash = c.flash := rfl
@[simp] theorem modClk_sec (f : Clk → Clk) : (c.modClk f).sec = c.sec := rfl
@[simp] theorem modClk_pmu (f : Clk → Clk) : (c.modClk f).pmu = c.pmu := rfl
@[simp] theorem modClk_irq (f : Clk → Clk) : (c.modClk f).irq = c.irq := rfl
@[simp] theorem modClk_ndo (f : Clk → Clk) : (c.modClk f).ndo = c.ndo := rfl
@[simp] theorem modClk_scrub (f : Clk → Clk) : (c.modClk f).scrub = c.scrub := rfl
@[simp] theorem modClk_reg (f : Clk → Clk) (j : Nat) : (c.modClk f).reg j = c.reg j := rfl
@[simp] theorem modClk_fld (f : Clk → Clk) (g : Field) : (c.modClk f).fld g = c.fld g := rfl
@[simp] theorem modClk_bit (f : Clk → Clk) (g : Field) : (c.modClk f).bit g = c.bit g := rfl
@[simp] theorem modClk_core (f : Clk → Clk) (j : Nat) : (c.modClk f).core j = c.core j := rfl
@[simp] theorem modClk_auxOf (f : Clk → Clk) (j : Nat) : (c.modClk f).auxOf j = c.auxOf j := rfl

/-! ### `modTlk` -/

@[simp] theorem modTlk_tlk (f : Tlk → Tlk) : (c.modTlk f).tlk = f c.tlk := rfl
@[simp] theorem modTlk_regs (f : Tlk → Tlk) : (c.modTlk f).regs = c.regs := rfl
@[simp] theorem modTlk_fuseDue (f : Tlk → Tlk) : (c.modTlk f).fuseDue = c.fuseDue := rfl
@[simp] theorem modTlk_resp (f : Tlk → Tlk) : (c.modTlk f).resp = c.resp := rfl
@[simp] theorem modTlk_drawn (f : Tlk → Tlk) : (c.modTlk f).drawn = c.drawn := rfl
@[simp] theorem modTlk_mem (f : Tlk → Tlk) : (c.modTlk f).mem = c.mem := rfl
@[simp] theorem modTlk_lost (f : Tlk → Tlk) : (c.modTlk f).lost = c.lost := rfl
@[simp] theorem modTlk_ecc (f : Tlk → Tlk) : (c.modTlk f).ecc = c.ecc := rfl
@[simp] theorem modTlk_tags (f : Tlk → Tlk) : (c.modTlk f).tags = c.tags := rfl
@[simp] theorem modTlk_ddr (f : Tlk → Tlk) : (c.modTlk f).ddr = c.ddr := rfl
@[simp] theorem modTlk_ddrLost (f : Tlk → Tlk) : (c.modTlk f).ddrLost = c.ddrLost := rfl
@[simp] theorem modTlk_image (f : Tlk → Tlk) : (c.modTlk f).image = c.image := rfl
@[simp] theorem modTlk_tick (f : Tlk → Tlk) : (c.modTlk f).tick = c.tick := rfl
@[simp] theorem modTlk_cores (f : Tlk → Tlk) : (c.modTlk f).cores = c.cores := rfl
@[simp] theorem modTlk_aux (f : Tlk → Tlk) : (c.modTlk f).aux = c.aux := rfl
@[simp] theorem modTlk_shadow (f : Tlk → Tlk) : (c.modTlk f).shadow = c.shadow := rfl
@[simp] theorem modTlk_strm (f : Tlk → Tlk) : (c.modTlk f).strm = c.strm := rfl
@[simp] theorem modTlk_pan (f : Tlk → Tlk) : (c.modTlk f).pan = c.pan := rfl
@[simp] theorem modTlk_spare (f : Tlk → Tlk) : (c.modTlk f).spare = c.spare := rfl
@[simp] theorem modTlk_mbWake (f : Tlk → Tlk) : (c.modTlk f).mbWake = c.mbWake := rfl
@[simp] theorem modTlk_sap (f : Tlk → Tlk) : (c.modTlk f).sap = c.sap := rfl
@[simp] theorem modTlk_asrc (f : Tlk → Tlk) : (c.modTlk f).asrc = c.asrc := rfl
@[simp] theorem modTlk_rtr (f : Tlk → Tlk) : (c.modTlk f).rtr = c.rtr := rfl
@[simp] theorem modTlk_clk (f : Tlk → Tlk) : (c.modTlk f).clk = c.clk := rfl
@[simp] theorem modTlk_sense (f : Tlk → Tlk) : (c.modTlk f).sense = c.sense := rfl
@[simp] theorem modTlk_act (f : Tlk → Tlk) : (c.modTlk f).act = c.act := rfl
@[simp] theorem modTlk_usb (f : Tlk → Tlk) : (c.modTlk f).usb = c.usb := rfl
@[simp] theorem modTlk_midi (f : Tlk → Tlk) : (c.modTlk f).midi = c.midi := rfl
@[simp] theorem modTlk_flash (f : Tlk → Tlk) : (c.modTlk f).flash = c.flash := rfl
@[simp] theorem modTlk_sec (f : Tlk → Tlk) : (c.modTlk f).sec = c.sec := rfl
@[simp] theorem modTlk_pmu (f : Tlk → Tlk) : (c.modTlk f).pmu = c.pmu := rfl
@[simp] theorem modTlk_irq (f : Tlk → Tlk) : (c.modTlk f).irq = c.irq := rfl
@[simp] theorem modTlk_ndo (f : Tlk → Tlk) : (c.modTlk f).ndo = c.ndo := rfl
@[simp] theorem modTlk_scrub (f : Tlk → Tlk) : (c.modTlk f).scrub = c.scrub := rfl
@[simp] theorem modTlk_reg (f : Tlk → Tlk) (j : Nat) : (c.modTlk f).reg j = c.reg j := rfl
@[simp] theorem modTlk_fld (f : Tlk → Tlk) (g : Field) : (c.modTlk f).fld g = c.fld g := rfl
@[simp] theorem modTlk_bit (f : Tlk → Tlk) (g : Field) : (c.modTlk f).bit g = c.bit g := rfl
@[simp] theorem modTlk_core (f : Tlk → Tlk) (j : Nat) : (c.modTlk f).core j = c.core j := rfl
@[simp] theorem modTlk_auxOf (f : Tlk → Tlk) (j : Nat) : (c.modTlk f).auxOf j = c.auxOf j := rfl

/-! ### `modNdo` -/

@[simp] theorem modNdo_ndo (f : Ndo → Ndo) : (c.modNdo f).ndo = f c.ndo := rfl
@[simp] theorem modNdo_regs (f : Ndo → Ndo) : (c.modNdo f).regs = c.regs := rfl
@[simp] theorem modNdo_fuseDue (f : Ndo → Ndo) : (c.modNdo f).fuseDue = c.fuseDue := rfl
@[simp] theorem modNdo_resp (f : Ndo → Ndo) : (c.modNdo f).resp = c.resp := rfl
@[simp] theorem modNdo_drawn (f : Ndo → Ndo) : (c.modNdo f).drawn = c.drawn := rfl
@[simp] theorem modNdo_mem (f : Ndo → Ndo) : (c.modNdo f).mem = c.mem := rfl
@[simp] theorem modNdo_lost (f : Ndo → Ndo) : (c.modNdo f).lost = c.lost := rfl
@[simp] theorem modNdo_ecc (f : Ndo → Ndo) : (c.modNdo f).ecc = c.ecc := rfl
@[simp] theorem modNdo_tags (f : Ndo → Ndo) : (c.modNdo f).tags = c.tags := rfl
@[simp] theorem modNdo_ddr (f : Ndo → Ndo) : (c.modNdo f).ddr = c.ddr := rfl
@[simp] theorem modNdo_ddrLost (f : Ndo → Ndo) : (c.modNdo f).ddrLost = c.ddrLost := rfl
@[simp] theorem modNdo_image (f : Ndo → Ndo) : (c.modNdo f).image = c.image := rfl
@[simp] theorem modNdo_tick (f : Ndo → Ndo) : (c.modNdo f).tick = c.tick := rfl
@[simp] theorem modNdo_cores (f : Ndo → Ndo) : (c.modNdo f).cores = c.cores := rfl
@[simp] theorem modNdo_aux (f : Ndo → Ndo) : (c.modNdo f).aux = c.aux := rfl
@[simp] theorem modNdo_shadow (f : Ndo → Ndo) : (c.modNdo f).shadow = c.shadow := rfl
@[simp] theorem modNdo_strm (f : Ndo → Ndo) : (c.modNdo f).strm = c.strm := rfl
@[simp] theorem modNdo_pan (f : Ndo → Ndo) : (c.modNdo f).pan = c.pan := rfl
@[simp] theorem modNdo_spare (f : Ndo → Ndo) : (c.modNdo f).spare = c.spare := rfl
@[simp] theorem modNdo_mbWake (f : Ndo → Ndo) : (c.modNdo f).mbWake = c.mbWake := rfl
@[simp] theorem modNdo_tlk (f : Ndo → Ndo) : (c.modNdo f).tlk = c.tlk := rfl
@[simp] theorem modNdo_sap (f : Ndo → Ndo) : (c.modNdo f).sap = c.sap := rfl
@[simp] theorem modNdo_asrc (f : Ndo → Ndo) : (c.modNdo f).asrc = c.asrc := rfl
@[simp] theorem modNdo_rtr (f : Ndo → Ndo) : (c.modNdo f).rtr = c.rtr := rfl
@[simp] theorem modNdo_clk (f : Ndo → Ndo) : (c.modNdo f).clk = c.clk := rfl
@[simp] theorem modNdo_sense (f : Ndo → Ndo) : (c.modNdo f).sense = c.sense := rfl
@[simp] theorem modNdo_act (f : Ndo → Ndo) : (c.modNdo f).act = c.act := rfl
@[simp] theorem modNdo_usb (f : Ndo → Ndo) : (c.modNdo f).usb = c.usb := rfl
@[simp] theorem modNdo_midi (f : Ndo → Ndo) : (c.modNdo f).midi = c.midi := rfl
@[simp] theorem modNdo_flash (f : Ndo → Ndo) : (c.modNdo f).flash = c.flash := rfl
@[simp] theorem modNdo_sec (f : Ndo → Ndo) : (c.modNdo f).sec = c.sec := rfl
@[simp] theorem modNdo_pmu (f : Ndo → Ndo) : (c.modNdo f).pmu = c.pmu := rfl
@[simp] theorem modNdo_irq (f : Ndo → Ndo) : (c.modNdo f).irq = c.irq := rfl
@[simp] theorem modNdo_scrub (f : Ndo → Ndo) : (c.modNdo f).scrub = c.scrub := rfl
@[simp] theorem modNdo_reg (f : Ndo → Ndo) (j : Nat) : (c.modNdo f).reg j = c.reg j := rfl
@[simp] theorem modNdo_fld (f : Ndo → Ndo) (g : Field) : (c.modNdo f).fld g = c.fld g := rfl
@[simp] theorem modNdo_bit (f : Ndo → Ndo) (g : Field) : (c.modNdo f).bit g = c.bit g := rfl
@[simp] theorem modNdo_core (f : Ndo → Ndo) (j : Nat) : (c.modNdo f).core j = c.core j := rfl
@[simp] theorem modNdo_auxOf (f : Ndo → Ndo) (j : Nat) : (c.modNdo f).auxOf j = c.auxOf j := rfl

/-! ### `modRtr` -/

@[simp] theorem modRtr_rtr (f : Rtr → Rtr) : (c.modRtr f).rtr = f c.rtr := rfl
@[simp] theorem modRtr_regs (f : Rtr → Rtr) : (c.modRtr f).regs = c.regs := rfl
@[simp] theorem modRtr_fuseDue (f : Rtr → Rtr) : (c.modRtr f).fuseDue = c.fuseDue := rfl
@[simp] theorem modRtr_resp (f : Rtr → Rtr) : (c.modRtr f).resp = c.resp := rfl
@[simp] theorem modRtr_drawn (f : Rtr → Rtr) : (c.modRtr f).drawn = c.drawn := rfl
@[simp] theorem modRtr_mem (f : Rtr → Rtr) : (c.modRtr f).mem = c.mem := rfl
@[simp] theorem modRtr_lost (f : Rtr → Rtr) : (c.modRtr f).lost = c.lost := rfl
@[simp] theorem modRtr_ecc (f : Rtr → Rtr) : (c.modRtr f).ecc = c.ecc := rfl
@[simp] theorem modRtr_tags (f : Rtr → Rtr) : (c.modRtr f).tags = c.tags := rfl
@[simp] theorem modRtr_ddr (f : Rtr → Rtr) : (c.modRtr f).ddr = c.ddr := rfl
@[simp] theorem modRtr_ddrLost (f : Rtr → Rtr) : (c.modRtr f).ddrLost = c.ddrLost := rfl
@[simp] theorem modRtr_image (f : Rtr → Rtr) : (c.modRtr f).image = c.image := rfl
@[simp] theorem modRtr_tick (f : Rtr → Rtr) : (c.modRtr f).tick = c.tick := rfl
@[simp] theorem modRtr_cores (f : Rtr → Rtr) : (c.modRtr f).cores = c.cores := rfl
@[simp] theorem modRtr_aux (f : Rtr → Rtr) : (c.modRtr f).aux = c.aux := rfl
@[simp] theorem modRtr_shadow (f : Rtr → Rtr) : (c.modRtr f).shadow = c.shadow := rfl
@[simp] theorem modRtr_strm (f : Rtr → Rtr) : (c.modRtr f).strm = c.strm := rfl
@[simp] theorem modRtr_pan (f : Rtr → Rtr) : (c.modRtr f).pan = c.pan := rfl
@[simp] theorem modRtr_spare (f : Rtr → Rtr) : (c.modRtr f).spare = c.spare := rfl
@[simp] theorem modRtr_mbWake (f : Rtr → Rtr) : (c.modRtr f).mbWake = c.mbWake := rfl
@[simp] theorem modRtr_tlk (f : Rtr → Rtr) : (c.modRtr f).tlk = c.tlk := rfl
@[simp] theorem modRtr_sap (f : Rtr → Rtr) : (c.modRtr f).sap = c.sap := rfl
@[simp] theorem modRtr_asrc (f : Rtr → Rtr) : (c.modRtr f).asrc = c.asrc := rfl
@[simp] theorem modRtr_clk (f : Rtr → Rtr) : (c.modRtr f).clk = c.clk := rfl
@[simp] theorem modRtr_sense (f : Rtr → Rtr) : (c.modRtr f).sense = c.sense := rfl
@[simp] theorem modRtr_act (f : Rtr → Rtr) : (c.modRtr f).act = c.act := rfl
@[simp] theorem modRtr_usb (f : Rtr → Rtr) : (c.modRtr f).usb = c.usb := rfl
@[simp] theorem modRtr_midi (f : Rtr → Rtr) : (c.modRtr f).midi = c.midi := rfl
@[simp] theorem modRtr_flash (f : Rtr → Rtr) : (c.modRtr f).flash = c.flash := rfl
@[simp] theorem modRtr_sec (f : Rtr → Rtr) : (c.modRtr f).sec = c.sec := rfl
@[simp] theorem modRtr_pmu (f : Rtr → Rtr) : (c.modRtr f).pmu = c.pmu := rfl
@[simp] theorem modRtr_irq (f : Rtr → Rtr) : (c.modRtr f).irq = c.irq := rfl
@[simp] theorem modRtr_ndo (f : Rtr → Rtr) : (c.modRtr f).ndo = c.ndo := rfl
@[simp] theorem modRtr_scrub (f : Rtr → Rtr) : (c.modRtr f).scrub = c.scrub := rfl
@[simp] theorem modRtr_reg (f : Rtr → Rtr) (j : Nat) : (c.modRtr f).reg j = c.reg j := rfl
@[simp] theorem modRtr_fld (f : Rtr → Rtr) (g : Field) : (c.modRtr f).fld g = c.fld g := rfl
@[simp] theorem modRtr_bit (f : Rtr → Rtr) (g : Field) : (c.modRtr f).bit g = c.bit g := rfl
@[simp] theorem modRtr_core (f : Rtr → Rtr) (j : Nat) : (c.modRtr f).core j = c.core j := rfl
@[simp] theorem modRtr_auxOf (f : Rtr → Rtr) (j : Nat) : (c.modRtr f).auxOf j = c.auxOf j := rfl

/-! ### `modSap` -/

@[simp] theorem modSap_regs (k : Nat) (f : Sap → Sap) : (c.modSap k f).regs = c.regs := rfl
@[simp] theorem modSap_fuseDue (k : Nat) (f : Sap → Sap) : (c.modSap k f).fuseDue = c.fuseDue := rfl
@[simp] theorem modSap_resp (k : Nat) (f : Sap → Sap) : (c.modSap k f).resp = c.resp := rfl
@[simp] theorem modSap_drawn (k : Nat) (f : Sap → Sap) : (c.modSap k f).drawn = c.drawn := rfl
@[simp] theorem modSap_mem (k : Nat) (f : Sap → Sap) : (c.modSap k f).mem = c.mem := rfl
@[simp] theorem modSap_lost (k : Nat) (f : Sap → Sap) : (c.modSap k f).lost = c.lost := rfl
@[simp] theorem modSap_ecc (k : Nat) (f : Sap → Sap) : (c.modSap k f).ecc = c.ecc := rfl
@[simp] theorem modSap_tags (k : Nat) (f : Sap → Sap) : (c.modSap k f).tags = c.tags := rfl
@[simp] theorem modSap_ddr (k : Nat) (f : Sap → Sap) : (c.modSap k f).ddr = c.ddr := rfl
@[simp] theorem modSap_ddrLost (k : Nat) (f : Sap → Sap) : (c.modSap k f).ddrLost = c.ddrLost := rfl
@[simp] theorem modSap_image (k : Nat) (f : Sap → Sap) : (c.modSap k f).image = c.image := rfl
@[simp] theorem modSap_tick (k : Nat) (f : Sap → Sap) : (c.modSap k f).tick = c.tick := rfl
@[simp] theorem modSap_cores (k : Nat) (f : Sap → Sap) : (c.modSap k f).cores = c.cores := rfl
@[simp] theorem modSap_aux (k : Nat) (f : Sap → Sap) : (c.modSap k f).aux = c.aux := rfl
@[simp] theorem modSap_shadow (k : Nat) (f : Sap → Sap) : (c.modSap k f).shadow = c.shadow := rfl
@[simp] theorem modSap_strm (k : Nat) (f : Sap → Sap) : (c.modSap k f).strm = c.strm := rfl
@[simp] theorem modSap_pan (k : Nat) (f : Sap → Sap) : (c.modSap k f).pan = c.pan := rfl
@[simp] theorem modSap_spare (k : Nat) (f : Sap → Sap) : (c.modSap k f).spare = c.spare := rfl
@[simp] theorem modSap_mbWake (k : Nat) (f : Sap → Sap) : (c.modSap k f).mbWake = c.mbWake := rfl
@[simp] theorem modSap_tlk (k : Nat) (f : Sap → Sap) : (c.modSap k f).tlk = c.tlk := rfl
@[simp] theorem modSap_asrc (k : Nat) (f : Sap → Sap) : (c.modSap k f).asrc = c.asrc := rfl
@[simp] theorem modSap_rtr (k : Nat) (f : Sap → Sap) : (c.modSap k f).rtr = c.rtr := rfl
@[simp] theorem modSap_clk (k : Nat) (f : Sap → Sap) : (c.modSap k f).clk = c.clk := rfl
@[simp] theorem modSap_sense (k : Nat) (f : Sap → Sap) : (c.modSap k f).sense = c.sense := rfl
@[simp] theorem modSap_act (k : Nat) (f : Sap → Sap) : (c.modSap k f).act = c.act := rfl
@[simp] theorem modSap_usb (k : Nat) (f : Sap → Sap) : (c.modSap k f).usb = c.usb := rfl
@[simp] theorem modSap_midi (k : Nat) (f : Sap → Sap) : (c.modSap k f).midi = c.midi := rfl
@[simp] theorem modSap_flash (k : Nat) (f : Sap → Sap) : (c.modSap k f).flash = c.flash := rfl
@[simp] theorem modSap_sec (k : Nat) (f : Sap → Sap) : (c.modSap k f).sec = c.sec := rfl
@[simp] theorem modSap_pmu (k : Nat) (f : Sap → Sap) : (c.modSap k f).pmu = c.pmu := rfl
@[simp] theorem modSap_irq (k : Nat) (f : Sap → Sap) : (c.modSap k f).irq = c.irq := rfl
@[simp] theorem modSap_ndo (k : Nat) (f : Sap → Sap) : (c.modSap k f).ndo = c.ndo := rfl
@[simp] theorem modSap_scrub (k : Nat) (f : Sap → Sap) : (c.modSap k f).scrub = c.scrub := rfl
@[simp] theorem modSap_reg (k : Nat) (f : Sap → Sap) (j : Nat) : (c.modSap k f).reg j = c.reg j := rfl
@[simp] theorem modSap_fld (k : Nat) (f : Sap → Sap) (g : Field) : (c.modSap k f).fld g = c.fld g := rfl
@[simp] theorem modSap_bit (k : Nat) (f : Sap → Sap) (g : Field) : (c.modSap k f).bit g = c.bit g := rfl
@[simp] theorem modSap_core (k : Nat) (f : Sap → Sap) (j : Nat) : (c.modSap k f).core j = c.core j := rfl
@[simp] theorem modSap_auxOf (k : Nat) (f : Sap → Sap) (j : Nat) : (c.modSap k f).auxOf j = c.auxOf j := rfl

/-! ### `setAsrc` -/

@[simp] theorem setAsrc_regs (k : Nat) (v : AsrcRamp) : (c.setAsrc k v).regs = c.regs := rfl
@[simp] theorem setAsrc_fuseDue (k : Nat) (v : AsrcRamp) : (c.setAsrc k v).fuseDue = c.fuseDue := rfl
@[simp] theorem setAsrc_resp (k : Nat) (v : AsrcRamp) : (c.setAsrc k v).resp = c.resp := rfl
@[simp] theorem setAsrc_drawn (k : Nat) (v : AsrcRamp) : (c.setAsrc k v).drawn = c.drawn := rfl
@[simp] theorem setAsrc_mem (k : Nat) (v : AsrcRamp) : (c.setAsrc k v).mem = c.mem := rfl
@[simp] theorem setAsrc_lost (k : Nat) (v : AsrcRamp) : (c.setAsrc k v).lost = c.lost := rfl
@[simp] theorem setAsrc_ecc (k : Nat) (v : AsrcRamp) : (c.setAsrc k v).ecc = c.ecc := rfl
@[simp] theorem setAsrc_tags (k : Nat) (v : AsrcRamp) : (c.setAsrc k v).tags = c.tags := rfl
@[simp] theorem setAsrc_ddr (k : Nat) (v : AsrcRamp) : (c.setAsrc k v).ddr = c.ddr := rfl
@[simp] theorem setAsrc_ddrLost (k : Nat) (v : AsrcRamp) : (c.setAsrc k v).ddrLost = c.ddrLost := rfl
@[simp] theorem setAsrc_image (k : Nat) (v : AsrcRamp) : (c.setAsrc k v).image = c.image := rfl
@[simp] theorem setAsrc_tick (k : Nat) (v : AsrcRamp) : (c.setAsrc k v).tick = c.tick := rfl
@[simp] theorem setAsrc_cores (k : Nat) (v : AsrcRamp) : (c.setAsrc k v).cores = c.cores := rfl
@[simp] theorem setAsrc_aux (k : Nat) (v : AsrcRamp) : (c.setAsrc k v).aux = c.aux := rfl
@[simp] theorem setAsrc_shadow (k : Nat) (v : AsrcRamp) : (c.setAsrc k v).shadow = c.shadow := rfl
@[simp] theorem setAsrc_strm (k : Nat) (v : AsrcRamp) : (c.setAsrc k v).strm = c.strm := rfl
@[simp] theorem setAsrc_pan (k : Nat) (v : AsrcRamp) : (c.setAsrc k v).pan = c.pan := rfl
@[simp] theorem setAsrc_spare (k : Nat) (v : AsrcRamp) : (c.setAsrc k v).spare = c.spare := rfl
@[simp] theorem setAsrc_mbWake (k : Nat) (v : AsrcRamp) : (c.setAsrc k v).mbWake = c.mbWake := rfl
@[simp] theorem setAsrc_tlk (k : Nat) (v : AsrcRamp) : (c.setAsrc k v).tlk = c.tlk := rfl
@[simp] theorem setAsrc_sap (k : Nat) (v : AsrcRamp) : (c.setAsrc k v).sap = c.sap := rfl
@[simp] theorem setAsrc_rtr (k : Nat) (v : AsrcRamp) : (c.setAsrc k v).rtr = c.rtr := rfl
@[simp] theorem setAsrc_clk (k : Nat) (v : AsrcRamp) : (c.setAsrc k v).clk = c.clk := rfl
@[simp] theorem setAsrc_sense (k : Nat) (v : AsrcRamp) : (c.setAsrc k v).sense = c.sense := rfl
@[simp] theorem setAsrc_act (k : Nat) (v : AsrcRamp) : (c.setAsrc k v).act = c.act := rfl
@[simp] theorem setAsrc_usb (k : Nat) (v : AsrcRamp) : (c.setAsrc k v).usb = c.usb := rfl
@[simp] theorem setAsrc_midi (k : Nat) (v : AsrcRamp) : (c.setAsrc k v).midi = c.midi := rfl
@[simp] theorem setAsrc_flash (k : Nat) (v : AsrcRamp) : (c.setAsrc k v).flash = c.flash := rfl
@[simp] theorem setAsrc_sec (k : Nat) (v : AsrcRamp) : (c.setAsrc k v).sec = c.sec := rfl
@[simp] theorem setAsrc_pmu (k : Nat) (v : AsrcRamp) : (c.setAsrc k v).pmu = c.pmu := rfl
@[simp] theorem setAsrc_irq (k : Nat) (v : AsrcRamp) : (c.setAsrc k v).irq = c.irq := rfl
@[simp] theorem setAsrc_ndo (k : Nat) (v : AsrcRamp) : (c.setAsrc k v).ndo = c.ndo := rfl
@[simp] theorem setAsrc_scrub (k : Nat) (v : AsrcRamp) : (c.setAsrc k v).scrub = c.scrub := rfl
@[simp] theorem setAsrc_reg (k : Nat) (v : AsrcRamp) (j : Nat) : (c.setAsrc k v).reg j = c.reg j := rfl
@[simp] theorem setAsrc_fld (k : Nat) (v : AsrcRamp) (g : Field) : (c.setAsrc k v).fld g = c.fld g := rfl
@[simp] theorem setAsrc_bit (k : Nat) (v : AsrcRamp) (g : Field) : (c.setAsrc k v).bit g = c.bit g := rfl
@[simp] theorem setAsrc_core (k : Nat) (v : AsrcRamp) (j : Nat) : (c.setAsrc k v).core j = c.core j := rfl
@[simp] theorem setAsrc_auxOf (k : Nat) (v : AsrcRamp) (j : Nat) : (c.setAsrc k v).auxOf j = c.auxOf j := rfl

/-! ### `modSense` -/

@[simp] theorem modSense_sense (f : Sense → Sense) : (c.modSense f).sense = f c.sense := rfl
@[simp] theorem modSense_regs (f : Sense → Sense) : (c.modSense f).regs = c.regs := rfl
@[simp] theorem modSense_fuseDue (f : Sense → Sense) : (c.modSense f).fuseDue = c.fuseDue := rfl
@[simp] theorem modSense_resp (f : Sense → Sense) : (c.modSense f).resp = c.resp := rfl
@[simp] theorem modSense_drawn (f : Sense → Sense) : (c.modSense f).drawn = c.drawn := rfl
@[simp] theorem modSense_mem (f : Sense → Sense) : (c.modSense f).mem = c.mem := rfl
@[simp] theorem modSense_lost (f : Sense → Sense) : (c.modSense f).lost = c.lost := rfl
@[simp] theorem modSense_ecc (f : Sense → Sense) : (c.modSense f).ecc = c.ecc := rfl
@[simp] theorem modSense_tags (f : Sense → Sense) : (c.modSense f).tags = c.tags := rfl
@[simp] theorem modSense_ddr (f : Sense → Sense) : (c.modSense f).ddr = c.ddr := rfl
@[simp] theorem modSense_ddrLost (f : Sense → Sense) : (c.modSense f).ddrLost = c.ddrLost := rfl
@[simp] theorem modSense_image (f : Sense → Sense) : (c.modSense f).image = c.image := rfl
@[simp] theorem modSense_tick (f : Sense → Sense) : (c.modSense f).tick = c.tick := rfl
@[simp] theorem modSense_cores (f : Sense → Sense) : (c.modSense f).cores = c.cores := rfl
@[simp] theorem modSense_aux (f : Sense → Sense) : (c.modSense f).aux = c.aux := rfl
@[simp] theorem modSense_shadow (f : Sense → Sense) : (c.modSense f).shadow = c.shadow := rfl
@[simp] theorem modSense_strm (f : Sense → Sense) : (c.modSense f).strm = c.strm := rfl
@[simp] theorem modSense_pan (f : Sense → Sense) : (c.modSense f).pan = c.pan := rfl
@[simp] theorem modSense_spare (f : Sense → Sense) : (c.modSense f).spare = c.spare := rfl
@[simp] theorem modSense_mbWake (f : Sense → Sense) : (c.modSense f).mbWake = c.mbWake := rfl
@[simp] theorem modSense_tlk (f : Sense → Sense) : (c.modSense f).tlk = c.tlk := rfl
@[simp] theorem modSense_sap (f : Sense → Sense) : (c.modSense f).sap = c.sap := rfl
@[simp] theorem modSense_asrc (f : Sense → Sense) : (c.modSense f).asrc = c.asrc := rfl
@[simp] theorem modSense_rtr (f : Sense → Sense) : (c.modSense f).rtr = c.rtr := rfl
@[simp] theorem modSense_clk (f : Sense → Sense) : (c.modSense f).clk = c.clk := rfl
@[simp] theorem modSense_act (f : Sense → Sense) : (c.modSense f).act = c.act := rfl
@[simp] theorem modSense_usb (f : Sense → Sense) : (c.modSense f).usb = c.usb := rfl
@[simp] theorem modSense_midi (f : Sense → Sense) : (c.modSense f).midi = c.midi := rfl
@[simp] theorem modSense_flash (f : Sense → Sense) : (c.modSense f).flash = c.flash := rfl
@[simp] theorem modSense_sec (f : Sense → Sense) : (c.modSense f).sec = c.sec := rfl
@[simp] theorem modSense_pmu (f : Sense → Sense) : (c.modSense f).pmu = c.pmu := rfl
@[simp] theorem modSense_irq (f : Sense → Sense) : (c.modSense f).irq = c.irq := rfl
@[simp] theorem modSense_ndo (f : Sense → Sense) : (c.modSense f).ndo = c.ndo := rfl
@[simp] theorem modSense_scrub (f : Sense → Sense) : (c.modSense f).scrub = c.scrub := rfl
@[simp] theorem modSense_reg (f : Sense → Sense) (j : Nat) : (c.modSense f).reg j = c.reg j := rfl
@[simp] theorem modSense_fld (f : Sense → Sense) (g : Field) : (c.modSense f).fld g = c.fld g := rfl
@[simp] theorem modSense_bit (f : Sense → Sense) (g : Field) : (c.modSense f).bit g = c.bit g := rfl
@[simp] theorem modSense_core (f : Sense → Sense) (j : Nat) : (c.modSense f).core j = c.core j := rfl
@[simp] theorem modSense_auxOf (f : Sense → Sense) (j : Nat) : (c.modSense f).auxOf j = c.auxOf j := rfl

/-! ### `modAct` -/

@[simp] theorem modAct_regs (k : Nat) (f : ActCh → ActCh) : (c.modAct k f).regs = c.regs := rfl
@[simp] theorem modAct_fuseDue (k : Nat) (f : ActCh → ActCh) : (c.modAct k f).fuseDue = c.fuseDue := rfl
@[simp] theorem modAct_resp (k : Nat) (f : ActCh → ActCh) : (c.modAct k f).resp = c.resp := rfl
@[simp] theorem modAct_drawn (k : Nat) (f : ActCh → ActCh) : (c.modAct k f).drawn = c.drawn := rfl
@[simp] theorem modAct_mem (k : Nat) (f : ActCh → ActCh) : (c.modAct k f).mem = c.mem := rfl
@[simp] theorem modAct_lost (k : Nat) (f : ActCh → ActCh) : (c.modAct k f).lost = c.lost := rfl
@[simp] theorem modAct_ecc (k : Nat) (f : ActCh → ActCh) : (c.modAct k f).ecc = c.ecc := rfl
@[simp] theorem modAct_tags (k : Nat) (f : ActCh → ActCh) : (c.modAct k f).tags = c.tags := rfl
@[simp] theorem modAct_ddr (k : Nat) (f : ActCh → ActCh) : (c.modAct k f).ddr = c.ddr := rfl
@[simp] theorem modAct_ddrLost (k : Nat) (f : ActCh → ActCh) : (c.modAct k f).ddrLost = c.ddrLost := rfl
@[simp] theorem modAct_image (k : Nat) (f : ActCh → ActCh) : (c.modAct k f).image = c.image := rfl
@[simp] theorem modAct_tick (k : Nat) (f : ActCh → ActCh) : (c.modAct k f).tick = c.tick := rfl
@[simp] theorem modAct_cores (k : Nat) (f : ActCh → ActCh) : (c.modAct k f).cores = c.cores := rfl
@[simp] theorem modAct_aux (k : Nat) (f : ActCh → ActCh) : (c.modAct k f).aux = c.aux := rfl
@[simp] theorem modAct_shadow (k : Nat) (f : ActCh → ActCh) : (c.modAct k f).shadow = c.shadow := rfl
@[simp] theorem modAct_strm (k : Nat) (f : ActCh → ActCh) : (c.modAct k f).strm = c.strm := rfl
@[simp] theorem modAct_pan (k : Nat) (f : ActCh → ActCh) : (c.modAct k f).pan = c.pan := rfl
@[simp] theorem modAct_spare (k : Nat) (f : ActCh → ActCh) : (c.modAct k f).spare = c.spare := rfl
@[simp] theorem modAct_mbWake (k : Nat) (f : ActCh → ActCh) : (c.modAct k f).mbWake = c.mbWake := rfl
@[simp] theorem modAct_tlk (k : Nat) (f : ActCh → ActCh) : (c.modAct k f).tlk = c.tlk := rfl
@[simp] theorem modAct_sap (k : Nat) (f : ActCh → ActCh) : (c.modAct k f).sap = c.sap := rfl
@[simp] theorem modAct_asrc (k : Nat) (f : ActCh → ActCh) : (c.modAct k f).asrc = c.asrc := rfl
@[simp] theorem modAct_rtr (k : Nat) (f : ActCh → ActCh) : (c.modAct k f).rtr = c.rtr := rfl
@[simp] theorem modAct_clk (k : Nat) (f : ActCh → ActCh) : (c.modAct k f).clk = c.clk := rfl
@[simp] theorem modAct_sense (k : Nat) (f : ActCh → ActCh) : (c.modAct k f).sense = c.sense := rfl
@[simp] theorem modAct_usb (k : Nat) (f : ActCh → ActCh) : (c.modAct k f).usb = c.usb := rfl
@[simp] theorem modAct_midi (k : Nat) (f : ActCh → ActCh) : (c.modAct k f).midi = c.midi := rfl
@[simp] theorem modAct_flash (k : Nat) (f : ActCh → ActCh) : (c.modAct k f).flash = c.flash := rfl
@[simp] theorem modAct_sec (k : Nat) (f : ActCh → ActCh) : (c.modAct k f).sec = c.sec := rfl
@[simp] theorem modAct_pmu (k : Nat) (f : ActCh → ActCh) : (c.modAct k f).pmu = c.pmu := rfl
@[simp] theorem modAct_irq (k : Nat) (f : ActCh → ActCh) : (c.modAct k f).irq = c.irq := rfl
@[simp] theorem modAct_ndo (k : Nat) (f : ActCh → ActCh) : (c.modAct k f).ndo = c.ndo := rfl
@[simp] theorem modAct_scrub (k : Nat) (f : ActCh → ActCh) : (c.modAct k f).scrub = c.scrub := rfl
@[simp] theorem modAct_reg (k : Nat) (f : ActCh → ActCh) (j : Nat) : (c.modAct k f).reg j = c.reg j := rfl
@[simp] theorem modAct_fld (k : Nat) (f : ActCh → ActCh) (g : Field) : (c.modAct k f).fld g = c.fld g := rfl
@[simp] theorem modAct_bit (k : Nat) (f : ActCh → ActCh) (g : Field) : (c.modAct k f).bit g = c.bit g := rfl
@[simp] theorem modAct_core (k : Nat) (f : ActCh → ActCh) (j : Nat) : (c.modAct k f).core j = c.core j := rfl
@[simp] theorem modAct_auxOf (k : Nat) (f : ActCh → ActCh) (j : Nat) : (c.modAct k f).auxOf j = c.auxOf j := rfl

/-! ### `modSpare` -/

@[simp] theorem modSpare_spare (f : Spare → Spare) : (c.modSpare f).spare = f c.spare := rfl
@[simp] theorem modSpare_regs (f : Spare → Spare) : (c.modSpare f).regs = c.regs := rfl
@[simp] theorem modSpare_fuseDue (f : Spare → Spare) : (c.modSpare f).fuseDue = c.fuseDue := rfl
@[simp] theorem modSpare_resp (f : Spare → Spare) : (c.modSpare f).resp = c.resp := rfl
@[simp] theorem modSpare_drawn (f : Spare → Spare) : (c.modSpare f).drawn = c.drawn := rfl
@[simp] theorem modSpare_mem (f : Spare → Spare) : (c.modSpare f).mem = c.mem := rfl
@[simp] theorem modSpare_lost (f : Spare → Spare) : (c.modSpare f).lost = c.lost := rfl
@[simp] theorem modSpare_ecc (f : Spare → Spare) : (c.modSpare f).ecc = c.ecc := rfl
@[simp] theorem modSpare_tags (f : Spare → Spare) : (c.modSpare f).tags = c.tags := rfl
@[simp] theorem modSpare_ddr (f : Spare → Spare) : (c.modSpare f).ddr = c.ddr := rfl
@[simp] theorem modSpare_ddrLost (f : Spare → Spare) : (c.modSpare f).ddrLost = c.ddrLost := rfl
@[simp] theorem modSpare_image (f : Spare → Spare) : (c.modSpare f).image = c.image := rfl
@[simp] theorem modSpare_tick (f : Spare → Spare) : (c.modSpare f).tick = c.tick := rfl
@[simp] theorem modSpare_cores (f : Spare → Spare) : (c.modSpare f).cores = c.cores := rfl
@[simp] theorem modSpare_aux (f : Spare → Spare) : (c.modSpare f).aux = c.aux := rfl
@[simp] theorem modSpare_shadow (f : Spare → Spare) : (c.modSpare f).shadow = c.shadow := rfl
@[simp] theorem modSpare_strm (f : Spare → Spare) : (c.modSpare f).strm = c.strm := rfl
@[simp] theorem modSpare_pan (f : Spare → Spare) : (c.modSpare f).pan = c.pan := rfl
@[simp] theorem modSpare_mbWake (f : Spare → Spare) : (c.modSpare f).mbWake = c.mbWake := rfl
@[simp] theorem modSpare_tlk (f : Spare → Spare) : (c.modSpare f).tlk = c.tlk := rfl
@[simp] theorem modSpare_sap (f : Spare → Spare) : (c.modSpare f).sap = c.sap := rfl
@[simp] theorem modSpare_asrc (f : Spare → Spare) : (c.modSpare f).asrc = c.asrc := rfl
@[simp] theorem modSpare_rtr (f : Spare → Spare) : (c.modSpare f).rtr = c.rtr := rfl
@[simp] theorem modSpare_clk (f : Spare → Spare) : (c.modSpare f).clk = c.clk := rfl
@[simp] theorem modSpare_sense (f : Spare → Spare) : (c.modSpare f).sense = c.sense := rfl
@[simp] theorem modSpare_act (f : Spare → Spare) : (c.modSpare f).act = c.act := rfl
@[simp] theorem modSpare_usb (f : Spare → Spare) : (c.modSpare f).usb = c.usb := rfl
@[simp] theorem modSpare_midi (f : Spare → Spare) : (c.modSpare f).midi = c.midi := rfl
@[simp] theorem modSpare_flash (f : Spare → Spare) : (c.modSpare f).flash = c.flash := rfl
@[simp] theorem modSpare_sec (f : Spare → Spare) : (c.modSpare f).sec = c.sec := rfl
@[simp] theorem modSpare_pmu (f : Spare → Spare) : (c.modSpare f).pmu = c.pmu := rfl
@[simp] theorem modSpare_irq (f : Spare → Spare) : (c.modSpare f).irq = c.irq := rfl
@[simp] theorem modSpare_ndo (f : Spare → Spare) : (c.modSpare f).ndo = c.ndo := rfl
@[simp] theorem modSpare_scrub (f : Spare → Spare) : (c.modSpare f).scrub = c.scrub := rfl
@[simp] theorem modSpare_reg (f : Spare → Spare) (j : Nat) : (c.modSpare f).reg j = c.reg j := rfl
@[simp] theorem modSpare_fld (f : Spare → Spare) (g : Field) : (c.modSpare f).fld g = c.fld g := rfl
@[simp] theorem modSpare_bit (f : Spare → Spare) (g : Field) : (c.modSpare f).bit g = c.bit g := rfl
@[simp] theorem modSpare_core (f : Spare → Spare) (j : Nat) : (c.modSpare f).core j = c.core j := rfl
@[simp] theorem modSpare_auxOf (f : Spare → Spare) (j : Nat) : (c.modSpare f).auxOf j = c.auxOf j := rfl

/-! ### `setStream` -/

@[simp] theorem setStream_regs (k : Nat) (v : Stream) : (c.setStream k v).regs = c.regs := rfl
@[simp] theorem setStream_fuseDue (k : Nat) (v : Stream) : (c.setStream k v).fuseDue = c.fuseDue := rfl
@[simp] theorem setStream_resp (k : Nat) (v : Stream) : (c.setStream k v).resp = c.resp := rfl
@[simp] theorem setStream_drawn (k : Nat) (v : Stream) : (c.setStream k v).drawn = c.drawn := rfl
@[simp] theorem setStream_mem (k : Nat) (v : Stream) : (c.setStream k v).mem = c.mem := rfl
@[simp] theorem setStream_lost (k : Nat) (v : Stream) : (c.setStream k v).lost = c.lost := rfl
@[simp] theorem setStream_ecc (k : Nat) (v : Stream) : (c.setStream k v).ecc = c.ecc := rfl
@[simp] theorem setStream_tags (k : Nat) (v : Stream) : (c.setStream k v).tags = c.tags := rfl
@[simp] theorem setStream_ddr (k : Nat) (v : Stream) : (c.setStream k v).ddr = c.ddr := rfl
@[simp] theorem setStream_ddrLost (k : Nat) (v : Stream) : (c.setStream k v).ddrLost = c.ddrLost := rfl
@[simp] theorem setStream_image (k : Nat) (v : Stream) : (c.setStream k v).image = c.image := rfl
@[simp] theorem setStream_tick (k : Nat) (v : Stream) : (c.setStream k v).tick = c.tick := rfl
@[simp] theorem setStream_cores (k : Nat) (v : Stream) : (c.setStream k v).cores = c.cores := rfl
@[simp] theorem setStream_aux (k : Nat) (v : Stream) : (c.setStream k v).aux = c.aux := rfl
@[simp] theorem setStream_shadow (k : Nat) (v : Stream) : (c.setStream k v).shadow = c.shadow := rfl
@[simp] theorem setStream_pan (k : Nat) (v : Stream) : (c.setStream k v).pan = c.pan := rfl
@[simp] theorem setStream_spare (k : Nat) (v : Stream) : (c.setStream k v).spare = c.spare := rfl
@[simp] theorem setStream_mbWake (k : Nat) (v : Stream) : (c.setStream k v).mbWake = c.mbWake := rfl
@[simp] theorem setStream_tlk (k : Nat) (v : Stream) : (c.setStream k v).tlk = c.tlk := rfl
@[simp] theorem setStream_sap (k : Nat) (v : Stream) : (c.setStream k v).sap = c.sap := rfl
@[simp] theorem setStream_asrc (k : Nat) (v : Stream) : (c.setStream k v).asrc = c.asrc := rfl
@[simp] theorem setStream_rtr (k : Nat) (v : Stream) : (c.setStream k v).rtr = c.rtr := rfl
@[simp] theorem setStream_clk (k : Nat) (v : Stream) : (c.setStream k v).clk = c.clk := rfl
@[simp] theorem setStream_sense (k : Nat) (v : Stream) : (c.setStream k v).sense = c.sense := rfl
@[simp] theorem setStream_act (k : Nat) (v : Stream) : (c.setStream k v).act = c.act := rfl
@[simp] theorem setStream_usb (k : Nat) (v : Stream) : (c.setStream k v).usb = c.usb := rfl
@[simp] theorem setStream_midi (k : Nat) (v : Stream) : (c.setStream k v).midi = c.midi := rfl
@[simp] theorem setStream_flash (k : Nat) (v : Stream) : (c.setStream k v).flash = c.flash := rfl
@[simp] theorem setStream_sec (k : Nat) (v : Stream) : (c.setStream k v).sec = c.sec := rfl
@[simp] theorem setStream_pmu (k : Nat) (v : Stream) : (c.setStream k v).pmu = c.pmu := rfl
@[simp] theorem setStream_irq (k : Nat) (v : Stream) : (c.setStream k v).irq = c.irq := rfl
@[simp] theorem setStream_ndo (k : Nat) (v : Stream) : (c.setStream k v).ndo = c.ndo := rfl
@[simp] theorem setStream_scrub (k : Nat) (v : Stream) : (c.setStream k v).scrub = c.scrub := rfl
@[simp] theorem setStream_reg (k : Nat) (v : Stream) (j : Nat) : (c.setStream k v).reg j = c.reg j := rfl
@[simp] theorem setStream_fld (k : Nat) (v : Stream) (g : Field) : (c.setStream k v).fld g = c.fld g := rfl
@[simp] theorem setStream_bit (k : Nat) (v : Stream) (g : Field) : (c.setStream k v).bit g = c.bit g := rfl
@[simp] theorem setStream_core (k : Nat) (v : Stream) (j : Nat) : (c.setStream k v).core j = c.core j := rfl
@[simp] theorem setStream_auxOf (k : Nat) (v : Stream) (j : Nat) : (c.setStream k v).auxOf j = c.auxOf j := rfl

/-! ### `modUsb` -/

@[simp] theorem modUsb_usb (f : Usb → Usb) : (c.modUsb f).usb = f c.usb := rfl
@[simp] theorem modUsb_regs (f : Usb → Usb) : (c.modUsb f).regs = c.regs := rfl
@[simp] theorem modUsb_fuseDue (f : Usb → Usb) : (c.modUsb f).fuseDue = c.fuseDue := rfl
@[simp] theorem modUsb_resp (f : Usb → Usb) : (c.modUsb f).resp = c.resp := rfl
@[simp] theorem modUsb_drawn (f : Usb → Usb) : (c.modUsb f).drawn = c.drawn := rfl
@[simp] theorem modUsb_mem (f : Usb → Usb) : (c.modUsb f).mem = c.mem := rfl
@[simp] theorem modUsb_lost (f : Usb → Usb) : (c.modUsb f).lost = c.lost := rfl
@[simp] theorem modUsb_ecc (f : Usb → Usb) : (c.modUsb f).ecc = c.ecc := rfl
@[simp] theorem modUsb_tags (f : Usb → Usb) : (c.modUsb f).tags = c.tags := rfl
@[simp] theorem modUsb_ddr (f : Usb → Usb) : (c.modUsb f).ddr = c.ddr := rfl
@[simp] theorem modUsb_ddrLost (f : Usb → Usb) : (c.modUsb f).ddrLost = c.ddrLost := rfl
@[simp] theorem modUsb_image (f : Usb → Usb) : (c.modUsb f).image = c.image := rfl
@[simp] theorem modUsb_tick (f : Usb → Usb) : (c.modUsb f).tick = c.tick := rfl
@[simp] theorem modUsb_cores (f : Usb → Usb) : (c.modUsb f).cores = c.cores := rfl
@[simp] theorem modUsb_aux (f : Usb → Usb) : (c.modUsb f).aux = c.aux := rfl
@[simp] theorem modUsb_shadow (f : Usb → Usb) : (c.modUsb f).shadow = c.shadow := rfl
@[simp] theorem modUsb_strm (f : Usb → Usb) : (c.modUsb f).strm = c.strm := rfl
@[simp] theorem modUsb_pan (f : Usb → Usb) : (c.modUsb f).pan = c.pan := rfl
@[simp] theorem modUsb_spare (f : Usb → Usb) : (c.modUsb f).spare = c.spare := rfl
@[simp] theorem modUsb_mbWake (f : Usb → Usb) : (c.modUsb f).mbWake = c.mbWake := rfl
@[simp] theorem modUsb_tlk (f : Usb → Usb) : (c.modUsb f).tlk = c.tlk := rfl
@[simp] theorem modUsb_sap (f : Usb → Usb) : (c.modUsb f).sap = c.sap := rfl
@[simp] theorem modUsb_asrc (f : Usb → Usb) : (c.modUsb f).asrc = c.asrc := rfl
@[simp] theorem modUsb_rtr (f : Usb → Usb) : (c.modUsb f).rtr = c.rtr := rfl
@[simp] theorem modUsb_clk (f : Usb → Usb) : (c.modUsb f).clk = c.clk := rfl
@[simp] theorem modUsb_sense (f : Usb → Usb) : (c.modUsb f).sense = c.sense := rfl
@[simp] theorem modUsb_act (f : Usb → Usb) : (c.modUsb f).act = c.act := rfl
@[simp] theorem modUsb_midi (f : Usb → Usb) : (c.modUsb f).midi = c.midi := rfl
@[simp] theorem modUsb_flash (f : Usb → Usb) : (c.modUsb f).flash = c.flash := rfl
@[simp] theorem modUsb_sec (f : Usb → Usb) : (c.modUsb f).sec = c.sec := rfl
@[simp] theorem modUsb_pmu (f : Usb → Usb) : (c.modUsb f).pmu = c.pmu := rfl
@[simp] theorem modUsb_irq (f : Usb → Usb) : (c.modUsb f).irq = c.irq := rfl
@[simp] theorem modUsb_ndo (f : Usb → Usb) : (c.modUsb f).ndo = c.ndo := rfl
@[simp] theorem modUsb_scrub (f : Usb → Usb) : (c.modUsb f).scrub = c.scrub := rfl
@[simp] theorem modUsb_reg (f : Usb → Usb) (j : Nat) : (c.modUsb f).reg j = c.reg j := rfl
@[simp] theorem modUsb_fld (f : Usb → Usb) (g : Field) : (c.modUsb f).fld g = c.fld g := rfl
@[simp] theorem modUsb_bit (f : Usb → Usb) (g : Field) : (c.modUsb f).bit g = c.bit g := rfl
@[simp] theorem modUsb_core (f : Usb → Usb) (j : Nat) : (c.modUsb f).core j = c.core j := rfl
@[simp] theorem modUsb_auxOf (f : Usb → Usb) (j : Nat) : (c.modUsb f).auxOf j = c.auxOf j := rfl

end Chip

end Sys2Proof.Machine
end

