-- ==== Sys2Proof/WellFormed.lean ====
section
/-! DEFINITION. Which operands a command can have, beyond what their types say: the lengths of what a frame, a packet or a
transaction carries. -/

namespace Sys2Proof

/-- A ledger entry's fields are an address of the map, and a tick of 64 bits (R210). -/
def LdgEntry.wf (e : LdgEntry) : Bool := decide (e.addr < 2 ^ 32) && decide (e.stamp < 2 ^ 64)

/-- A tick frame: at most 96 entries apply in one tick, and at most 352 words are forwarded: the channels of the serial
ports, USB and ASRC (R199, R213). -/
def TFrame.wf (f : TFrame) : Bool := decide (f.entries.length ≤ 96) && decide (f.fwd.length ≤ 352) && f.entries.all LdgEntry.wf

/-- A negotiation frame: the image digest has 32 bytes, a minor 8 bits (R203). -/
def NegFrame.wf (f : NegFrame) : Bool :=
  f.image.length == 32 && f.minor1.all (decide <| · < 256) && f.minor2.all (decide <| · < 256)

/-- One item of a segment: it names things that exist. -/
def SegItem.wf (i : SegItem) : Bool :=
  match i with
  | .word a _ _ | .reg a _ => decide (a < 2 ^ 32)
  | .ext a _ => decide (a < 2 ^ 34)
  | .file e off _ => decide (e < 10) && decide (off < 0x2000)
  | .stc _ | .epoch _ | .fade .. | .mirrorOverflow => true
  | .gap t => decide (t < 2 ^ 64)
  | .stream k d _ _ _ => decide (k < 4096) && d.length == 8
  | .glide k .. => decide (k < 1024)
  | .record _ ins sns es => ins.length == 640 && sns.length == 1024 && decide (es.length ≤ 96) && es.all LdgEntry.wf
  | .image e off _ => decide (e < 10) && decide (off < 256)
  | .swap k .. => decide (k < 4)
  | .route k .. => decide (k < 4096)
  | .prot code .. => decide (code < 256)
  | .post m _ data => (m == 14 || m == 15) && data.length == 16
  | .ack m rc => (m == 12 || m == 13) && decide (rc < 2 ^ 16)
  | .refused m code => (m == 12 || m == 13) && (code == 2 || code == 3)

/-- An image's part for one engine (R373): it fits the engine's memories. -/
def ArsicEng.wf (e : ArsicEng) : Bool :=
  decide (e.eng < 10) && decide (e.prog.length ≤ 65536) && decide (e.front.length ≤ 32768) &&
    decide (e.pannier.length ≤ 32768) && decide (e.segs.length ≤ 16) && e.segs.all (·.length == 4)

/-- A command is well formed. -/
def Instr.wf (i : Instr) : Bool :=
  match i with
  | .tickFrameReceive f _ _ => f.wf
  | .negotiationFrame f _ => f.wf
  | .segmentReceive _ items _ => items.all SegItem.wf
  | .expressGroupReceive _ _ ws _ _ => ws.length == 16
  | .sapFrameReceive _ ws _ _ => decide (ws.length ≤ 32)
  | .sapFrameTransmit _ lane => decide (lane.length ≤ 16)
  | .i2cRead _ _ _ n => decide (n ≤ 4096)
  | .usbOutPacket bytes => decide (bytes.length ≤ 1024)
  | .usbMidiOutPacket bytes => decide (bytes.length ≤ 512) && bytes.length % 4 == 0
  | .programLoad _ (some l) => l.all ArsicEng.wf
  | _ => true

end Sys2Proof
end

