-- ==== Sys2Proof/Tests/Slice0.lean ====
section
/-! SUPPORT. Tests: the operand checks refuse ill-formed commands, words of the spec decode to what they stand for, and for
every claim that has hypotheses a concrete state and operands that meet all of them together, clause by clause. -/

open Sys2Proof Sys2Proof.Machine

namespace Sys2Proof.Tests

set_option Elab.async false

/-! ### Ill-formed commands are refused by the check -/

/-- A tick frame with nothing in it. -/
def frame0 : TFrame :=
  ⟨0, 0, false, false, false, false, 0, 0, 0, false, [], []⟩

/-- A negotiation frame of the shortest kind. -/
def neg0 : NegFrame := ⟨0, some 0, none, 0, false, false, false, List.replicate 32 0, 0, 0, 0, 0⟩

theorem test_wf_frame : (Instr.tickFrameReceive frame0 false false).wf = true := by decide
theorem test_wf_frame_entries :
    (Instr.tickFrameReceive { frame0 with entries := List.replicate 97 ⟨0, 0, 0, 0⟩ } false false).wf = false := by
  decide +kernel
theorem test_wf_frame_forwarded :
    (Instr.tickFrameReceive { frame0 with fwd := List.replicate 353 0 } false false).wf = false := by decide +kernel
theorem test_wf_entry_address : LdgEntry.wf ⟨2 ^ 32, 0, 0, 0⟩ = false := by decide
theorem test_wf_entry_stamp : LdgEntry.wf ⟨0, 0, 2 ^ 64, 0⟩ = false := by decide
theorem test_wf_negotiation : neg0.wf = true := by decide
theorem test_wf_negotiation_image : NegFrame.wf { neg0 with image := [] } = false := by decide
theorem test_wf_negotiation_minor1 : NegFrame.wf { neg0 with minor1 := some 256 } = false := by decide
theorem test_wf_negotiation_minor2 : NegFrame.wf { neg0 with minor2 := some 256 } = false := by decide
theorem test_wf_items :
    ([.word (2 ^ 32) 0 false, .reg (2 ^ 32) 0, .ext (2 ^ 34) 0, .file 10 0 0, .file 0 0x2000 0, .gap (2 ^ 64),
      .stream 4096 (List.replicate 8 0) 0 0 false, .stream 0 [] 0 0 false, .glide 1024 0 0 0 0 0, .record 0 [] [] [],
      .image 10 0 0, .image 0 256 0, .swap 4 0 false, .route 4096 0 0 0, .prot 256 0 0 0, .post 13 0 (List.replicate 16 0),
      .post 14 0 [], .ack 14 0, .ack 12 (2 ^ 16), .refused 14 2, .refused 12 1] : List SegItem).all (!SegItem.wf ·) = true := by
  decide
theorem test_wf_express : (Instr.expressGroupReceive 0 0 [] false false).wf = false := by decide
theorem test_wf_sap_receive : (Instr.sapFrameReceive 0 (List.replicate 33 0) 0 0).wf = false := by decide
theorem test_wf_sap_transmit : (Instr.sapFrameTransmit 0 (List.replicate 17 0)).wf = false := by decide
theorem test_wf_i2c : (Instr.i2cRead 0 0 0 4097).wf = false := by decide
theorem test_wf_usb : (Instr.usbOutPacket (List.replicate 1025 0)).wf = false := by decide +kernel
theorem test_wf_usb_midi_long : (Instr.usbMidiOutPacket (List.replicate 516 0)).wf = false := by decide +kernel
theorem test_wf_usb_midi_odd : (Instr.usbMidiOutPacket [0]).wf = false := by decide
theorem test_wf_image : (Instr.programLoad 0 (some [⟨10, [], 0, 0, 0, 0, [], [], [], 0⟩])).wf = false := by decide

/-! ### Encodings: the worked example of spec/04, and words written from R80, R100, R102 and R106 -/

theorem test_decode_mac : decodeSyl 0x0089440B = .m .mac ⟨false, 0, .step 2 1, .reg 11⟩ := by decide
theorem test_decode_add : decodeSyl 0x10010420 = .a .add ⟨1, 0x0420⟩ := by decide
theorem test_decode_win : decodeSyl 0xC1000001 = .c .win 1 ∧ sylStop 0xC1000001 = true := by decide
theorem test_decode_add32 : decode32 0x00041083 = .syl (.a .add ⟨1, 0x0420⟩) := by decide
theorem test_decode_add16 : decode16 false 0x0120 = .syl (.a .add ⟨1, 0x0420⟩) := by decide
theorem test_decode_load : decodeSyl 0x20021004 = .l .ldw ⟨1, 0x01004⟩ := by decide
theorem test_decode_exp2 : decodeSyl 0x30108100 = .x .exp2 ⟨2, 1, 0, 0⟩ := by decide
theorem test_decode_reserved_class : decodeSyl 0x50000000 = .reserved := by decide
theorem test_decode_undefined : decode16 true 0 = .undef := by decide

/-! ### The tick and the engines -/

/-- The block after reset but for the fields listed. -/
def fs (l : List (Field × Nat)) : State := { chip := l.foldl (fun c x => c.setFld x.1 x.2) {} }

/-- Another part of the block changed. -/
def alter (s : State) (f : Chip → Chip) : State := { s with chip := f s.chip }

theorem test_resetState_met :
    ∃ (p : Nat), p < 10 :=
    ⟨3, by decide +kernel⟩

theorem test_tickControl_met :
    (∃ (s : State) (m : Master), s.chip.Calm ∧ s.chip.writes m Reg.TICK_CTRL = true) ∧
    (∃ (s : State) (m : Master), s.chip.Calm ∧ s.chip.writes m Reg.TICK_CTRL = true) ∧
    (∃ (s : State) (m : Master), s.chip.Calm ∧ s.chip.writes m Reg.TICK_CTRL = true) ∧
    (∃ (s : State) (m : Master), s.chip.Calm ∧ s.chip.reads m Reg.STC_LO = true) ∧
    (∃ (s : State) (m : Master), s.chip.Calm ∧ s.chip.writes m Reg.TICK_CTRL = true) ∧
    (∃ (s : State) (m : Master), s.chip.Calm ∧ s.chip.writes m Reg.TICK_HOLD = true) :=
  ⟨
    ⟨(fs []), .secp, by decide +kernel, by decide +kernel⟩,
    ⟨(fs [(F.TICK_CTRL_RUN,1)]), .secp, by decide +kernel, by decide +kernel⟩,
    ⟨(fs [(F.TICK_CTRL_RUN,1)]), .secp, by decide +kernel, by decide +kernel⟩,
    ⟨(alter (fs []) fun c => { c with tick := { c.tick with stc := 0x123456789A } }), .cp, by decide +kernel,
            by decide +kernel⟩,
    ⟨(alter (fs []) fun c => c.setReg Reg.STC_ALARM_LO 7), .secp, by decide +kernel, by decide +kernel⟩,
    ⟨(fs [(F.TICK_HOLD_HELD,6),(F.ENG_STATUS_STATE 1,5),(F.ENG_STATUS_STATE 2,5),(F.ENG_PLEN_PLEN 2,65535)]), .secp,
            by decide +kernel, by decide +kernel⟩⟩

theorem test_cadenceCommands_met :
    (∃ (s : State) (m : Master) (v : Word), s.chip.Calm ∧ s.chip.writes m Reg.TICK_CADENCE = true ∧
      s.chip.bit F.TICK_STATUS_PAUSED = false ∧ s.chip.bit F.TICK_CADENCE_PENDING = false ∧
      bitAt v.toNat 28 = false ∧ (s.chip.tick.phase ≠ .idle ∨ bits v.toNat 2 0 % 2 = s.chip.rate % 2)) ∧
    (∃ (s : State) (m : Master) (v : Word), s.chip.Calm ∧ s.chip.writes m Reg.TICK_CADENCE = true ∧
      s.chip.bit F.TICK_STATUS_PAUSED = false ∧ bitAt v.toNat 29 = false) ∧
    (∃ (s : State) (m : Master) (v : Word), s.chip.Calm ∧ s.chip.writes m Reg.CLK_ECLK = true ∧
      s.chip.bit F.CLK_ECLK_PENDING = false ∧ bitAt v.toNat 28 = false) ∧
    (∃ (s : State) (m : Master) (v : Word), s.chip.Calm ∧ s.chip.writes m Reg.CLK_ECLK = true ∧
      bitAt v.toNat 29 = false) :=
  ⟨
    ⟨(fs []), .secp, 1, by decide +kernel, by decide +kernel, by decide +kernel, by decide +kernel,
            by decide +kernel, by decide +kernel⟩,
    ⟨(alter (fs [(F.TICK_CADENCE_PENDING,1)]) fun c =>
                { c with tick := { c.tick with cadence := some (3, 0, false) } }), .secp, 0, by decide +kernel,
            by decide +kernel, by decide +kernel, by decide +kernel⟩,
    ⟨(fs []), .secp, 2, by decide +kernel, by decide +kernel, by decide +kernel, by decide +kernel⟩,
    ⟨(alter (fs [(F.CLK_ECLK_PENDING,1)]) fun c => { c with tick := { c.tick with eclk := some (3, 0, false) } }),
            .secp, 0, by decide +kernel, by decide +kernel, by decide +kernel⟩⟩

theorem test_tickPhases_met :
    (∃ (s : State), s.chip.Calm ∧ s.chip.mayBegin = true ∧ s.chip.catching = false) ∧
    (∃ (s : State), s.chip.Calm ∧ s.chip.tick.phase = .p0) ∧
    (∃ (s : State), s.chip.Calm ∧ s.chip.tick.phase = .p1) ∧
    (∃ (s : State), s.chip.Calm) :=
  ⟨
    ⟨(alter (fs [(F.TICK_CTRL_RUN,1),(F.CLK_STATUS_AUD_LOCK,1)]) fun c => c), by decide +kernel, by decide +kernel,
            by decide +kernel⟩,
    ⟨(alter (fs []) fun c => { c with tick := { c.tick with phase := .p0 } }), by decide +kernel, by decide +kernel⟩,
    ⟨(alter (fs []) fun c => { c with tick := { c.tick with phase := .p1 } }), by decide +kernel, by decide +kernel⟩,
    ⟨(fs []), by decide +kernel⟩⟩

theorem test_cycle0Events_met :
    (∃ (s : State), s.chip.Calm ∧ s.chip.mayBegin = true ∧ s.chip.catching = false ∧ s.chip.tick.load = none ∧
      s.chip.now + 1 < 2 ^ 64 ∧ s.chip.bit F.TICK_CTRL_ALARM_EN = true ∧
      (s.chip.tick.alarm.toNat ≤ s.chip.now + 1 ∨ s.chip.tick.alarmLate = true)) ∧
    (∃ (s : State) (code : Nat) (T : Nat) (late : Bool), s.chip.Calm ∧ s.chip.mayBegin = true ∧
      s.chip.catching = false ∧ s.chip.tick.load = none ∧ s.chip.now + 1 < 2 ^ 64 ∧ code < 8 ∧
      s.chip.tick.cadence = some (code, T, late) ∧ s.chip.tick.family = none ∧ T ≤ s.chip.now + 1 ∧
      code % 2 = s.chip.rate % 2) ∧
    (∃ (s : State) (code : Nat) (T : Nat) (late : Bool), s.chip.Calm ∧ s.chip.mayBegin = true ∧
      s.chip.catching = false ∧ s.chip.tick.load = none ∧ s.chip.now + 1 < 2 ^ 64 ∧ code < 4 ∧
      s.chip.tick.eclk = some (code, T, late) ∧ T ≤ s.chip.now + 1) ∧
    (∃ (s : State) (n : Nat) (T : Nat) (law : Bool) (late : Bool), s.chip.Calm ∧ s.chip.mayBegin = true ∧
      s.chip.catching = false ∧ s.chip.tick.load = none ∧ s.chip.now + 1 < 2 ^ 64 ∧
      s.chip.rtr.pend = some (n, law, T, late) ∧ T ≤ s.chip.now + 1) ∧
    (∃ (s : State), s.chip.Calm ∧ s.chip.mayBegin = true ∧ s.chip.catching = false ∧ s.chip.rtr.pend = none ∧
      0 < s.chip.rtr.j ∧ s.chip.rtr.n = s.chip.rtr.j + 1) ∧
    (∃ (s : State), s.chip.Calm ∧ s.chip.mayBegin = true ∧ s.chip.catching = false ∧ s.chip.tlkState = 0 ∧
      s.chip.tick.load = none ∧ s.chip.now + 1 < 2 ^ 64 ∧ s.chip.trkState = 5 ∧ s.chip.clk.slewed = false ∧
      (s.chip.fld F.TRK_CTRL_RET = 3 ∧ s.chip.clk.snapReq = true ∨ s.chip.fld F.TRK_CTRL_RET = 2 ∧
          s.chip.reg64 Reg.TRK_SNAP_AT_LO Reg.TRK_SNAP_AT_HI ≤ s.chip.now + 1)) ∧
    (∃ (s : State), s.chip.Calm ∧ s.chip.mayBegin = true ∧ s.chip.catching = false ∧ s.chip.tlkState = 0 ∧
      s.chip.trkState = 0 ∧ 1024 ≤ s.chip.clk.offTicks) ∧
    (∃ (s : State) (src : Nat) (sp : Nat), s.chip.mbWake = 0 ∧ s.chip.fuseDue = 0 ∧ s.chip.mayBegin = true ∧
      s.chip.catching = false ∧ s.chip.tick.load = none ∧ s.chip.now + 1 < 2 ^ 64 ∧
      s.chip.spare.mig = some (src, sp) ∧ src < 10 ∧ sp < 10 ∧ s.chip.logi sp ≠ src ∧
      s.chip.fld F.MIG_STATUS_PHASE = 2 ∧ s.chip.reg64 Reg.MIG_AT_LO Reg.MIG_AT_HI ≤ s.chip.now + 1 ∧
      max 1 (s.chip.fld F.MIG_CTRL_CLEAN) ≤ s.chip.fld F.MIG_STATUS_CLEAN_CNT) ∧
    (∃ (s : State), s.chip.Calm ∧ s.chip.mayBegin = true ∧ s.chip.catching = false ∧ s.chip.domOn 13 = true ∧
      s.chip.bit F.SENSE_CTRL_EN = true ∧ s.chip.bit F.SENSE_STATUS_RUNNING = false) ∧
    (∃ (s : State), s.chip.Calm ∧ s.chip.mayBegin = true ∧ s.chip.catching = false ∧ s.chip.domOn 13 = true ∧
      s.chip.bit F.SENSE_STATUS_RUNNING = true ∧ s.chip.sense.ending = false ∧
      s.chip.bit F.SENSE_STATUS_READY = false ∧ s.chip.sense.first + 3 ≤ s.chip.sense.tick) :=
  ⟨
    ⟨(alter (fs [(F.TICK_CTRL_RUN,1),(F.CLK_STATUS_AUD_LOCK,1)]) fun c => (c.setFld F.TICK_CTRL_ALARM_EN 1)),
            by decide +kernel, by decide +kernel, by decide +kernel, by decide +kernel, by decide +kernel,
            by decide +kernel, by decide +kernel⟩,
    ⟨(alter (fs [(F.TICK_CTRL_RUN,1),(F.CLK_STATUS_AUD_LOCK,1)]) fun c =>
                ({ c with tick := { c.tick with cadence := some (3, 1, true) } }.setFld F.TICK_CADENCE_RATE 1)), 3,
            1, true, by decide +kernel, by decide +kernel, by decide +kernel, by decide +kernel, by decide +kernel,
            by decide +kernel, by decide +kernel, by decide +kernel, by decide +kernel, by decide +kernel⟩,
    ⟨(alter (fs [(F.TICK_CTRL_RUN,1),(F.CLK_STATUS_AUD_LOCK,1)]) fun c =>
                { c with tick := { c.tick with eclk := some (2, 0, false) } }), 2, 0, false, by decide +kernel,
            by decide +kernel, by decide +kernel, by decide +kernel, by decide +kernel, by decide +kernel,
            by decide +kernel, by decide +kernel⟩,
    ⟨(alter (fs [(F.TICK_CTRL_RUN,1),(F.CLK_STATUS_AUD_LOCK,1)]) fun c =>
                { c with rtr := { c.rtr with pend := some (3, true, 1, false), routes := [(5, ⟨7, 0, 7⟩)] } }), 3,
            1, true, false, by decide +kernel, by decide +kernel, by decide +kernel, by decide +kernel,
            by decide +kernel, by decide +kernel, by decide +kernel⟩,
    ⟨(alter (fs [(F.TICK_CTRL_RUN,1),(F.CLK_STATUS_AUD_LOCK,1)]) fun c =>
                { c with rtr := { c.rtr with j := 3, n := 4, routes := [(5, ⟨7, 0, 7⟩)] } }), by decide +kernel,
            by decide +kernel, by decide +kernel, by decide +kernel, by decide +kernel, by decide +kernel⟩,
    ⟨(alter (fs [(F.TICK_CTRL_RUN,1),(F.CLK_STATUS_AUD_LOCK,1),(F.TRK_STATUS_STATE,5),(F.TRK_CTRL_RET,2),(
                            F.WCLK_CTRL_RUNNING,1)]) fun c => c.setReg Reg.TRK_SNAP_AT_LO 1), by decide +kernel,
            by decide +kernel, by decide +kernel, by decide +kernel, by decide +kernel, by decide +kernel,
            by decide +kernel, by decide +kernel, by decide +kernel⟩,
    ⟨(alter (fs [(F.TICK_CTRL_RUN,1),(F.CLK_STATUS_AUD_LOCK,1),(F.TRK_CVAL_C,65000)]) fun c =>
                { c with clk := { c.clk with offTicks := 1024 } }), by decide +kernel, by decide +kernel,
            by decide +kernel, by decide +kernel, by decide +kernel, by decide +kernel⟩,
    ⟨(alter (fs [(F.TICK_CTRL_RUN,1),(F.CLK_STATUS_AUD_LOCK,1),(F.MIG_STATUS_PHASE,2),(F.MIG_STATUS_CLEAN_CNT,1),(
                            F.MIG_CTRL_CLEAN,1),(F.ENG_STATUS_STATE 2,4)]) fun c =>
                { c with spare := { c.spare with mig := some (2, 9) } }), 2, 9, by decide +kernel,
            by decide +kernel, by decide +kernel, by decide +kernel, by decide +kernel, by decide +kernel,
            by decide +kernel, by decide +kernel, by decide +kernel, by decide +kernel, by decide +kernel,
            by decide +kernel, by decide +kernel⟩,
    ⟨(alter (fs [(F.TICK_CTRL_RUN,1),(F.CLK_STATUS_AUD_LOCK,1)]) fun c => (c.setFld F.SENSE_CTRL_EN 1)),
            by decide +kernel, by decide +kernel, by decide +kernel, by decide +kernel, by decide +kernel,
            by decide +kernel⟩,
    ⟨(alter (fs [(F.TICK_CTRL_RUN,1),(F.CLK_STATUS_AUD_LOCK,1),(F.SENSE_STATUS_RUNNING,1)]) fun c =>
                { c with sense := { c.sense with tick := 3 } }), by decide +kernel, by decide +kernel,
            by decide +kernel, by decide +kernel, by decide +kernel, by decide +kernel, by decide +kernel,
            by decide +kernel⟩⟩

theorem test_engineControl_met :
    (∃ (s : State) (m : Master) (p : Fin 10) (v : Word), s.chip.Calm ∧ s.chip.writes m (Reg.ENG_CTRL p) = true ∧
      bitAt v.toNat 2 = false ∧ bitAt v.toNat 4 = false) ∧
    (∃ (s : State) (m : Master) (p : Fin 10) (v : Word), s.chip.Calm ∧ s.chip.writes m (Reg.ENG_CTRL p) = true ∧
      bitAt v.toNat 2 = false ∧ bitAt v.toNat 3 = false ∧ (s.chip.engState p = 0 ∨ s.chip.engState p = 6)) ∧
    (∃ (s : State) (m : Master) (p : Fin 10) (v : Word), s.chip.Calm ∧ s.chip.writes m (Reg.ENG_CTRL p) = true ∧
      bitAt v.toNat 3 = false ∧ bitAt v.toNat 4 = false ∧ (s.chip.engState p = 0 ∨ s.chip.engState p = 6)) ∧
    (∃ (s : State) (m : Master) (p : Fin 10) (v : Word), s.chip.Calm ∧ s.chip.writes m (Reg.ENG_CTRL p) = true ∧
      bitAt v.toNat 2 = false ∧ bitAt v.toNat 3 = false ∧ bitAt v.toNat 4 = false) ∧
    (∃ (s : State) (p : Fin 10) (plen : Nat) (stores : Nat), s.chip.Calm ∧ s.chip.engState p = 3 ∧
      (s.chip.auxOf p).passed = false ∧ s.chip.scan p = .pass plen stores) ∧
    (∃ (s : State) (p : Fin 10) (why : Nat) (a : Nat), s.chip.Calm ∧ s.chip.engState p = 3 ∧
      (s.chip.auxOf p).passed = false ∧ s.chip.scan p = .fail why a) ∧
    (∃ (s : State) (m : Master) (p : Fin 10) (w : Fin 1024), s.chip.Calm ∧
      s.chip.finds m (engBase p + 0x181000 + 4 * w) true = true) ∧
    (∃ (s : State) (m : Master) (p : Fin 10) (i : Fin 16), s.chip.Calm ∧
      s.chip.writes m (Reg.ENG_SEG_LEN_NEXT p i) = true) :=
  ⟨
    ⟨(fs [(F.ENG_STATUS_STATE 3,1)]), .secp, 3, 1, by decide +kernel, by decide +kernel, by decide +kernel,
            by decide +kernel⟩,
    ⟨(fs [(F.ENG_STATUS_STATE 3,6),(F.SEM_FREE 4,0),(F.SEM_OWNER 4,11)]), .secp, 3, 0, by decide +kernel,
            by decide +kernel, by decide +kernel, by decide +kernel, by decide +kernel⟩,
    ⟨(fs [(F.ENG_SETUP_PC_PC 3,0x100)]), .secp, 3, 1, by decide +kernel, by decide +kernel, by decide +kernel,
            by decide +kernel, by decide +kernel⟩,
    ⟨(fs [(F.ENG_STATUS_STATE 3,2)]), .secp, 3, 1, by decide +kernel, by decide +kernel, by decide +kernel,
            by decide +kernel, by decide +kernel⟩,
    ⟨(alter (fs [(F.ENG_STATUS_STATE 3,3),(F.ENG_ENC_ENC 3,1)]) fun c => c.setRaw (engBase 3) 0xC6000000), 3, 1, 0,
            by decide +kernel, by decide +kernel, by decide +kernel, by decide +kernel⟩,
    ⟨(fs [(F.ENG_STATUS_STATE 3,3)]), 3, 4, 0, by decide +kernel, by decide +kernel, by decide +kernel,
            by decide +kernel⟩,
    ⟨(fs []), .secp, 3, 511, by decide +kernel, by decide +kernel⟩,
    ⟨(fs [(F.ENG_STATUS_STATE 3,4)]), .secp, 3, 15, by decide +kernel, by decide +kernel⟩⟩

/-! ### Operations on registers -/

/-- Engine 3 in setup code of a bundle region, with some register contents. -/
def eng3 : State :=
  alter (fs [(F.ENG_STATUS_STATE 3, 1), (F.ENG_ENC_ENC 3, 0xFFFF)]) fun c =>
    (c.modCore 3 fun k => { (((k.setGpr 512 0x7FFFFFFF).setGpr 513 5).setGpr 514 0x80000000) with
      acc := [(0, 0x400000000000)], acc1 := [(0, 0x400000000000)], acc2 := [(0, 0x400000000000)], acc3 := [(0, 0x400000000000)],
      prod := [(1, 0x7FFFFFFFFFFF)], segs := [(2, { w0 := 0x40000010, len := 8, ptr := 7 }), (3, { w0 := 0x82000000, len := 4, ptr := 1 })] }).setRaw (delayAddr 3 23) 0x12345678

/-- The same in compact code. -/
def eng3c : State := alter eng3 fun c => c.setFld (F.ENG_ENC_ENC 3) 0

/-- The CP runs in its memory. -/
def cpRun : State :=
  alter (fs []) fun c => (c.modAux 10 fun a => { a with run := .running }).modCore 10 fun k =>
    { (((k.setGpr 512 0x10000100).setGpr 513 5).setGpr 514 0x80000000) with pc := 0x10000000 }

theorem test_aluLogic_met :
    (∃ (s : State) (core : CoreId) (x : AArgs), s.chip.Calm ∧ s.chip.ready core = true ∧ aOk core .and x = true) ∧
    (∃ (s : State) (core : CoreId) (x : AArgs), s.chip.Calm ∧ s.chip.ready core = true ∧ aOk core .or x = true) ∧
    (∃ (s : State) (core : CoreId) (x : AArgs), s.chip.Calm ∧ s.chip.ready core = true ∧ aOk core .xor x = true) ∧
    (∃ (s : State) (core : CoreId) (x : AArgs), s.chip.Calm ∧ s.chip.ready core = true ∧ aOk core .not x = true) ∧
    (∃ (s : State) (core : CoreId) (x : AArgs), s.chip.Calm ∧ s.chip.ready core = true ∧ aOk core .andi x = true) ∧
    (∃ (s : State) (core : CoreId) (x : AArgs), s.chip.Calm ∧ s.chip.ready core = true ∧ aOk core .ori x = true) ∧
    (∃ (s : State) (core : CoreId) (x : AArgs), s.chip.Calm ∧ s.chip.ready core = true ∧ aOk core .xori x = true) ∧
    (∃ (s : State) (core : CoreId) (x : AArgs), s.chip.Calm ∧ s.chip.ready core = true ∧ aOk core .shl x = true) ∧
    (∃ (s : State) (core : CoreId) (x : AArgs), s.chip.Calm ∧ s.chip.ready core = true ∧ aOk core .shr x = true) ∧
    (∃ (s : State) (core : CoreId) (x : AArgs), s.chip.Calm ∧ s.chip.ready core = true ∧ aOk core .sra x = true) ∧
    (∃ (s : State) (core : CoreId) (x : AArgs), s.chip.Calm ∧ s.chip.ready core = true ∧ aOk core .ror x = true) ∧
    (∃ (s : State) (core : CoreId) (x : AArgs), s.chip.Calm ∧ s.chip.ready core = true ∧ aOk core .shi x = true) :=
  ⟨
    ⟨eng3, 3, ⟨8, 16⟩, by decide +kernel, by decide +kernel, by decide +kernel⟩,
    ⟨eng3, 3, ⟨8, 16⟩, by decide +kernel, by decide +kernel, by decide +kernel⟩,
    ⟨eng3, 3, ⟨8, 16⟩, by decide +kernel, by decide +kernel, by decide +kernel⟩,
    ⟨eng3, 3, ⟨8, 0⟩, by decide +kernel, by decide +kernel, by decide +kernel⟩,
    ⟨eng3, 3, ⟨8, 1023⟩, by decide +kernel, by decide +kernel, by decide +kernel⟩,
    ⟨eng3, 3, ⟨8, 2047⟩, by decide +kernel, by decide +kernel, by decide +kernel⟩,
    ⟨eng3, 3, ⟨8, 2047⟩, by decide +kernel, by decide +kernel, by decide +kernel⟩,
    ⟨eng3, 3, ⟨8, 16⟩, by decide +kernel, by decide +kernel, by decide +kernel⟩,
    ⟨eng3, 3, ⟨8, 2064⟩, by decide +kernel, by decide +kernel, by decide +kernel⟩,
    ⟨eng3, 3, ⟨8, 2048⟩, by decide +kernel, by decide +kernel, by decide +kernel⟩,
    ⟨eng3, 3, ⟨8, 1040⟩, by decide +kernel, by decide +kernel, by decide +kernel⟩,
    ⟨eng3, 3, ⟨8, 2239⟩, by decide +kernel, by decide +kernel, by decide +kernel⟩⟩

theorem test_aluArith_met :
    (∃ (s : State) (core : CoreId) (x : AArgs), s.chip.Calm ∧ s.chip.ready core = true ∧ aOk core .add x = true) ∧
    (∃ (s : State) (core : CoreId) (x : AArgs), s.chip.Calm ∧ s.chip.ready core = true ∧ aOk core .sub x = true) ∧
    (∃ (s : State) (core : CoreId) (x : AArgs), s.chip.Calm ∧ s.chip.ready core = true ∧ aOk core .addi x = true) ∧
    (∃ (s : State) (core : CoreId) (x : AArgs), s.chip.Calm ∧ s.chip.ready core = true ∧ aOk core .neg x = true) ∧
    (∃ (s : State) (core : CoreId) (x : AArgs), s.chip.Calm ∧ s.chip.ready core = true ∧ aOk core .abs x = true) :=
  ⟨
    ⟨eng3, 3, ⟨8, 16⟩, by decide +kernel, by decide +kernel, by decide +kernel⟩,
    ⟨eng3, 3, ⟨8, 2064⟩, by decide +kernel, by decide +kernel, by decide +kernel⟩,
    ⟨eng3, 3, ⟨8, 1⟩, by decide +kernel, by decide +kernel, by decide +kernel⟩,
    ⟨eng3, 3, ⟨8, 2049⟩, by decide +kernel, by decide +kernel, by decide +kernel⟩,
    ⟨eng3, 3, ⟨8, 2050⟩, by decide +kernel, by decide +kernel, by decide +kernel⟩⟩

theorem test_aluSelect_met :
    (∃ (s : State) (core : CoreId) (x : AArgs), s.chip.Calm ∧ s.chip.ready core = true ∧ aOk core .min x = true) ∧
    (∃ (s : State) (core : CoreId) (x : AArgs), s.chip.Calm ∧ s.chip.ready core = true ∧ aOk core .max x = true) ∧
    (∃ (s : State) (core : CoreId) (x : AArgs), s.chip.Calm ∧ s.chip.ready core = true ∧ aOk core .clz x = true) ∧
    (∃ (s : State) (core : CoreId) (x : AArgs), s.chip.Calm ∧ s.chip.ready core = true ∧ aOk core .cmp x = true) ∧
    (∃ (s : State) (core : CoreId) (x : AArgs), s.chip.Calm ∧ s.chip.ready core = true ∧ aOk core .cmpi x = true) ∧
    (∃ (s : State) (core : CoreId) (x : AArgs), s.chip.Calm ∧ s.chip.ready core = true ∧ aOk core .sel x = true) ∧
    (∃ (s : State) (core : CoreId) (x : AArgs), s.chip.Calm ∧ s.chip.ready core = true ∧ aOk core .ext x = true) ∧
    (∃ (s : State) (core : CoreId) (x : AArgs), s.chip.Calm ∧ s.chip.ready core = true ∧ aOk core .movhi x = true) :=
  ⟨
    ⟨eng3, 3, ⟨8, 32⟩, by decide +kernel, by decide +kernel, by decide +kernel⟩,
    ⟨eng3, 3, ⟨8, 32⟩, by decide +kernel, by decide +kernel, by decide +kernel⟩,
    ⟨eng3, 3, ⟨8, 1024⟩, by decide +kernel, by decide +kernel, by decide +kernel⟩,
    ⟨eng3, 3, ⟨8, 40⟩, by decide +kernel, by decide +kernel, by decide +kernel⟩,
    ⟨eng3, 3, ⟨8, 1407⟩, by decide +kernel, by decide +kernel, by decide +kernel⟩,
    ⟨eng3, 3, ⟨8, 41⟩, by decide +kernel, by decide +kernel, by decide +kernel⟩,
    ⟨eng3, 3, ⟨8, 2⟩, by decide +kernel, by decide +kernel, by decide +kernel⟩,
    ⟨eng3, 3, ⟨8, 43981⟩, by decide +kernel, by decide +kernel, by decide +kernel⟩⟩

theorem test_moves_met :
    (∃ (s : State) (core : CoreId) (x : AArgs), s.chip.Calm ∧ s.chip.ready core = true ∧ aOk core .mov x = true ∧
      isGpr x.rd.toNat = true ∧ isGpr x.ra = true) ∧
    (∃ (s : State) (core : CoreId) (x : AArgs), s.chip.Calm ∧ s.chip.ready core = true ∧ aOk core .mov x = true ∧
      isGpr x.rd.toNat = true ∧ isSpecial x.ra = true) ∧
    (∃ (s : State) (core : CoreId) (x : AArgs), s.chip.Calm ∧ s.chip.ready core = true ∧ aOk core .mov x = true ∧
      x.rd.toNat = 51) ∧
    (∃ (s : State) (core : CoreId) (x : AArgs), s.chip.Calm ∧ s.chip.ready core = true ∧ aOk core .mov x = true ∧
      x.rd.toNat = 50) ∧
    (∃ (s : State) (core : CoreId) (x : AArgs), s.chip.Calm ∧ s.chip.ready core = true ∧ aOk core .movi x = true ∧
      isGpr x.rd.toNat = true) ∧
    (∃ (s : State) (core : CoreId) (x : LArgs), s.chip.Calm ∧ s.chip.ready core = true ∧ lOk core .lmov x = true) ∧
    (∃ (s : State) (core : CoreId) (x : LArgs), s.chip.Calm ∧ s.chip.ready core = true ∧ lOk core .addr x = true) ∧
    (∃ (s : State) (core : CoreId) (x : LArgs), s.chip.Calm ∧ s.chip.ready core = true ∧ lOk core .addri x = true) :=
  ⟨
    ⟨eng3, 3, ⟨8, 0⟩, by decide +kernel, by decide +kernel, by decide +kernel, by decide +kernel, by decide +kernel⟩,
    ⟨eng3, 3, ⟨8, 53248⟩, by decide +kernel, by decide +kernel, by decide +kernel, by decide +kernel,
            by decide +kernel⟩,
    ⟨eng3, 3, ⟨51, 1024⟩, by decide +kernel, by decide +kernel, by decide +kernel, by decide +kernel⟩,
    ⟨eng3, 3, ⟨50, 1024⟩, by decide +kernel, by decide +kernel, by decide +kernel, by decide +kernel⟩,
    ⟨eng3, 3, ⟨8, 32769⟩, by decide +kernel, by decide +kernel, by decide +kernel, by decide +kernel⟩,
    ⟨eng3, 3, ⟨8, 2048⟩, by decide +kernel, by decide +kernel, by decide +kernel⟩,
    ⟨eng3, 3, ⟨8, 2048+64+24⟩, by decide +kernel, by decide +kernel, by decide +kernel⟩,
    ⟨eng3, 3, ⟨8, 2048+0x7FF⟩, by decide +kernel, by decide +kernel, by decide +kernel⟩⟩

theorem test_accumulatorMoves_met :
    (∃ (s : State) (core : CoreId) (x : AArgs), s.chip.Calm ∧ s.chip.ready core = true ∧ aOk core .rnd x = true) ∧
    (∃ (s : State) (core : CoreId) (x : AArgs), s.chip.Calm ∧ s.chip.ready core = true ∧ aOk core .ash x = true ∧
      (BitVec.ofNat 10 x.imm10).toInt ≥ 0) ∧
    (∃ (s : State) (core : CoreId) (x : AArgs), s.chip.Calm ∧ s.chip.ready core = true ∧ aOk core .ash x = true ∧
      (BitVec.ofNat 10 x.imm10).toInt < 0) ∧
    (∃ (s : State) (core : CoreId) (x : AArgs), s.chip.Calm ∧ s.chip.ready core = true ∧ aOk core .adda x = true) ∧
    (∃ (s : State) (core : CoreId) (x : AArgs), s.chip.Calm ∧ s.chip.ready core = true ∧ aOk core .suba x = true) ∧
    (∃ (s : State) (core : CoreId) (x : AArgs), s.chip.Calm ∧ s.chip.ready core = true ∧ aOk core .mov x = true ∧
      isAcc core x.rd.toNat = true) ∧
    (∃ (s : State) (core : CoreId) (x : AArgs), s.chip.Calm ∧ s.chip.ready core = true ∧ aOk core .mov x = true ∧
      isProd x.rd.toNat = true) ∧
    (∃ (s : State) (core : CoreId) (x : AArgs), s.chip.Calm ∧ s.chip.ready core = true ∧ aOk core .movi x = true ∧
      isAcc core x.rd.toNat = true) ∧
    (∃ (s : State) (core : CoreId) (x : AArgs), s.chip.Calm ∧ s.chip.ready core = true ∧ aOk core .movi x = true ∧
      isProd x.rd.toNat = true) :=
  ⟨
    ⟨eng3, 3, ⟨8, 36870⟩, by decide +kernel, by decide +kernel, by decide +kernel⟩,
    ⟨eng3, 3, ⟨37, 36927⟩, by decide +kernel, by decide +kernel, by decide +kernel, by decide +kernel⟩,
    ⟨eng3, 3, ⟨37, 37887⟩, by decide +kernel, by decide +kernel, by decide +kernel, by decide +kernel⟩,
    ⟨eng3, 3, ⟨37, 37440⟩, by decide +kernel, by decide +kernel, by decide +kernel⟩,
    ⟨eng3, 3, ⟨37, 37520⟩, by decide +kernel, by decide +kernel, by decide +kernel⟩,
    ⟨eng3, 3, ⟨37, 0⟩, by decide +kernel, by decide +kernel, by decide +kernel, by decide +kernel⟩,
    ⟨eng3, 3, ⟨40, 0⟩, by decide +kernel, by decide +kernel, by decide +kernel, by decide +kernel⟩,
    ⟨eng3, 3, ⟨37, 32768⟩, by decide +kernel, by decide +kernel, by decide +kernel, by decide +kernel⟩,
    ⟨eng3, 3, ⟨41, 32768⟩, by decide +kernel, by decide +kernel, by decide +kernel, by decide +kernel⟩⟩

theorem test_multiply_met :
    (∃ (s : State) (core : CoreId) (x : MArgs) (va : Int) (vb : Int) (fa : Nat) (fb : Nat), s.chip.Calm ∧
      s.chip.ready core = true ∧ mOk core .mpy x = true ∧ s.chip.mVal core x.a = some (va, fa) ∧
      s.chip.mVal core x.b = some (vb, fb) ∧ x.dst.toNat < 4) ∧
    (∃ (s : State) (core : CoreId) (x : MArgs) (va : Int) (vb : Int) (fa : Nat) (fb : Nat), s.chip.Calm ∧
      s.chip.ready core = true ∧ mOk core .mpy x = true ∧ s.chip.mVal core x.a = some (va, fa) ∧
      s.chip.mVal core x.b = some (vb, fb) ∧ 4 ≤ x.dst.toNat) ∧
    (∃ (s : State) (core : CoreId) (x : MArgs) (va : Int) (vb : Int) (fa : Nat) (fb : Nat), s.chip.Calm ∧
      s.chip.ready core = true ∧ mOk core .mac x = true ∧ s.chip.mVal core x.a = some (va, fa) ∧
      s.chip.mVal core x.b = some (vb, fb) ∧ x.dst.toNat < 4) ∧
    (∃ (s : State) (core : CoreId) (x : MArgs) (va : Int) (vb : Int) (fa : Nat) (fb : Nat), s.chip.Calm ∧
      s.chip.ready core = true ∧ mOk core .msu x = true ∧ s.chip.mVal core x.a = some (va, fa) ∧
      s.chip.mVal core x.b = some (vb, fb) ∧ x.dst.toNat < 4) ∧
    (∃ (s : State) (core : CoreId) (x : MArgs) (va : Int) (vb : Int) (fa : Nat) (fb : Nat), s.chip.Calm ∧
      s.chip.ready core = true ∧ mOk core .mpyn x = true ∧ s.chip.mVal core x.a = some (va, fa) ∧
      s.chip.mVal core x.b = some (vb, fb) ∧ x.dst.toNat < 4) ∧
    (∃ (s : State) (core : CoreId) (x : MArgs) (va : Int) (vb : Int) (fa : Nat) (fb : Nat), s.chip.Calm ∧
      s.chip.ready core = true ∧ mOk core .mpyn x = true ∧ s.chip.mVal core x.a = some (va, fa) ∧
      s.chip.mVal core x.b = some (vb, fb) ∧ 4 ≤ x.dst.toNat) ∧
    (∃ (s : State) (core : CoreId) (x : MArgs), s.chip.Calm ∧ s.chip.ready core = true ∧ mOk core .addp x = true) :=
  ⟨
    ⟨eng3, 3, ⟨false, 0, .reg 0, .step 2 15⟩, 0x7FFFFF, 0x123456, 0, 0, by decide +kernel, by decide +kernel,
            by decide +kernel, by decide +kernel, by decide +kernel, by decide +kernel⟩,
    ⟨eng3, 3, ⟨false, 5, .reg 0, .step 2 15⟩, 0x7FFFFF, 0x123456, 0, 0, by decide +kernel, by decide +kernel,
            by decide +kernel, by decide +kernel, by decide +kernel, by decide +kernel⟩,
    ⟨eng3, 3, ⟨false, 0, .reg 0, .step 2 15⟩, 0x7FFFFF, 0x123456, 0, 0, by decide +kernel, by decide +kernel,
            by decide +kernel, by decide +kernel, by decide +kernel, by decide +kernel⟩,
    ⟨eng3, 3, ⟨false, 0, .reg 0, .step 2 15⟩, 0x7FFFFF, 0x123456, 0, 0, by decide +kernel, by decide +kernel,
            by decide +kernel, by decide +kernel, by decide +kernel, by decide +kernel⟩,
    ⟨eng3, 3, ⟨false, 0, .reg 0, .step 2 15⟩, 0x7FFFFF, 0x123456, 0, 0, by decide +kernel, by decide +kernel,
            by decide +kernel, by decide +kernel, by decide +kernel, by decide +kernel⟩,
    ⟨eng3, 3, ⟨false, 5, .reg 0, .step 2 15⟩, 0x7FFFFF, 0x123456, 0, 0, by decide +kernel, by decide +kernel,
            by decide +kernel, by decide +kernel, by decide +kernel, by decide +kernel⟩,
    ⟨eng3, 3, ⟨true, 0, .reg 41, .reg 0⟩, by decide +kernel, by decide +kernel, by decide +kernel⟩⟩

/-! ### Loads, stores and segments -/

/-- The SECP runs in its memory, a word of which and one of serai hold data. -/
def secpRun : State :=
  alter (fs []) fun c => (((c.modAux 11 fun a => { a with run := .running }).modCore 11 fun k =>
    { ((k.setGpr 512 0x18000104).setGpr 513 0x20000100) with pc := 0x18000000 }).setRaw 0x18000104 0x89ABCDEF).setRaw 0x20000100 0x81828384

theorem test_loads_met :
    (∃ (s : State) (i : Instr) (op : LOp) (core : CoreId) (x : LArgs) (off : Int) (post : Option Int) (lane : Nat)
        (w : Word) (f : Nat), s.chip.Calm ∧ s.chip.ready core = true ∧ opRow i = some (core, .l op x) ∧
      op ∈ [LOp.ldw, .ldh, .ldhu, .ldb, .ldbu] ∧ lOk core op x = true ∧ core.val < 10 ∧
      segForm core (s.chip.core core) op x.low.toNat = (off, post, lane) ∧
      s.chip.ownWord core ((s.chip.core core).seg (bits x.low.toNat 16 13)) off = some (w, f)) ∧
    (∃ (s : State) (i : Instr) (op : LOp) (core : CoreId) (x : LArgs), s.chip.Calm ∧ s.chip.ready core = true ∧
      opRow i = some (core, .l op x) ∧ op ∈ [LOp.ldw, .ldh, .ldhu, .ldb, .ldbu] ∧ lOk core op x = true ∧
      core.val < 10) ∧
    (∃ (s : State) (i : Instr) (op : LOp) (core : CoreId) (x : LArgs), s.chip.Calm ∧ s.chip.ready core = true ∧
      opRow i = some (core, .l op x) ∧ op ∈ [LOp.ldw, .ldh, .ldhu, .ldb, .ldbu] ∧ lOk core op x = true ∧
      10 ≤ core.val ∧ ownMem core ((s.chip.ea core x) / 4 * 4) = true ∧
      s.chip.eccOf ((s.chip.ea core x) / 4 * 4) = 0) ∧
    (∃ (s : State) (i : Instr) (op : LOp) (core : CoreId) (x : LArgs) (w : Word), s.chip.Calm ∧
      s.chip.ready core = true ∧ opRow i = some (core, .l op x) ∧ op ∈ [LOp.ldw, .ldh, .ldhu, .ldb, .ldbu] ∧
      lOk core op x = true ∧ 10 ≤ core.val ∧ ownMem core ((s.chip.ea core x) / 4 * 4) = false ∧
      s.chip.busRead (coreMaster core) (s.chip.ea core x) (lSize op) = (w, s.chip, false)) :=
  ⟨
    ⟨eng3, (.ldw 3 ⟨8, 16384⟩), .ldw, 3, ⟨8, 16384⟩, 0, none, 0, 0x12345678, 0, by decide +kernel,
            by decide +kernel, by decide +kernel, by decide +kernel, by decide +kernel, by decide +kernel,
            by decide +kernel, by decide +kernel⟩,
    ⟨eng3, (.ldw 3 ⟨8, 16384⟩), .ldw, 3, ⟨8, 16384⟩, by decide +kernel, by decide +kernel, by decide +kernel,
            by decide +kernel, by decide +kernel, by decide +kernel⟩,
    ⟨secpRun, (.ldh 11 ⟨8, 1⟩), .ldh, 11, ⟨8, 1⟩, by decide +kernel, by decide +kernel, by decide +kernel,
            by decide +kernel, by decide +kernel, by decide +kernel, by decide +kernel, by decide +kernel⟩,
    ⟨secpRun, (.ldb 11 ⟨8, 2048+2⟩), .ldb, 11, ⟨8, 2048+2⟩, 0x81828384, by decide +kernel, by decide +kernel,
            by decide +kernel, by decide +kernel, by decide +kernel, by decide +kernel, by decide +kernel,
            by decide +kernel⟩⟩

theorem test_stores_met :
    (∃ (s : State) (i : Instr) (op : LOp) (core : CoreId) (x : LArgs) (off : Int) (post : Option Int) (lane : Nat)
        (vf : Nat × Nat) (n : Nat), s.chip.Calm ∧ s.chip.ready core = true ∧ opRow i = some (core, .l op x) ∧
      op ∈ [LOp.stw, .sth, .stb, .sta] ∧ lOk core op x = true ∧ core.val < 10 ∧
      segForm core (s.chip.core core) op x.low.toNat = (off, post, lane) ∧
      vf = (if op = .sta then roundQ23 ((s.chip.core core).mode % 4) (bitAt (s.chip.core core).mode 2)
            ((s.chip.core core).apSrc x.rt.toNat) else ((s.chip.gpr core x.rt.toNat).toNat, 0)) ∧
      ((s.chip.core core).seg (bits x.low.toNat 16 13)).index off = some n ∧
      ((s.chip.core core).seg (bits x.low.toNat 16 13)).memCode = 0) ∧
    (∃ (s : State) (i : Instr) (op : LOp) (core : CoreId) (x : LArgs) (off : Int) (post : Option Int) (lane : Nat)
        (vf : Nat × Nat) (n : Nat), s.chip.Calm ∧ s.chip.ready core = true ∧ opRow i = some (core, .l op x) ∧
      op ∈ [LOp.stw, .sth, .stb, .sta] ∧ lOk core op x = true ∧ core.val < 10 ∧
      segForm core (s.chip.core core) op x.low.toNat = (off, post, lane) ∧
      vf = (if op = .sta then roundQ23 ((s.chip.core core).mode % 4) (bitAt (s.chip.core core).mode 2)
            ((s.chip.core core).apSrc x.rt.toNat) else ((s.chip.gpr core x.rt.toNat).toNat, 0)) ∧
      ((s.chip.core core).seg (bits x.low.toNat 16 13)).index off = some n ∧
      ((s.chip.core core).seg (bits x.low.toNat 16 13)).memCode = 2) ∧
    (∃ (s : State) (i : Instr) (op : LOp) (core : CoreId) (x : LArgs) (off : Int) (post : Option Int) (lane : Nat)
        (vf : Nat × Nat), s.chip.Calm ∧ s.chip.ready core = true ∧ opRow i = some (core, .l op x) ∧
      op ∈ [LOp.stw, .sth, .stb, .sta] ∧ lOk core op x = true ∧ core.val < 10 ∧
      segForm core (s.chip.core core) op x.low.toNat = (off, post, lane) ∧
      vf = (if op = .sta then roundQ23 ((s.chip.core core).mode % 4) (bitAt (s.chip.core core).mode 2)
            ((s.chip.core core).apSrc x.rt.toNat) else ((s.chip.gpr core x.rt.toNat).toNat, 0)) ∧
      ((s.chip.core core).seg (bits x.low.toNat 16 13)).index off = none) ∧
    (∃ (s : State) (i : Instr) (op : LOp) (core : CoreId) (x : LArgs) (off : Int) (post : Option Int) (lane : Nat)
        (vf : Nat × Nat) (n : Nat), s.chip.Calm ∧ s.chip.ready core = true ∧ opRow i = some (core, .l op x) ∧
      op ∈ [LOp.stw, .sth, .stb, .sta] ∧ lOk core op x = true ∧ core.val < 10 ∧
      segForm core (s.chip.core core) op x.low.toNat = (off, post, lane) ∧
      vf = (if op = .sta then roundQ23 ((s.chip.core core).mode % 4) (bitAt (s.chip.core core).mode 2)
            ((s.chip.core core).apSrc x.rt.toNat) else ((s.chip.gpr core x.rt.toNat).toNat, 0)) ∧
      ((s.chip.core core).seg (bits x.low.toNat 16 13)).index off = some n ∧
      ((s.chip.core core).seg (bits x.low.toNat 16 13)).memCode ≠ 0 ∧
      ((s.chip.core core).seg (bits x.low.toNat 16 13)).memCode ≠ 2) ∧
    (∃ (s : State) (i : Instr) (op : LOp) (core : CoreId) (x : LArgs) (vf : Nat × Nat), s.chip.Calm ∧
      s.chip.ready core = true ∧ opRow i = some (core, .l op x) ∧ op ∈ [LOp.stw, .sth, .stb, .sta] ∧
      lOk core op x = true ∧ 10 ≤ core.val ∧ ownMem core ((s.chip.ea core x) / 4 * 4) = true ∧
      0x20000 ≤ (s.chip.ea core x) / 4 * 4 ∧
      vf = (if op = .sta then roundQ23 ((s.chip.core core).mode % 4) (bitAt (s.chip.core core).mode 2)
            ((s.chip.core core).apSrc x.rt.toNat) else ((s.chip.gpr core x.rt.toNat).toNat, 0))) ∧
    (∃ (s : State) (i : Instr) (op : LOp) (core : CoreId) (x : LArgs) (vf : Nat × Nat) (a : Nat), s.chip.Calm ∧
      s.chip.ready core = true ∧ opRow i = some (core, .l op x) ∧ op ∈ [LOp.stw, .sth, .stb, .sta] ∧
      lOk core op x = true ∧ 10 ≤ core.val ∧
      vf = (if op = .sta then roundQ23 ((s.chip.core core).mode % 4) (bitAt (s.chip.core core).mode 2)
            ((s.chip.core core).apSrc x.rt.toNat) else ((s.chip.gpr core x.rt.toNat).toNat, 0)) ∧
      (s.chip.place (coreMaster core) ((s.chip.ea core x) / 4 * 4) = .serai a ∨ s.chip.place (coreMaster core)
            ((s.chip.ea core x) / 4 * 4) = .sram 10 a) ∧
      s.chip.finds (if core.val = 11 then .secp else .cp) ((s.chip.ea core x) / 4 * 4) true = true) :=
  ⟨
    ⟨eng3, (.stw 3 ⟨0, 16384⟩), .stw, 3, ⟨0, 16384⟩, 0, none, 0, (0x7FFFFFFF, 0), 7, by decide +kernel,
            by decide +kernel, by decide +kernel, by decide +kernel, by decide +kernel, by decide +kernel,
            by decide +kernel, by decide +kernel, by decide +kernel, by decide +kernel⟩,
    ⟨eng3, (.sth 3 ⟨0, 24577⟩), .sth, 3, ⟨0, 24577⟩, 0, none, 1, (0x7FFFFFFF, 0), 1, by decide +kernel,
            by decide +kernel, by decide +kernel, by decide +kernel, by decide +kernel, by decide +kernel,
            by decide +kernel, by decide +kernel, by decide +kernel, by decide +kernel⟩,
    ⟨eng3, (.stw 3 ⟨0, 24580⟩), .stw, 3, ⟨0, 24580⟩, 4, none, 0, (0x7FFFFFFF, 0), by decide +kernel,
            by decide +kernel, by decide +kernel, by decide +kernel, by decide +kernel, by decide +kernel,
            by decide +kernel, by decide +kernel, by decide +kernel⟩,
    ⟨(alter eng3 fun c => c.modCore 3 fun k => k.setSeg 4 { w0 := 0x81000000, len := 4, ptr := 1 }),
            (.stw 3 ⟨0, 32768⟩), .stw, 3, ⟨0, 32768⟩, 0, none, 0, (0x7FFFFFFF, 0), 1, by decide +kernel,
            by decide +kernel, by decide +kernel, by decide +kernel, by decide +kernel, by decide +kernel,
            by decide +kernel, by decide +kernel, by decide +kernel, by decide +kernel, by decide +kernel⟩,
    ⟨secpRun, (.sth 11 ⟨0, 3⟩), .sth, 11, ⟨0, 3⟩, (0x18000104, 0), by decide +kernel, by decide +kernel,
            by decide +kernel, by decide +kernel, by decide +kernel, by decide +kernel, by decide +kernel,
            by decide +kernel, by decide +kernel⟩,
    ⟨secpRun, (.stb 11 ⟨0, 2048+2⟩), .stb, 11, ⟨0, 2048+2⟩, (0x18000104, 0), 0x20000100, by decide +kernel,
            by decide +kernel, by decide +kernel, by decide +kernel, by decide +kernel, by decide +kernel,
            by decide +kernel, by decide +kernel, by decide +kernel⟩⟩

theorem test_segmentOps_met :
    (∃ (s : State) (core : CoreId) (x : LArgs), s.chip.Calm ∧ s.chip.ready core = true ∧ lOk core .segrd x = true) ∧
    (∃ (s : State) (core : CoreId) (x : LArgs), s.chip.Calm ∧ s.chip.ready core = true ∧ lOk core .segwr x = true) ∧
    (∃ (s : State) (core : CoreId) (x : LArgs), s.chip.Calm ∧ s.chip.ready core = true ∧ lOk core .ptradd x = true) :=
  ⟨
    ⟨eng3, 3, ⟨8, 16384⟩, by decide +kernel, by decide +kernel, by decide +kernel⟩,
    ⟨eng3, 3, ⟨1, 16384+4096⟩, by decide +kernel, by decide +kernel, by decide +kernel⟩,
    ⟨eng3, 3, ⟨1, 16384⟩, by decide +kernel, by decide +kernel, by decide +kernel⟩⟩

/-! ### Divisions, generators, control flow -/

/-- Engine 3 with points in its window. -/
def engY : State :=
  alter eng3 fun c => c.modCore 3 fun k => ((((((k.setGpr 0 0x10000000).setGpr 1 0x7FFFFFFF).setGpr 2 0x70000000).setGpr 3 0x80000000).setGpr 4 7).setGpr 5 0xFFFFFFFF).setGpr 513 0x60000001
/-- Engine 3 before a delay bundle, and inside a repeat. -/
def engX : State := alter eng3 fun c => c.modCore 3 fun k => { k with xfer := some ⟨some 64, 8, some 0, false, 32⟩ }
def engR : State := alter eng3 fun c => c.modCore 3 fun k => { k with repOn := true, repcnt := 3 }
/-- The CP with an event pending at level 3, interrupts enabled. -/
def cpIrq : State := alter cpRun fun c => ((((c.setFld F.CORE_ESTAT_IE 1).setFld (F.EVT_CFG_CP_LVL 40) 3).raise 40).setReg Reg.CORE_VBASE 0x10001000)

/-- The CP in a handler of level 3. -/
def cpTrap : State := alter cpRun fun c => ((c.setFld F.CORE_ESTAT_RUNLVL 3).setReg (Reg.CORE_RPC 3) 0x10000200).setReg (Reg.CORE_RSAVE 3) (BitVec.ofNat 32 (2 ^ 27 + 5 * 2 ^ 14 + 40 * 128 + 8))
/-- Engine 3 with the bundle `w` and a compact instruction at its program counter. -/
def engB (w : Word) : State := alter eng3 fun c => c.setRaw 0x30C00000 w
def engC (w : Word) : State := alter eng3c fun c => c.setRaw 0x30C00000 w
def cpB (w : Word) : State := alter cpRun fun c => c.setRaw 0x10000000 w

theorem test_divisions_met :
    (∃ (s : State) (core : CoreId) (x : XArgs), s.chip.Calm ∧ s.chip.ready core = true ∧ xOk .idiv x = true) ∧
    (∃ (s : State) (core : CoreId) (x : XArgs), s.chip.Calm ∧ s.chip.ready core = true ∧ xOk .irem x = true) ∧
    (∃ (s : State) (core : CoreId) (x : XArgs), s.chip.Calm ∧ s.chip.ready core = true ∧ xOk .udiv x = true) ∧
    (∃ (s : State) (core : CoreId) (x : XArgs), s.chip.Calm ∧ s.chip.ready core = true ∧ xOk .urem x = true) ∧
    (∃ (s : State) (core : CoreId) (x : XArgs), s.chip.Calm ∧ s.chip.ready core = true ∧ xOk .fdiv x = true) :=
  ⟨
    ⟨eng3, 3, ⟨8, 0, 1, 0⟩, by decide +kernel, by decide +kernel, by decide +kernel⟩,
    ⟨eng3, 3, ⟨8, 0, 1, 0⟩, by decide +kernel, by decide +kernel, by decide +kernel⟩,
    ⟨eng3, 3, ⟨8, 0, 1, 0⟩, by decide +kernel, by decide +kernel, by decide +kernel⟩,
    ⟨eng3, 3, ⟨8, 0, 1, 0⟩, by decide +kernel, by decide +kernel, by decide +kernel⟩,
    ⟨eng3, 3, ⟨8, 1, 0, 0⟩, by decide +kernel, by decide +kernel, by decide +kernel⟩⟩

theorem test_transcendentals_met :
    (∃ (s : State) (core : CoreId) (x : XArgs), s.chip.Calm ∧ s.chip.ready core = true ∧ xOk .log2 x = true) ∧
    (∃ (s : State) (core : CoreId) (x : XArgs), s.chip.Calm ∧ s.chip.ready core = true ∧ xOk .exp2 x = true) ∧
    (∃ (s : State) (core : CoreId) (x : XArgs), s.chip.Calm ∧ s.chip.ready core = true ∧ xOk .sincos x = true ∧
      x.md = 1) ∧
    (∃ (s : State) (core : CoreId) (x : XArgs), s.chip.Calm ∧ s.chip.ready core = true ∧ xOk .sincos x = true ∧
      x.md = 2) ∧
    (∃ (s : State) (core : CoreId) (x : XArgs), s.chip.Calm ∧ s.chip.ready core = true ∧ xOk .sincos x = true ∧
      x.md ≠ 1 ∧ x.md ≠ 2) ∧
    (∃ (s : State) (core : CoreId) (x : XArgs), s.chip.Calm ∧ s.chip.ready core = true ∧ xOk .tanh x = true) ∧
    (∃ (a : Nat), 0 < a ∧ a < 2 ^ 32) ∧
    (∃ (a : Word), a ≠ 0) ∧
    (∃ (a : Word), 7 * 2 ^ 24 ≤ a.toInt) ∧
    (∃ (a : Word), a.toInt < 7 * 2 ^ 24) :=
  ⟨
    ⟨eng3, 3, ⟨8, 0, 0, 0⟩, by decide +kernel, by decide +kernel, by decide +kernel⟩,
    ⟨eng3, 3, ⟨8, 0, 0, 0⟩, by decide +kernel, by decide +kernel, by decide +kernel⟩,
    ⟨eng3, 3, ⟨8, 1, 0, 1⟩, by decide +kernel, by decide +kernel, by decide +kernel, by decide +kernel⟩,
    ⟨eng3, 3, ⟨8, 1, 0, 2⟩, by decide +kernel, by decide +kernel, by decide +kernel, by decide +kernel⟩,
    ⟨eng3, 3, ⟨8, 1, 9, 0⟩, by decide +kernel, by decide +kernel, by decide +kernel, by decide +kernel,
            by decide +kernel⟩,
    ⟨eng3, 3, ⟨8, 1, 0, 0⟩, by decide +kernel, by decide +kernel, by decide +kernel⟩,
    ⟨0xFFFFFFFF, by decide +kernel, by decide +kernel⟩,
    ⟨0x80000000, by decide +kernel⟩,
    ⟨0x7FFFFFFF, by decide +kernel⟩,
    ⟨0x06FFFFFF, by decide +kernel⟩⟩

theorem test_generators_met :
    (∃ (s : State) (core : CoreId) (x : XArgs), s.chip.Calm ∧ s.chip.ready core = true ∧ xOk .noise x = true ∧
      (x.md = 0 ∨ x.md = 3)) ∧
    (∃ (s : State) (core : CoreId) (x : XArgs), s.chip.Calm ∧ s.chip.ready core = true ∧ xOk .noise x = true ∧
      x.md = 1) ∧
    (∃ (s : State) (core : CoreId) (x : XArgs), s.chip.Calm ∧ s.chip.ready core = true ∧ xOk .noise x = true ∧
      x.md = 2) ∧
    (∃ (s : State) (core : CoreId) (x : XArgs), s.chip.Calm ∧ s.chip.ready core = true ∧ xOk .rand x = true) ∧
    (∃ (s : State) (core : CoreId) (x : XArgs), s.chip.Calm ∧ s.chip.ready core = true ∧ xOk .seed x = true) ∧
    (∃ (s : State) (core : CoreId) (x : XArgs), s.chip.Calm ∧ s.chip.ready core = true ∧ xOk .getstate x = true) :=
  ⟨
    ⟨eng3, 3, ⟨8, 0, 0, 0⟩, by decide +kernel, by decide +kernel, by decide +kernel, by decide +kernel⟩,
    ⟨eng3, 3, ⟨8, 0, 0, 1⟩, by decide +kernel, by decide +kernel, by decide +kernel, by decide +kernel⟩,
    ⟨eng3, 3, ⟨8, 0, 0, 2⟩, by decide +kernel, by decide +kernel, by decide +kernel, by decide +kernel⟩,
    ⟨eng3, 3, ⟨8, 0, 1, 0⟩, by decide +kernel, by decide +kernel, by decide +kernel⟩,
    ⟨eng3, 3, ⟨0, 1, 0, 1⟩, by decide +kernel, by decide +kernel, by decide +kernel⟩,
    ⟨eng3, 3, ⟨8, 0, 0, 1⟩, by decide +kernel, by decide +kernel, by decide +kernel⟩⟩

theorem test_interpolation_met :
    (∃ (s : State) (core : CoreId) (x : XArgs), s.chip.Calm ∧ s.chip.ready core = true ∧ xOk .interp4 x = true ∧
      (x.md = 0 ∨ x.md = 3)) ∧
    (∃ (s : State) (core : CoreId) (x : XArgs), s.chip.Calm ∧ s.chip.ready core = true ∧ xOk .interp4 x = true ∧
      x.md = 1) ∧
    (∃ (s : State) (core : CoreId) (x : XArgs), s.chip.Calm ∧ s.chip.ready core = true ∧ xOk .interp4 x = true ∧
      x.md = 2) ∧
    (∃ (s : State) (core : CoreId) (x : XArgs), s.chip.Calm ∧ s.chip.ready core = true ∧ xOk .interp6 x = true) :=
  ⟨
    ⟨engY, 3, ⟨12, 8, 1, 0⟩, by decide +kernel, by decide +kernel, by decide +kernel, by decide +kernel⟩,
    ⟨engY, 3, ⟨12, 8, 1, 1⟩, by decide +kernel, by decide +kernel, by decide +kernel, by decide +kernel⟩,
    ⟨engY, 3, ⟨12, 8, 1, 2⟩, by decide +kernel, by decide +kernel, by decide +kernel, by decide +kernel⟩,
    ⟨engY, 3, ⟨14, 8, 1, 0⟩, by decide +kernel, by decide +kernel, by decide +kernel⟩⟩

theorem test_windowAndCalls_met :
    (∃ (s : State) (core : CoreId), s.chip.Calm ∧ s.chip.ready core = true) ∧
    (∃ (s : State) (core : CoreId) (arg : BitVec 24) (wb : Nat), s.chip.Calm ∧ s.chip.ready core = true ∧
      (wb : Int) = ((s.chip.core core).wb + 8 * (BitVec.ofNat 6 arg.toNat).toInt) % (pfSize core : Int)) ∧
    (∃ (s : State) (core : CoreId) (arg : BitVec 24) (target : Nat) (wb : Nat), s.chip.Calm ∧
      s.chip.ready core = true ∧
      target = wrapPc core ((s.chip.core core).pc + 4 * (BitVec.ofNat 22 arg.toNat).toInt) ∧
      wb = ((s.chip.core core).wb + 8 * max 1 (bits arg.toNat 23 22)) % pfSize core ∧
      Chip.executable core target = true) ∧
    (∃ (s : State) (core : CoreId) (a : Nat) (wb : Nat) (rest : List (Nat × Nat)), s.chip.Calm ∧
      s.chip.ready core = true ∧ (s.chip.core core).stack = (a, wb) :: rest ∧ Chip.executable core a = true) ∧
    (∃ (s : State) (core : CoreId), s.chip.Calm ∧ s.chip.ready core = true ∧ (s.chip.core core).stack = []) ∧
    (∃ (s : State) (core : CoreId) (arg : BitVec 24) (g : Bool) (n : Nat), s.chip.Calm ∧ s.chip.ready core = true ∧
      n = (if g = true then (s.chip.core core).rd core (bits arg.toNat 2 0) % 4096 else bits arg.toNat 11 0)) ∧
    (∃ (s : State) (core : CoreId) (x : Xfer), s.chip.Calm ∧ s.chip.issues core = true ∧
      (s.chip.core core).flights.isEmpty = true ∧ (s.chip.core core).xfer = some x ∧
      (s.chip.core core).repOn = false) ∧
    (∃ (s : State) (core : CoreId), s.chip.Calm ∧ s.chip.issues core = true ∧
      (s.chip.core core).flights.isEmpty = true ∧ (s.chip.core core).xfer = none ∧ (s.chip.core core).repOn = true) ∧
    (∃ (s : State) (core : CoreId), s.chip.Calm ∧ s.chip.ready core = true ∧ core.val < 10) :=
  ⟨
    ⟨eng3, 3, by decide +kernel, by decide +kernel⟩,
    ⟨eng3, 3, 1, 8, by decide +kernel, by decide +kernel, by decide +kernel⟩,
    ⟨eng3, 3, 0x800010, 64, 16, by decide +kernel, by decide +kernel, by decide +kernel, by decide +kernel,
            by decide +kernel⟩,
    ⟨(alter eng3 fun c => c.modCore 3 fun k => { k with stack := [(128, 8)] }), 3, 128, 8, [], by decide +kernel,
            by decide +kernel, by decide +kernel, by decide +kernel⟩,
    ⟨eng3, 3, by decide +kernel, by decide +kernel, by decide +kernel⟩,
    ⟨eng3, 3, 1, true, 5, by decide +kernel, by decide +kernel, by decide +kernel⟩,
    ⟨engX, 3, ⟨some 64, 8, some 0, false, 32⟩, by decide +kernel, by decide +kernel, by decide +kernel,
            by decide +kernel, by decide +kernel⟩,
    ⟨engR, 3, by decide +kernel, by decide +kernel, by decide +kernel, by decide +kernel, by decide +kernel⟩,
    ⟨eng3, 3, by decide +kernel, by decide +kernel, by decide +kernel⟩⟩

theorem test_branches_met :
    (∃ (s : State) (core : CoreId) (x : BArgs), s.chip.Calm ∧ s.chip.ready core = true ∧
      (core.val < 10 → s.chip.bundleRegion core (s.chip.core core).pc = false) ∧
      Chip.executable core (wrapPc core ((s.chip.core core).pc + 2 * x.off.toInt)) = true) ∧
    (∃ (s : State) (core : CoreId) (x : BArgs), s.chip.Calm ∧ s.chip.ready core = true ∧
      (core.val < 10 → s.chip.bundleRegion core (s.chip.core core).pc = false) ∧ isGpr x.rs.toNat = true ∧
      Chip.executable core (wrapPc core ((s.chip.core core).pc + 2 * x.off.toInt)) = true) ∧
    (∃ (s : State) (core : CoreId) (x : BArgs), s.chip.Calm ∧ s.chip.ready core = true ∧
      (core.val < 10 → s.chip.bundleRegion core (s.chip.core core).pc = false) ∧ isGpr x.rs.toNat = true ∧
      Chip.executable core (wrapPc core ((s.chip.core core).pc + 2 * x.off.toInt)) = true) ∧
    (∃ (s : State) (core : CoreId) (x : BArgs), s.chip.Calm ∧ s.chip.ready core = true ∧
      (core.val < 10 → s.chip.bundleRegion core (s.chip.core core).pc = false) ∧ isGpr x.rs.toNat = true ∧
      Chip.executable core (wrapPc core ((s.chip.core core).pc + 2 * x.off.toInt)) = true) ∧
    (∃ (s : State) (core : CoreId) (x : BArgs), s.chip.Calm ∧ s.chip.ready core = true ∧
      (core.val < 10 → s.chip.bundleRegion core (s.chip.core core).pc = false) ∧ isGpr x.rs.toNat = true ∧
      Chip.executable core (wrapPc core ((s.chip.core core).pc + 2 * x.off.toInt)) = true) ∧
    (∃ (s : State) (core : CoreId) (x : BArgs), s.chip.Calm ∧ s.chip.ready core = true ∧
      (core.val < 10 → s.chip.bundleRegion core (s.chip.core core).pc = false) ∧ isGpr x.rs.toNat = true ∧
      Chip.executable core (wrapPc core ((s.chip.core core).pc + 2 * x.off.toInt)) = true) ∧
    (∃ (s : State) (core : CoreId) (x : BArgs), s.chip.Calm ∧ s.chip.ready core = true ∧
      (core.val < 10 → s.chip.bundleRegion core (s.chip.core core).pc = false) ∧ isGpr x.rs.toNat = true ∧
      Chip.executable core (wrapPc core ((s.chip.core core).pc + 2 * x.off.toInt)) = true) ∧
    (∃ (s : State) (core : CoreId) (x : BArgs), s.chip.Calm ∧ s.chip.ready core = true ∧
      (core.val < 10 → s.chip.bundleRegion core (s.chip.core core).pc = false) ∧ isGpr x.rs.toNat = true ∧
      Chip.executable core (wrapPc core ((s.chip.gpr core x.rs.toNat).toNat / 2 * 2 : Nat)) = true) ∧
    (∃ (s : State) (core : CoreId) (x : BArgs), s.chip.Calm ∧ s.chip.ready core = true ∧
      (core.val < 10 → s.chip.bundleRegion core (s.chip.core core).pc = false) ∧ isGpr x.rs.toNat = true ∧
      Chip.executable core (wrapPc core ((s.chip.core core).pc + 2 * x.off.toInt)) = true) :=
  ⟨
    ⟨eng3c, 3, ⟨0, 0x10⟩, by decide +kernel, by decide +kernel, by decide +kernel, by decide +kernel⟩,
    ⟨eng3c, 3, ⟨0, 0x10⟩, by decide +kernel, by decide +kernel, by decide +kernel, by decide +kernel,
            by decide +kernel⟩,
    ⟨eng3c, 3, ⟨0, 0x10⟩, by decide +kernel, by decide +kernel, by decide +kernel, by decide +kernel,
            by decide +kernel⟩,
    ⟨eng3c, 3, ⟨0, 0x10⟩, by decide +kernel, by decide +kernel, by decide +kernel, by decide +kernel,
            by decide +kernel⟩,
    ⟨eng3c, 3, ⟨0, 0x10⟩, by decide +kernel, by decide +kernel, by decide +kernel, by decide +kernel,
            by decide +kernel⟩,
    ⟨eng3c, 3, ⟨0, 0x10⟩, by decide +kernel, by decide +kernel, by decide +kernel, by decide +kernel,
            by decide +kernel⟩,
    ⟨eng3c, 3, ⟨0, 0x10⟩, by decide +kernel, by decide +kernel, by decide +kernel, by decide +kernel,
            by decide +kernel⟩,
    ⟨eng3c, 3, ⟨0, 0x10⟩, by decide +kernel, by decide +kernel, by decide +kernel, by decide +kernel,
            by decide +kernel⟩,
    ⟨eng3c, 3, ⟨0, 0x10⟩, by decide +kernel, by decide +kernel, by decide +kernel, by decide +kernel,
            by decide +kernel⟩⟩

theorem test_trapsOfTheCores_met :
    (∃ (s : State) (core : CoreId), s.chip.Calm ∧ 10 ≤ core.val ∧ s.chip.domOn core = true ∧
      (s.chip.auxOf core).run ≠ .stopped ∧ s.chip.interruptDue core = true) ∧
    (∃ (s : State) (core : CoreId), s.chip.Calm ∧ (s.chip.interruptDue core = false ∨ core.val < 10)) ∧
    (∃ (s : State) (core : CoreId), s.chip.Calm ∧ 10 ≤ core.val ∧ s.chip.ready core = true ∧ s.chip.runlvl core < 9) ∧
    (∃ (s : State) (core : CoreId) (n : Nat) (f : Word), s.chip.Calm ∧ 10 ≤ core.val ∧ s.chip.ready core = true ∧
      s.chip.runlvl core = n ∧ 0 < n ∧ s.chip.reg (Reg.CORE_RSAVE n + bankOf core) = f) ∧
    (∃ (s : State) (core : CoreId), s.chip.Calm ∧ 10 ≤ core.val ∧ s.chip.ready core = true) :=
  ⟨
    ⟨cpIrq, 10, by decide +kernel, by decide +kernel, by decide +kernel, by decide +kernel, by decide +kernel⟩,
    ⟨cpRun, 10, by decide +kernel, by decide +kernel⟩,
    ⟨cpRun, 10, by decide +kernel, by decide +kernel, by decide +kernel, by decide +kernel⟩,
    ⟨cpTrap, 10, 3, (BitVec.ofNat 32 (2 ^ 27 + 5 * 2 ^ 14 + 40 * 128 + 8)), by decide +kernel, by decide +kernel,
            by decide +kernel, by decide +kernel, by decide +kernel, by decide +kernel⟩,
    ⟨cpRun, 10, by decide +kernel, by decide +kernel, by decide +kernel⟩⟩

theorem test_bundleIssue_met :
    (∃ (s : State) (i : Instr) (core : CoreId) (sy : Syl) (w : Word), s.chip.ready core = true ∧ core.val < 10 ∧
      s.chip.bundleRegion core (s.chip.core core).pc = true ∧
      s.chip.peek (engBase core + (s.chip.core core).pc) = w ∧
      s.chip.eccOf (engBase core + (s.chip.core core).pc) = 0 ∧ sylStop w = true ∧ decodeSyl w = sy ∧
      opRow i = some (core, sy)) ∧
    (∃ (s : State) (i : Instr) (core : CoreId) (sy : Syl), s.chip.ready core = true ∧
      (core.val < 10 → s.chip.bundleRegion core (s.chip.core core).pc = false ∧
          s.chip.fetchEcc core
            [((s.chip.core core).pc / 4 * 4, 0), (((s.chip.core core).pc + 2) / 4 * 4 % 262144, 0)] = 0) ∧
      (10 ≤ core.val → Chip.executable core (s.chip.core core).pc = true ∧
          Chip.executable core ((s.chip.core core).pc + 2) = true ∧
          s.chip.eccOf ((s.chip.core core).pc / 4 * 4) = 0 ∧ s.chip.eccOf (((s.chip.core core).pc + 2) / 4 * 4) = 0)
        ∧ s.chip.fetchCompact core (s.chip.core core).pc = (.syl sy, 4) ∧ opRow i = some (core, sy)) :=
  ⟨
    ⟨(engB 0x90010420), (.add 3 ⟨1, 0x0420⟩), 3, (.a .add ⟨1, 0x0420⟩), 0x90010420, by decide +kernel,
            by decide +kernel, by decide +kernel, by decide +kernel, by decide +kernel, by decide +kernel,
            by decide +kernel, by decide +kernel⟩,
    ⟨(engC 0x00041083), (.add 3 ⟨1, 0x0420⟩), 3, (.a .add ⟨1, 0x0420⟩), by decide +kernel, by decide +kernel,
            by decide +kernel, by decide +kernel, by decide +kernel⟩⟩

theorem test_undefinedOperation_met :
    (∃ (s : State) (core : CoreId) (x : AArgs), s.chip.Calm ∧ s.chip.ready core = true ∧ aOk core .add x = false ∧
      isGpr x.rd.toNat = true ∧ core.val < 10 ∧ s.chip.bundleRegion core (s.chip.core core).pc = true) ∧
    (∃ (s : State) (core : CoreId) (x : AArgs), s.chip.Calm ∧ s.chip.ready core = true ∧ aOk core .add x = false ∧
      core.val < 10 ∧ s.chip.bundleRegion core (s.chip.core core).pc = false) ∧
    (∃ (s : State) (core : CoreId) (x : AArgs), s.chip.Calm ∧ s.chip.ready core = true ∧ aOk core .add x = false ∧
      10 ≤ core.val ∧ s.chip.runlvl core < 9) :=
  ⟨
    ⟨eng3, 3, ⟨8, 0x0240⟩, by decide +kernel, by decide +kernel, by decide +kernel, by decide +kernel,
            by decide +kernel, by decide +kernel⟩,
    ⟨eng3c, 3, ⟨8, 0x0240⟩, by decide +kernel, by decide +kernel, by decide +kernel, by decide +kernel,
            by decide +kernel⟩,
    ⟨cpRun, 10, ⟨8, 0x0240⟩, by decide +kernel, by decide +kernel, by decide +kernel, by decide +kernel,
            by decide +kernel⟩⟩

/-! ### Memories and registers over the bus -/

/-- Words in CP RAM, serai and an engine's program memory; external memory is trained. -/
def memSt : State :=
  alter (fs [(F.DDR_STATUS_READY, 1)]) fun c => (((c.setRaw 0x10000100 0x12345678).setRaw 0x20000040 0x89ABCDEF).pokeDdr 0x44 15 0x55667788)
/-- The latest write of serai, and of an engine. -/
def met1 (x : Wrote) : State := alter memSt fun c => { c with strm := { c.strm with last := some x } }
def met2 (p : Nat) (x : Wrote) : State :=
  alter memSt fun c => ({ c with sec := { c.sec with open_ := true } }).modAux p fun y => { y with lastStore := some x }
/-- External memory in training, or trained; the streamer of a tap with one burst. -/
def ddrOn (l : List (Field × Nat)) : State := alter (fs ((F.DDR_STATUS_READY, 1) :: l)) fun c => { c with strm := { c.strm with cfg := 0x1000 } }
def strmB (d : Option Int) : State := alter (ddrOn []) fun c => { c with strm := { c.strm with bursts := [⟨5, 1, 3, d⟩], streams := [(5, { d2 := [(0, 0xC0000000), (1, 64), (4, 64)] })] } }

theorem test_busMemory_met :
    (∃ (s : State) (m : Master) (a : BitVec 32) (k : Nat) (p : Nat), s.chip.Calm ∧
      s.chip.finds m (a.toNat / 4 * 4) false = true ∧
      (s.chip.place (if m = .debug then mDbg else m.id) (a.toNat / 4 * 4) = .sram p k ∨ s.chip.place
            (if m = .debug then mDbg else m.id) (a.toNat / 4 * 4) = .serai k ∨ s.chip.place
            (if m = .debug then mDbg else m.id) (a.toNat / 4 * 4) = .prog p k ∨ s.chip.place
            (if m = .debug then mDbg else m.id) (a.toNat / 4 * 4) = .delay p k ∨ s.chip.place
            (if m = .debug then mDbg else m.id) (a.toNat / 4 * 4) = .relay p k ∨ s.chip.place
            (if m = .debug then mDbg else m.id) (a.toNat / 4 * 4) = .inputs p k ∨ s.chip.place
            (if m = .debug then mDbg else m.id) (a.toNat / 4 * 4) = .rom k) ∧
      (s.chip.eccOf k = 0 ∨ s.chip.place (if m = .debug then mDbg else m.id) (a.toNat / 4 * 4) = .rom k)) ∧
    (∃ (s : State) (m : Master) (a : BitVec 32) (k : Nat) (p : Nat), s.chip.Calm ∧
      s.chip.finds m (a.toNat / 4 * 4) true = true ∧
      (s.chip.place (if m = .debug then mDbg else m.id) (a.toNat / 4 * 4) = .sram p k ∨ s.chip.place
            (if m = .debug then mDbg else m.id) (a.toNat / 4 * 4) = .serai k ∨ (s.chip.place
                (if m = .debug then mDbg else m.id) (a.toNat / 4 * 4) = .prog p k ∨ s.chip.place
                (if m = .debug then mDbg else m.id) (a.toNat / 4 * 4) = .relay p k) ∧
          s.chip.locked73 p = false ∨ s.chip.place (if m = .debug then mDbg else m.id) (a.toNat / 4 * 4) = .delay p
            k ∧ (s.chip.auxOf p).journal = [])) ∧
    (∃ (s : State) (m : Master) (a : BitVec 32) (k : Nat) (x : Wrote), s.chip.Calm ∧
      s.chip.finds m (a.toNat / 4 * 4) true = true ∧
      s.chip.place (if m = .debug then mDbg else m.id) (a.toNat / 4 * 4) = .serai k ∧ a.toNat % 4 = 0 ∧
      s.chip.strm.last = some x ∧ x.addr = k) ∧
    (∃ (s : State) (m : Master) (a : BitVec 32) (k : Nat) (p : Fin 10) (x : Wrote), s.chip.Calm ∧
      s.chip.finds m (a.toNat / 4 * 4) true = true ∧
      (s.chip.place (if m = .debug then mDbg else m.id) (a.toNat / 4 * 4) = .relay p k ∧
          s.chip.locked73 p = false ∨ s.chip.place (if m = .debug then mDbg else m.id) (a.toNat / 4 * 4) = .delay p
            k ∧ (s.chip.auxOf p).journal = []) ∧ a.toNat % 4 = 0 ∧ (s.chip.auxOf p).lastStore = some x ∧
      x.addr = k ∧ x.rank = 2) ∧
    (∃ (s : State) (m : Master) (a : BitVec 32) (k : Nat) (p : Nat), s.chip.Calm ∧
      s.chip.finds m (a.toNat / 4 * 4) true = true ∧
      (s.chip.place (if m = .debug then mDbg else m.id) (a.toNat / 4 * 4) = .rom k ∨ s.chip.place
            (if m = .debug then mDbg else m.id) (a.toNat / 4 * 4) = .inputs p k ∨ (s.chip.place
                (if m = .debug then mDbg else m.id) (a.toNat / 4 * 4) = .prog p k ∨ s.chip.place
                (if m = .debug then mDbg else m.id) (a.toNat / 4 * 4) = .relay p k) ∧ s.chip.locked73 p = true)) ∧
    (∃ (s : State) (m : Master) (a : BitVec 32) (data : Option Word), s.chip.Calm ∧ m ≠ .debug ∧
      s.chip.finds m (a.toNat / 4 * 4) data.isSome = false) ∧
    (∃ (s : State) (m : Master) (off : BitVec 31) (e : Nat), s.chip.Calm ∧
      s.chip.finds m ((2 ^ 31 + off.toNat) / 4 * 4) true = true ∧
      s.chip.place (if m = .debug then mDbg else m.id) ((2 ^ 31 + off.toNat) / 4 * 4) = .ext e) ∧
    (∃ (s : State) (m : Master) (off : BitVec 31) (link : Fin 3) (e : Nat), s.chip.Calm ∧
      s.chip.finds m ((2 ^ 31 + off.toNat) / 4 * 4) false = true ∧
      s.chip.place (if m = .debug then mDbg else m.id) ((2 ^ 31 + off.toNat) / 4 * 4) = .ext e ∧
      (s.chip.linkEcc = false ∨ link = 0)) ∧
    (∃ (s : State) (m : Master) (off : BitVec 31) (e : Nat), s.chip.Calm ∧
      s.chip.finds m ((2 ^ 31 + off.toNat) / 4 * 4) false = true ∧
      s.chip.place (if m = .debug then mDbg else m.id) ((2 ^ 31 + off.toNat) / 4 * 4) = .ext e ∧
      s.chip.linkEcc = true) :=
  ⟨
    ⟨memSt, .cp, 0x10000102, 0x10000100, 10, by decide +kernel, by decide +kernel, by decide +kernel,
            by decide +kernel⟩,
    ⟨memSt, .cp, 0x10000102, 0x10000100, 10, by decide +kernel, by decide +kernel, by decide +kernel⟩,
    ⟨(met1 ⟨0x20000040, 15, 2⟩), .cp, 0x20000040, 0x20000040, ⟨0x20000040, 15, 2⟩, by decide +kernel,
            by decide +kernel, by decide +kernel, by decide +kernel, by decide +kernel, by decide +kernel⟩,
    ⟨(met2 3 ⟨0x30C40010, 15, 2⟩), .cp, 0x30C40010, 0x30C40010, 3, ⟨0x30C40010, 15, 2⟩, by decide +kernel,
            by decide +kernel, by decide +kernel, by decide +kernel, by decide +kernel, by decide +kernel,
            by decide +kernel⟩,
    ⟨memSt, .secp, 0x100, 0x100, 0, by decide +kernel, by decide +kernel, by decide +kernel⟩,
    ⟨memSt, .cp, 0x18000000, none, by decide +kernel, by decide +kernel, by decide +kernel⟩,
    ⟨memSt, .cp, 0x46, 0x44, by decide +kernel, by decide +kernel, by decide +kernel⟩,
    ⟨memSt, .cp, 0x46, 0, 0x44, by decide +kernel, by decide +kernel, by decide +kernel, by decide +kernel⟩,
    ⟨(alter memSt fun c => { c with strm := { c.strm with cfg := 0x1000 } }), .cp, 0x46, 0x44, by decide +kernel,
            by decide +kernel, by decide +kernel, by decide +kernel⟩⟩

theorem test_coefficientWrites_met :
    (∃ (s : State) (m : Master) (p : Fin 10) (w : BitVec 15), s.chip.Calm ∧
      s.chip.finds m (engBase p + 0x100000 + 4 * w.toNat) true = true ∧ s.chip.frontRefused p w.toNat = false) ∧
    (∃ (s : State) (m : Master) (p : Fin 10) (w : BitVec 15), s.chip.Calm ∧
      s.chip.finds m (engBase p + 0x100000 + 4 * w.toNat) true = true ∧ s.chip.frontRefused p w.toNat = true) ∧
    (∃ (s : State) (m : Master) (p : Fin 10) (w : BitVec 15), s.chip.Calm ∧
      s.chip.finds m (engBase p + 0x120000 + 4 * w.toNat) true = true ∧ s.chip.panRefused p = false) ∧
    (∃ (s : State) (m : Master) (p : Fin 10) (w : BitVec 15), s.chip.Calm ∧
      s.chip.finds m (engBase p + 0x120000 + 4 * w.toNat) true = true ∧ s.chip.panRefused p = true) :=
  ⟨
    ⟨(fs [(F.PAN_ROLE_FRONT,8)]), .cp, 3, 32767, by decide +kernel, by decide +kernel, by decide +kernel⟩,
    ⟨(fs [(F.ENG_STATUS_STATE 3,4)]), .secp, 3, 5, by decide +kernel, by decide +kernel, by decide +kernel⟩,
    ⟨(fs [(F.PAN_ROLE_FRONT,8)]), .cp, 3, 32767, by decide +kernel, by decide +kernel, by decide +kernel⟩,
    ⟨(fs [(F.SWAP_CTRL_ARMED 1,1),(F.SWAP_CTRL_MASK 1,8)]), .cp, 3, 5, by decide +kernel, by decide +kernel,
            by decide +kernel⟩⟩

theorem test_registerAccess_met :
    (∃ (s : State) (m : Master) (a : BitVec 32) (r : RegRow), s.chip.Calm ∧
      a.toNat ∈ [Reg.DDR_CFG, Reg.STRM_SEL, Reg.STRM_AT_LO, Reg.STRM_STATUS, Reg.DDR_STATUS, Reg.STC_ALARM_LO,
            Reg.TICK_CHANGE_AT_LO, Reg.SPARE_CFG, Reg.REPLAY_CFG, Reg.REPLAY_STATUS, Reg.SERAI_SCRUB] ∧
      s.chip.writes m a.toNat = true ∧ Reg.row a.toNat = some r) ∧
    (∃ (s : State) (m : Master) (a : BitVec 32) (r : RegRow), s.chip.Calm ∧ (m = .secp ∨ m = .cp) ∧
      a.toNat % 4 = 0 ∧ s.chip.reads m a.toNat = true ∧ Reg.row a.toNat = some r ∧ r.rc ≠ 0 ∧ a.toNat ≥ 0x30000000 ∧
      s.chip.place m.id a.toNat = .reg a.toNat) :=
  ⟨
    ⟨(fs []), .cp, (BitVec.ofNat 32 Reg.DDR_CFG), ((Reg.row Reg.DDR_CFG).getD { base := 0, dom := .cp }),
            by decide +kernel, by decide +kernel, by decide +kernel, by decide +kernel⟩,
    ⟨(fs [(F.DDR_ECC_CNT_CE_CNT,3)]), .cp, (BitVec.ofNat 32 Reg.DDR_ECC_CNT),
            ((Reg.row Reg.DDR_ECC_CNT).getD { base := 0, dom := .cp }), by decide +kernel, by decide +kernel,
            by decide +kernel, by decide +kernel, by decide +kernel, by decide +kernel, by decide +kernel,
            by decide +kernel⟩⟩

theorem test_eccAndScrub_met :
    (∃ (s : State) (a : BitVec 32) (k : Nat), s.chip.Calm ∧
      (((List.range 12).find? fun j => (s.chip.auxOf j).fix.contains a.toNat) = some k) ∧ s.chip.eccOf a.toNat = 1) ∧
    (∃ (s : State) (p : Fin 10) (bank : Fin 25), s.chip.Calm ∧ s.chip.domOn p = true ∧
      s.chip.fld (F.ENG_SCRUB_RATE p) ≠ 0 ∧
      s.chip.eccOf (Chip.scrubAddr p bank (s.chip.scrubbed (p.val * 32 + bank.val) % Chip.scrubRows bank)) = 0) ∧
    (∃ (s : State) (p : Fin 10), s.chip.Calm ∧ s.chip.fld (F.ENG_SCRUB_RATE p) = 0) ∧
    (∃ (s : State) (bank : Fin 32) (k : Nat), s.chip.Calm ∧ s.chip.seraiState bank = 0 ∧
      s.chip.fld F.SERAI_SCRUB_RATE ≠ 0 ∧ k = s.chip.scrubbed (512 + bank.val) ∧
      s.chip.eccOf (seraiAddr (bank.val / 8 * 2 ^ 20 + k % 131072 * 8 + bank.val % 8)) = 0) ∧
    (∃ (s : State) (p : Fin 10) (e : WEntry) (rest : List WEntry), s.chip.Calm ∧ (s.chip.auxOf p).wbuf = e :: rest ∧
      s.chip.tick.phase ≠ .p1 ∧ s.chip.seraiBankOn (seraiAddr e.word) = true) :=
  ⟨
    ⟨(alter (fs []) fun c => (c.setEcc 0x30040000 1).modAux 0 fun x => { x with fix := [0x30040000] }), 0x30040000,
            0, by decide +kernel, by decide +kernel, by decide +kernel⟩,
    ⟨(fs [(F.ENG_SCRUB_RATE 3,2)]), 3, 4, by decide +kernel, by decide +kernel, by decide +kernel, by decide +kernel⟩,
    ⟨(fs [(F.ENG_SCRUB_RATE 2,0)]), 2, by decide +kernel, by decide +kernel⟩,
    ⟨(fs [(F.SERAI_SCRUB_RATE,2)]), 3, 0, by decide +kernel, by decide +kernel, by decide +kernel,
            by decide +kernel, by decide +kernel⟩,
    ⟨(alter (fs []) fun c => c.modAux 2 fun x => { x with wbuf := [⟨0, 5, 15, 77, 1⟩] }), 2, ⟨0, 5, 15, 77, 1⟩, [],
            by decide +kernel, by decide +kernel, by decide +kernel, by decide +kernel⟩⟩

theorem test_externalMemory_met :
    (∃ (s : State) (m : Master), s.chip.Calm ∧ s.chip.writes m Reg.DDR_CTRL = true ∧
      s.chip.bit F.STRM_CFG_EN = false) ∧
    (∃ (s : State) (m : Master), s.chip.Calm ∧ s.chip.writes m Reg.DDR_CTRL = true ∧ s.chip.bit F.STRM_CFG_EN = true) ∧
    (∃ (s : State), s.chip.Calm ∧ s.chip.strm.training = true) ∧
    (∃ (s : State), s.chip.Calm) ∧
    (∃ (s : State), s.chip.Calm ∧ s.chip.domOn 16 = true ∧ s.chip.bit F.DDR_STATUS_READY = true) ∧
    (∃ (s : State) (b : Burst) (q : Int), s.chip.Calm ∧ s.chip.domOn 16 = true ∧
      s.chip.bit F.DDR_STATUS_READY = true ∧ s.chip.nextBurst = some b ∧ b.drain = some q) ∧
    (∃ (s : State) (b : Burst), s.chip.Calm ∧ s.chip.domOn 16 = true ∧ s.chip.bit F.DDR_STATUS_READY = true ∧
      s.chip.nextBurst = some b ∧ b.drain = none ∧ s.chip.linkEcc = true) ∧
    (∃ (s : State) (b : Burst), s.chip.Calm ∧ s.chip.domOn 16 = true ∧ s.chip.bit F.DDR_STATUS_READY = true ∧
      s.chip.nextBurst = some b ∧ b.drain = none) :=
  ⟨
    ⟨(ddrOn []), .cp, by decide +kernel, by decide +kernel, by decide +kernel⟩,
    ⟨(ddrOn [(F.STRM_CFG_EN,1)]), .secp, by decide +kernel, by decide +kernel, by decide +kernel⟩,
    ⟨(alter (fs []) fun c => { c with strm := { c.strm with training := true } }), by decide +kernel,
            by decide +kernel⟩,
    ⟨(ddrOn []), by decide +kernel⟩,
    ⟨(ddrOn []), by decide +kernel, by decide +kernel, by decide +kernel⟩,
    ⟨(strmB (some 16)), ⟨5, 1, 3, some 16⟩, 16, by decide +kernel, by decide +kernel, by decide +kernel,
            by decide +kernel, by decide +kernel⟩,
    ⟨(strmB none), ⟨5, 1, 3, none⟩, by decide +kernel, by decide +kernel, by decide +kernel, by decide +kernel,
            by decide +kernel, by decide +kernel⟩,
    ⟨(strmB none), ⟨5, 1, 3, none⟩, by decide +kernel, by decide +kernel, by decide +kernel, by decide +kernel,
            by decide +kernel⟩⟩

/-! ### Streamer, swaps, glides -/

/-- The streamer stopped or running with a playback descriptor on stream 7 and a writer's in the staging registers. -/
def strmSt (l : List (Field × Nat)) : State :=
  alter (fs ([(F.STRM_SEL_STREAM, 7), (F.DDR_STATUS_READY, 1)] ++ l)) fun c =>
    (((c.setStream 7 { d2 := [(0, 0x80000000)], missCnt := 9 }).setReg (Reg.STRM_D 0) 0xC0000000).setReg (Reg.STRM_D 4) 64).setReg Reg.STRM_AT_LO 50

theorem test_streamerCommands_met :
    (∃ (s : State) (m : Master), s.chip.Calm ∧ s.chip.writes m Reg.STRM_CMD = true ∧
      s.chip.bit F.STRM_CFG_EN = true ∧ s.chip.strm.queue.length < 64) ∧
    (∃ (s : State) (m : Master), s.chip.Calm ∧ s.chip.writes m Reg.STRM_CMD = true ∧
      s.chip.bit F.STRM_CFG_EN = true ∧ 64 ≤ s.chip.strm.queue.length) ∧
    (∃ (s : State) (m : Master) (d : List (Nat × Word)), s.chip.Calm ∧ s.chip.writes m Reg.STRM_CMD = true ∧
      s.chip.bit F.STRM_CFG_EN = false ∧ (d = (List.range 8).map fun k => (k, s.chip.reg (Reg.STRM_D k))) ∧
      s.chip.loadReject (s.chip.fld F.STRM_SEL_STREAM) d = 0 ∧ (dKind d = 3 ∨ dKind d = 0)) ∧
    (∃ (s : State) (m : Master) (d : List (Nat × Word)) (why : Nat), s.chip.Calm ∧
      s.chip.writes m Reg.STRM_CMD = true ∧ s.chip.bit F.STRM_CFG_EN = false ∧
      (d = (List.range 8).map fun k => (k, s.chip.reg (Reg.STRM_D k))) ∧
      s.chip.loadReject (s.chip.fld F.STRM_SEL_STREAM) d = why ∧ why ≠ 0) ∧
    (∃ (s : State) (m : Master), s.chip.Calm ∧ s.chip.writes m Reg.STRM_CMD = true ∧
      s.chip.bit F.STRM_CFG_EN = false) ∧
    (∃ (s : State) (m : Master), s.chip.Calm ∧ s.chip.writes m Reg.STRM_CMD = true ∧
      s.chip.bit F.STRM_CFG_EN = false ∧ dKind (s.chip.stream (s.chip.fld F.STRM_SEL_STREAM)).d2 = 2) ∧
    (∃ (s : State) (m : Master), s.chip.Calm ∧ s.chip.writes m Reg.STRM_CMD = true ∧
      s.chip.bit F.STRM_CFG_EN = false ∧ dKind (s.chip.stream (s.chip.fld F.STRM_SEL_STREAM)).d2 = 2) ∧
    (∃ (s : State) (m : Master), s.chip.Calm ∧ s.chip.writes m Reg.STRM_CMD = true ∧
      s.chip.bit F.STRM_CFG_EN = false ∧ dKind (s.chip.stream (s.chip.fld F.STRM_SEL_STREAM)).d2 ≠ 2) :=
  ⟨
    ⟨(strmSt [(F.STRM_CFG_EN,1)]), .cp, by decide +kernel, by decide +kernel, by decide +kernel, by decide +kernel⟩,
    ⟨(alter (strmSt [(F.STRM_CFG_EN,1)]) fun c =>
                { c with strm := { c.strm with queue := List.replicate 64 ⟨1, 0, [], 0⟩ } }), .cp,
            by decide +kernel, by decide +kernel, by decide +kernel, by decide +kernel⟩,
    ⟨(strmSt []), .cp, ((List.range 8).map fun k => (k, (strmSt []).chip.reg (Reg.STRM_D k))), by decide +kernel,
            by decide +kernel, by decide +kernel, by decide +kernel, by decide +kernel, by decide +kernel⟩,
    ⟨(alter (strmSt []) fun c => c.setReg (Reg.STRM_D 4) 65), .cp, ((List.range 8).map fun k =>
                (k, (alter (strmSt []) fun c => c.setReg (Reg.STRM_D 4) 65).chip.reg (Reg.STRM_D k))), 6,
            by decide +kernel, by decide +kernel, by decide +kernel, by decide +kernel, by decide +kernel,
            by decide +kernel⟩,
    ⟨(strmSt []), .cp, by decide +kernel, by decide +kernel, by decide +kernel⟩,
    ⟨(strmSt []), .cp, by decide +kernel, by decide +kernel, by decide +kernel, by decide +kernel⟩,
    ⟨(strmSt []), .cp, by decide +kernel, by decide +kernel, by decide +kernel, by decide +kernel⟩,
    ⟨(alter (strmSt []) fun c => c.setStream 7 {}), .cp, by decide +kernel, by decide +kernel, by decide +kernel,
            by decide +kernel⟩⟩

theorem test_swapsAndCopyForward_met :
    (∃ (s : State) (m : Master) (k : Fin 4) (v : Word), s.chip.Calm ∧ s.chip.writes m (Reg.SWAP_CTRL k) = true ∧
      bitAt v.toNat 30 = false ∧ s.chip.armReject k (bits v.toNat 9 0) = 0) ∧
    (∃ (s : State) (m : Master) (k : Fin 4) (v : Word) (why : Nat), s.chip.Calm ∧
      s.chip.writes m (Reg.SWAP_CTRL k) = true ∧ bitAt v.toNat 30 = false ∧
      s.chip.armReject k (bits v.toNat 9 0) = why ∧ why ≠ 0) ∧
    (∃ (s : State) (m : Master) (k : Fin 4) (v : Word), s.chip.Calm ∧ s.chip.writes m (Reg.SWAP_CTRL k) = true ∧
      bitAt v.toNat 31 = false ∧ (s.chip.tick.stage = 0 ∨ s.chip.tick.due.contains k.val = false)) ∧
    (∃ (s : State) (k : Fin 4), s.chip.Calm ∧ s.chip.panOn = true ∧ s.chip.bit (F.SWAP_CTRL_ARMED k) = true ∧
      s.chip.bit (F.SWAP_CTRL_IMM k) = true ∧ s.chip.bit F.TICK_STATUS_RUNNING = false ∧
      s.chip.bit (F.SWAP_CTRL_CF k) = false ∧ ((List.range 10).map s.chip.phys).Nodup) ∧
    (∃ (s : State) (k : Fin 4), s.chip.Calm ∧ s.chip.bit (F.SWAP_CTRL_ARMED k) = false ∧
      s.chip.bit F.TICK_STATUS_RUNNING = false) ∧
    (∃ (s : State) (l : Fin 10) (p : Nat) (w : Nat), s.chip.Calm ∧ s.chip.panOn = true ∧
      s.chip.fbit F.PAN_STATUS_CF_BUSY l = true ∧ s.chip.phys l = p ∧ p < 10 ∧ s.chip.domOn p = true ∧ w < 32768) ∧
    (∃ (s : State) (l : Fin 10), s.chip.Calm ∧ s.chip.fbit F.PAN_STATUS_CF_BUSY l = false) :=
  ⟨
    ⟨(fs [(F.SWAP_CTRL_REASON 2,3)]), .cp, 2, 0x200003FF, by decide +kernel, by decide +kernel, by decide +kernel,
            by decide +kernel⟩,
    ⟨(fs []), .cp, 2, 0, 2, by decide +kernel, by decide +kernel, by decide +kernel, by decide +kernel,
            by decide +kernel⟩,
    ⟨(fs [(F.SWAP_CTRL_ARMED 2,1),(F.SWAP_CTRL_MASK 2,9)]), .cp, 2, 0, by decide +kernel, by decide +kernel,
            by decide +kernel, by decide +kernel⟩,
    ⟨(fs [(F.SWAP_CTRL_ARMED 2,1),(F.SWAP_CTRL_IMM 2,1),(F.SWAP_CTRL_MASK 2,0x209)]), 2, by decide +kernel,
            by decide +kernel, by decide +kernel, by decide +kernel, by decide +kernel, by decide +kernel,
            by decide +kernel⟩,
    ⟨(fs []), 2, by decide +kernel, by decide +kernel, by decide +kernel⟩,
    ⟨(alter (fs [(F.PAN_STATUS_CF_BUSY,8)]) fun c => (c.setRaw (coefAddr 3 0 9) 77).setRaw (coefAddr 3 1 9) 78), 3,
            3, 9, by decide +kernel, by decide +kernel, by decide +kernel, by decide +kernel, by decide +kernel,
            by decide +kernel, by decide +kernel⟩,
    ⟨(fs []), 2, by decide +kernel, by decide +kernel⟩⟩

theorem test_glideChannels_met :
    (∃ (s : State) (m : Master) (ch : Fin 1024), s.chip.Calm ∧ s.chip.writes m (Reg.GLD_CTRL ch) = true) ∧
    (∃ (s : State) (ch : Fin 1024) (n : GldSet), s.chip.Calm ∧ s.chip.tick.phase = .p0 ∧ s.chip.tick.stage = 3 ∧
      s.chip.panOn = true ∧ (s.chip.glide ch).next = some n ∧ Chip.adoptsNow n s.chip.tick.executed = true) :=
  ⟨
    ⟨(fs []), .cp, 5, by decide +kernel, by decide +kernel⟩,
    ⟨(alter (fs []) fun c => { c.setGlide 5 { next := some ⟨0x40030007, 0, 0, false, false⟩ } with
                  tick := { c.tick with phase := .p0, stage := 3 } }), 5, ⟨0x40030007, 0, 0, false, false⟩,
            by decide +kernel, by decide +kernel, by decide +kernel, by decide +kernel, by decide +kernel,
            by decide +kernel⟩⟩

/-! ### Spare engine and tests -/

/-- Engine 2 ticks, engine 9 is the spare. -/
def spareSt : State := fs [(F.SPARE_CFG_EN, 1), (F.SPARE_CFG_SPARE, 9), (F.ENG_STATUS_STATE 2, 4), (F.ENG_STATUS_STATE 9, 6)]

/-- A migration from 2 to the spare in its copy phase. -/
def migSt : State := alter (alter spareSt fun c => c.setFld F.MIG_STATUS_PHASE 1) fun c => { c with spare := { c.spare with mig := some (2, 9) } }
/-- A self-test of engine 4, a loop test of port 1, setup code of engine 3. -/
def bistSt : State := alter (fs [(F.BIST_STATUS_BUSY, 1), (F.BIST_CTRL_MEM, 1), (F.ENG_STATUS_STATE 4, 6)]) fun c => { (c.setRaw (delayAddr 4 3) 77) with spare := { c.spare with bist := some 4 } }
def loopSt (n : Option Nat) : State := alter (fs [(F.LOOP_STATUS_BUSY, 1)]) fun c => { c with spare := { c.spare with loop := some (1, n, false) } }

theorem test_spareMigration_met :
    (∃ (s : State) (m : Master) (v : Word), s.chip.Calm ∧ s.chip.writes m Reg.MIG_CTRL = true ∧
      bitAt v.toNat 30 = false ∧ s.chip.bit F.SPARE_CFG_EN = true ∧ s.chip.fld F.SPARE_CFG_SPARE < 10 ∧
      (s.chip.engState (s.chip.fld F.SPARE_CFG_SPARE) = 0 ∨ s.chip.engState (s.chip.fld F.SPARE_CFG_SPARE) = 6) ∧
      s.chip.domOn (s.chip.fld F.SPARE_CFG_SPARE) = true ∧ bits v.toNat 19 16 < 10 ∧
      s.chip.inTick (s.chip.phys (bits v.toNat 19 16)) = true ∧
      s.chip.phys (bits v.toNat 19 16) ≠ s.chip.fld F.SPARE_CFG_SPARE) ∧
    (∃ (s : State) (m : Master) (v : Word), s.chip.Calm ∧ s.chip.writes m Reg.MIG_CTRL = true ∧
      bitAt v.toNat 30 = false ∧
      (s.chip.bit F.SPARE_CFG_EN = false ∨ 9 < s.chip.fld F.SPARE_CFG_SPARE ∨ s.chip.domOn
            (s.chip.fld F.SPARE_CFG_SPARE) = false)) ∧
    (∃ (s : State) (m : Master) (v : Word) (src : Nat) (sp : Nat), s.chip.spare.mig = some (src, sp) ∧
      s.chip.mbWake = 0 ∧ s.chip.fuseDue = 0 ∧ s.chip.writes m Reg.MIG_CTRL = true ∧ bitAt v.toNat 31 = false ∧
      s.chip.domOn sp = true ∧ sp < 10) ∧
    (∃ (s : State) (m : Master) (v : Word), s.chip.Calm ∧ s.chip.writes m Reg.MIG_CTRL = true ∧
      bitAt v.toNat 31 = false) ∧
    (∃ (s : State) (src : Nat) (sp : Nat) (off : Nat) (n : Nat) (w : Nat), s.chip.spare.mig = some (src, sp) ∧
      s.chip.mbWake = 0 ∧ s.chip.fuseDue = 0 ∧ s.chip.fld F.MIG_STATUS_PHASE = 1 ∧ s.chip.spare.copied = false ∧
      ((s.chip.ecc.all fun x => x.2 != 2) = true) ∧
      (((List.range 4).all fun k => Tab.get (fun _ => 0) s.chip.lost (8 * s.chip.phys src + k) == 0) = true) ∧
      s.chip.phys src ≠ sp ∧ s.chip.phys src < 10 ∧ sp < 10 ∧ s.chip.inTick (s.chip.phys src) = true ∧
      s.chip.domOn sp = true ∧ (off, n) ∈ engMemories.take 4 ∧ w < n) ∧
    (∃ (s : State), s.chip.Calm) :=
  ⟨
    ⟨spareSt, .cp, 0x00020005, by decide +kernel, by decide +kernel, by decide +kernel, by decide +kernel,
            by decide +kernel, by decide +kernel, by decide +kernel, by decide +kernel, by decide +kernel,
            by decide +kernel⟩,
    ⟨(fs []), .cp, 0x00020005, by decide +kernel, by decide +kernel, by decide +kernel, by decide +kernel⟩,
    ⟨migSt, .cp, 0, 2, 9, by decide +kernel, by decide +kernel, by decide +kernel, by decide +kernel,
            by decide +kernel, by decide +kernel, by decide +kernel⟩,
    ⟨spareSt, .cp, 0, by decide +kernel, by decide +kernel, by decide +kernel⟩,
    ⟨migSt, 2, 9, 0x40000, 196608, 77, by decide +kernel, by decide +kernel, by decide +kernel, by decide +kernel,
            by decide +kernel, by decide +kernel, by decide +kernel, by decide +kernel, by decide +kernel,
            by decide +kernel, by decide +kernel, by decide +kernel, by decide +kernel, by decide +kernel⟩,
    ⟨spareSt, by decide +kernel⟩⟩

theorem test_testsAndDetection_met :
    (∃ (s : State) (m : Master) (v : Word) (p : Nat), s.chip.Calm ∧ s.chip.writes m Reg.BIST_CTRL = true ∧
      p = bits v.toNat 3 0 ∧ p < 10 ∧ (s.chip.engState p = 0 ∨ s.chip.engState p = 6) ∧ s.chip.domOn p = true ∧
      s.chip.spare.bist = none) ∧
    (∃ (s : State) (m : Master) (v : Word) (p : Nat), s.chip.Calm ∧ s.chip.writes m Reg.BIST_CTRL = true ∧
      p = bits v.toNat 3 0 ∧ (9 < p ∨ s.chip.engState p ≠ 0 ∧ s.chip.engState p ≠ 6 ∨ s.chip.domOn p = false)) ∧
    (∃ (s : State) (p : Nat) (off : Nat) (n : Nat) (w : Nat), s.chip.Calm ∧ s.chip.spare.bist = some p ∧ p < 10 ∧
      (off, n) ∈ engMemories ∧ w < n) ∧
    (∃ (s : State), s.chip.Calm ∧ s.chip.spare.bist = none) ∧
    (∃ (s : State) (m : Master) (v : Word), s.chip.Calm ∧ s.chip.writes m Reg.LOOP_CTRL = true ∧
      bitAt v.toNat 30 = false ∧ s.chip.spare.loop = none) ∧
    (∃ (s : State) (m : Master) (v : Word), s.chip.Calm ∧ s.chip.writes m Reg.LOOP_CTRL = true ∧
      bitAt v.toNat 31 = false) ∧
    (∃ (s : State) (p : Nat) (b : Bool), s.chip.Calm ∧ s.chip.spare.loop = some (p, some 0, b)) ∧
    (∃ (s : State), s.chip.Calm ∧ s.chip.spare.loop = none) ∧
    (∃ (s : State) (p : Fin 10) (code : BitVec 4), s.chip.Calm ∧ s.chip.engState p = 1 ∧
      (1 ≤ code.toNat ∧ code.toNat ≤ 5) ∧ s.chip.logi p < 10) ∧
    (∃ (s : State) (p : Fin 10) (code : BitVec 4), s.chip.Calm ∧ s.chip.engState p ≠ 1 ∧
      (s.chip.tick.phase ≠ .p1 ∨ s.chip.runs p = false ∨ code = 0)) ∧
    (∃ (s : State) (p : Fin 10) (code : BitVec 4), s.chip.Calm ∧ s.chip.tick.phase = .p1 ∧ s.chip.runs p = true ∧
      6 ≤ code.toNat) :=
  ⟨
    ⟨(fs []), .cp, 0x40000004, 4, by decide +kernel, by decide +kernel, by decide +kernel, by decide +kernel,
            by decide +kernel, by decide +kernel, by decide +kernel⟩,
    ⟨spareSt, .cp, 2, 2, by decide +kernel, by decide +kernel, by decide +kernel, by decide +kernel⟩,
    ⟨bistSt, 4, 0x40000, 196608, 3, by decide +kernel, by decide +kernel, by decide +kernel, by decide +kernel,
            by decide +kernel⟩,
    ⟨(fs []), by decide +kernel, by decide +kernel⟩,
    ⟨(fs []), .cp, 0x00010003, by decide +kernel, by decide +kernel, by decide +kernel, by decide +kernel⟩,
    ⟨(loopSt (some 2)), .cp, 0, by decide +kernel, by decide +kernel, by decide +kernel⟩,
    ⟨(loopSt (some 0)), 1, false, by decide +kernel, by decide +kernel⟩,
    ⟨(fs []), by decide +kernel, by decide +kernel⟩,
    ⟨eng3, 3, 5, by decide +kernel, by decide +kernel, by decide +kernel, by decide +kernel⟩,
    ⟨eng3, 4, 5, by decide +kernel, by decide +kernel, by decide +kernel⟩,
    ⟨(alter (fs [(F.ENG_STATUS_STATE 3,4)]) fun c => { c with tick := { c.tick with phase := .p1 } }), 3, 6,
            by decide +kernel, by decide +kernel, by decide +kernel, by decide +kernel⟩⟩

/-! ### Tandem -/

/-- A device in tandem operation with the link up, and more fields. -/
def tand (l : List (Field × Nat)) : State := fs ([(F.TLK_CFG_EN, 1), (F.TLK_STATUS_LINK_UP, 1)] ++ l)

/-- A negotiation frame of a leader's follower. -/
def negF : NegFrame := ⟨1, none, some 1, 0, true, false, true, [], 0, 2 ^ 31, 0, 4095⟩

/-- A tick frame. -/
def tickF (n : Nat) : TFrame := ⟨BitVec.ofNat 32 n, 6, false, false, false, true, 9, 3, 77, false, [⟨0x40080000, 5, 20, 4⟩], []⟩

theorem test_tandemPairing_met :
    (∃ (s : State) (m : Master), s.chip.Calm ∧ s.chip.writes m Reg.TLK_CFG = true ∧ s.chip.tandem = false) ∧
    (∃ (s : State), s.chip.Calm ∧ s.chip.tandem = true ∧ s.chip.linkUp = false) ∧
    (∃ (s : State), s.chip.Calm ∧ (s.chip.tandem = false ∨ s.chip.linkUp = true)) ∧
    (∃ (s : State), s.chip.Calm ∧ s.chip.tandem = true ∧ s.chip.linkUp = true ∧ s.chip.tlkState = 2) ∧
    (∃ (s : State), s.chip.Calm ∧ s.chip.tandem = true ∧ s.chip.linkUp = true ∧ s.chip.tlkState = 2) ∧
    (∃ (s : State) (f : NegFrame) (n : Nat), s.chip.Calm ∧ s.chip.tandem = true ∧ s.chip.linkUp = true ∧
      s.chip.tlkState = 2 ∧ f.minor2 = some n ∧ f.role ≠ s.chip.bit F.TLK_CFG_ROLE ∧ f.token = false ∧
      (f.lockstep = false ∨ s.chip.bit F.TLK_CFG_MODE_REQ = false)) ∧
    (∃ (s : State) (f : NegFrame) (n : Nat), s.chip.Calm ∧ s.chip.tandem = true ∧ s.chip.linkUp = true ∧
      s.chip.tlkState = 2 ∧ f.minor2 = some n ∧ f.role ≠ s.chip.bit F.TLK_CFG_ROLE ∧ f.token = false ∧
      (f.lockstep = true ∧ s.chip.bit F.TLK_CFG_MODE_REQ = true) ∧
      (f.image = s.chip.tlk.image ∧ f.build = s.chip.tlk.build ∧ f.fwd = s.chip.reg Reg.TLK_FWD) ∧
      (if s.chip.leader = true then decide (s.chip.ddrSize ≤ f.capacity) else decide (f.capacity ≤ s.chip.ddrSize))
        = true) ∧
    (∃ (s : State) (v : BitVec 64), s.chip.Calm ∧ s.chip.tlk.marker = some v) ∧
    (∃ (s : State), s.chip.Calm ∧ (s.chip.tlkState = 6 ∨ s.chip.tlkState = 7) ∧ 4 ≤ s.chip.tlk.silent ∧
      s.chip.linkUp = true) ∧
    (∃ (s : State), s.chip.Calm ∧ (s.chip.paired = false ∨ s.chip.tlk.silent < 4)) ∧
    (∃ (s : State), s.chip.Calm ∧ s.chip.tandem = true ∧ s.chip.leader = false ∧
      s.chip.bit F.TICK_STATUS_PAUSED = false ∧ s.chip.trkSrc ≠ 11) :=
  ⟨
    ⟨(fs []), .cp, by decide +kernel, by decide +kernel, by decide +kernel⟩,
    ⟨(fs [(F.TLK_CFG_EN,1),(F.TLK_STATUS_STATE,1)]), by decide +kernel, by decide +kernel, by decide +kernel⟩,
    ⟨(fs []), by decide +kernel, by decide +kernel⟩,
    ⟨(tand [(F.TLK_STATUS_STATE,2)]), by decide +kernel, by decide +kernel, by decide +kernel, by decide +kernel⟩,
    ⟨(tand [(F.TLK_STATUS_STATE,2),(F.TLK_STATUS_LEADER,1)]), by decide +kernel, by decide +kernel,
            by decide +kernel, by decide +kernel⟩,
    ⟨(tand [(F.TLK_STATUS_STATE,2)]), { negF with lockstep := false }, 1, by decide +kernel, by decide +kernel,
            by decide +kernel, by decide +kernel, by decide +kernel, by decide +kernel, by decide +kernel,
            by decide +kernel⟩,
    ⟨(tand [(F.TLK_STATUS_STATE,2),(F.TLK_CFG_MODE_REQ,1),(F.TLK_STATUS_TOKEN,1)]),
            { negF with fwd := (tand []).chip.reg Reg.TLK_FWD }, 1, by decide +kernel, by decide +kernel,
            by decide +kernel, by decide +kernel, by decide +kernel, by decide +kernel, by decide +kernel,
            by decide +kernel, by decide +kernel, by decide +kernel⟩,
    ⟨(alter (fs []) fun c => { c with tlk := { c.tlk with marker := some 5000 } }), 5000, by decide +kernel,
            by decide +kernel⟩,
    ⟨(alter (tand [(F.TLK_STATUS_STATE,6)]) fun c => { c with tlk := { c.tlk with silent := 4 } }),
            by decide +kernel, by decide +kernel, by decide +kernel, by decide +kernel⟩,
    ⟨(tand []), by decide +kernel, by decide +kernel⟩,
    ⟨(tand [(F.TLK_STATUS_TOKEN,1)]), by decide +kernel, by decide +kernel, by decide +kernel, by decide +kernel,
            by decide +kernel⟩⟩

theorem test_tandemTraffic_met :
    (∃ (s : State) (f : TFrame) (ok1 : Bool) (ok2 : Bool), s.chip.Calm ∧ s.chip.tandem = true ∧
      s.chip.linkUp = true ∧ (ok1 = true ∨ ok2 = true) ∧
      (s.chip.paired = true → f.tick = BitVec.ofNat 32 (s.chip.now - 1)) ∧ f.div = false ∧ f.latched = false ∧
      s.chip.fld F.TLK_REJOIN_STATUS_PHASE ≠ 3 ∧ (s.chip.tlkState ≠ 4 ∧ s.chip.tlkState ≠ 8)) ∧
    (∃ (s : State) (f : TFrame) (ok1 : Bool) (ok2 : Bool), s.chip.Calm ∧ s.chip.tandem = true ∧
      s.chip.linkUp = true ∧ (ok1 = true ∨ ok2 = true) ∧ (s.chip.tlkState = 6 ∨ s.chip.tlkState = 7) ∧
      f.tick ≠ BitVec.ofNat 32 (s.chip.now - 1)) ∧
    (∃ (s : State) (f : TFrame), s.chip.Calm ∧ s.chip.tandem = true ∧ s.chip.linkUp = true ∧ f.fwd = []) ∧
    (∃ (s : State), s.chip.Calm ∧ (s.chip.tandem = false ∨ s.chip.linkUp = false)) ∧
    (∃ (s : State), s.chip.Calm ∧ s.chip.tandem = true ∧ s.chip.linkUp = true) ∧
    (∃ (s : State) (a : Nat), s.chip.Calm ∧ s.chip.tandem = true ∧ s.chip.linkUp = true ∧ s.chip.recovering = true ∧
      a % 4 = 0 ∧ isDelay a = false) ∧
    (∃ (s : State), s.chip.Calm ∧ s.chip.tandem = true ∧ s.chip.linkUp = true ∧ s.chip.recovering = false) ∧
    (∃ (s : State) (tick : BitVec 32), s.chip.Calm ∧ s.chip.tandem = true ∧ s.chip.linkUp = true ∧
      s.chip.lockstep = true ∧ s.chip.leader = false ∧ s.chip.bit F.TLK_FWD_SENSE = true ∧
      tick.toNat = s.chip.now % 2 ^ 32) ∧
    (∃ (s : State), s.chip.Calm ∧ s.chip.tandem = true ∧ s.chip.linkUp = true ∧ s.chip.tlkState = 6 ∧
      s.chip.bit F.TLK_STATUS_PART_ARMED = true ∧ s.chip.leader = false ∧ s.chip.bit F.TLK_FWD_SENSE = true) ∧
    (∃ (s : State), s.chip.Calm ∧
      (s.chip.lockstep = false ∨ s.chip.leader = true ∨ s.chip.linkUp = false ∨ s.chip.bit F.TLK_FWD_SENSE = false)) ∧
    (∃ (s : State) (m : Master) (k : Nat) (T : Nat), s.chip.Calm ∧ s.chip.writes m Reg.TLK_LDG_CMD = true ∧
      s.chip.ldgReject = 0 ∧ k = (s.chip.tlk.queue.filter (·.2.isNone)).length ∧
      T = s.chip.ldgRoom (max (s.chip.reg64 Reg.TLK_LDG_AT_LO Reg.TLK_LDG_AT_HI)
            (s.chip.now + max 3 (s.chip.fld F.TLK_CFG_LEAD) + (k + s.chip.ldgPerFrame - 1) / s.chip.ldgPerFrame))) ∧
    (∃ (s : State) (m : Master), s.chip.Calm ∧ s.chip.writes m Reg.TLK_LDG_CMD = true ∧ s.chip.ldgReject ≠ 0) :=
  ⟨
    ⟨(alter (tand [(F.TLK_STATUS_STATE,6)]) fun c => { c with tick := { c.tick with stc := 8 } }), (tickF 7), true,
            false, by decide +kernel, by decide +kernel, by decide +kernel, by decide +kernel, by decide +kernel,
            by decide +kernel, by decide +kernel, by decide +kernel, by decide +kernel⟩,
    ⟨(alter (tand [(F.TLK_STATUS_STATE,6)]) fun c => { c with tick := { c.tick with stc := 9 } }), (tickF 7), true,
            false, by decide +kernel, by decide +kernel, by decide +kernel, by decide +kernel, by decide +kernel,
            by decide +kernel⟩,
    ⟨(tand []), (tickF 7), by decide +kernel, by decide +kernel, by decide +kernel, by decide +kernel⟩,
    ⟨(fs []), by decide +kernel, by decide +kernel⟩,
    ⟨(tand []), by decide +kernel, by decide +kernel, by decide +kernel⟩,
    ⟨(tand [(F.TLK_STATUS_STATE,4)]), 0x10000100, by decide +kernel, by decide +kernel, by decide +kernel,
            by decide +kernel, by decide +kernel, by decide +kernel⟩,
    ⟨(tand [(F.TLK_STATUS_STATE,6)]), by decide +kernel, by decide +kernel, by decide +kernel, by decide +kernel⟩,
    ⟨(alter (tand [(F.TLK_STATUS_STATE,6),(F.TLK_FWD_SENSE,1)]) fun c => { c with tick := { c.tick with stc := 9 } }),
            9, by decide +kernel, by decide +kernel, by decide +kernel, by decide +kernel, by decide +kernel,
            by decide +kernel, by decide +kernel⟩,
    ⟨(tand [(F.TLK_STATUS_STATE,6),(F.TLK_FWD_SENSE,1),(F.TLK_STATUS_PART_ARMED,1)]), by decide +kernel,
            by decide +kernel, by decide +kernel, by decide +kernel, by decide +kernel, by decide +kernel,
            by decide +kernel⟩,
    ⟨(fs []), by decide +kernel, by decide +kernel⟩,
    ⟨(alter (tand [(F.TLK_STATUS_STATE,6),(F.TLK_STATUS_LEADER,1)]) fun c => c.setReg Reg.TLK_LDG_ADDR 0x40080000),
            .cp, 0, ((alter (tand [(F.TLK_STATUS_STATE,6),(F.TLK_STATUS_LEADER,1)]) fun c => c.setReg
                    Reg.TLK_LDG_ADDR 0x40080000).chip.ldgRoom (max 0 (0 + max 3 ((tand []).chip.fld F.TLK_CFG_LEAD)
                        + (0 + (tand []).chip.ldgPerFrame - 1) / (tand []).chip.ldgPerFrame))), by decide +kernel,
            by decide +kernel, by decide +kernel, by decide +kernel, by decide +kernel⟩,
    ⟨(fs []), .cp, by decide +kernel, by decide +kernel, by decide +kernel⟩⟩

theorem test_tandemLatch_met :
    (∃ (s : State), s.chip.Calm) ∧
    (∃ (s : State), s.chip.Calm) ∧
    (∃ (s : State) (m : Master), s.chip.Calm ∧ s.chip.writes m Reg.TLK_LATCH = true) ∧
    (∃ (s : State) (m : Master) (v : Word), s.chip.Calm ∧ s.chip.writes m Reg.TLK_LATCH = true ∧
      bitAt v.toNat 31 = false ∧ bitAt v.toNat 29 = false) ∧
    (∃ (s : State) (m : Master) (v : Word), s.chip.Calm ∧ s.chip.writes m Reg.TLK_LATCH = true ∧
      bitAt v.toNat 31 = false ∧ bitAt v.toNat 30 = false ∧ s.chip.latched = true ∧ s.chip.holdsToken = false) ∧
    (∃ (s : State) (m : Master) (v : Word), s.chip.Calm ∧ s.chip.writes m Reg.TLK_LATCH = true ∧
      bitAt v.toNat 31 = false ∧ bitAt v.toNat 30 = false ∧ (s.chip.latched = false ∨ s.chip.holdsToken = true)) ∧
    (∃ (s : State), s.chip.Calm ∧ s.chip.tandem = true ∧ s.chip.holdsToken = true) ∧
    (∃ (s : State), s.chip.Calm ∧ (s.chip.tandem = false ∨ s.chip.holdsToken = false ∧ s.chip.tlk.released = false)) :=
  ⟨
    ⟨(tand [(F.TLK_STATUS_STATE,6)]), by decide +kernel⟩,
    ⟨(tand [(F.TLK_STATUS_KILL_IN,1)]), by decide +kernel⟩,
    ⟨(tand [(F.TLK_STATUS_STATE,6)]), .cp, by decide +kernel, by decide +kernel⟩,
    ⟨(tand []), .cp, 0, by decide +kernel, by decide +kernel, by decide +kernel, by decide +kernel⟩,
    ⟨(tand [(F.TLK_STATUS_LATCHED,1),(F.TLK_STATUS_STATE,9)]), .cp, 0, by decide +kernel, by decide +kernel,
            by decide +kernel, by decide +kernel, by decide +kernel, by decide +kernel⟩,
    ⟨(tand [(F.TLK_STATUS_LATCHED,1),(F.TLK_STATUS_TOKEN,1)]), .cp, 0, by decide +kernel, by decide +kernel,
            by decide +kernel, by decide +kernel, by decide +kernel⟩,
    ⟨(tand [(F.TLK_STATUS_TOKEN,1),(F.TLK_STATUS_STATE,6)]), by decide +kernel, by decide +kernel, by decide +kernel⟩,
    ⟨(fs []), by decide +kernel, by decide +kernel⟩⟩

theorem test_rejoin_met :
    (∃ (s : State) (m : Master) (v : Word), s.chip.Calm ∧ s.chip.writes m Reg.TLK_REJOIN_CTRL = true ∧
      bitAt v.toNat 30 = false ∧ s.chip.latched = false ∧ s.chip.holdsToken = false ∧ s.chip.tlkState = 8 ∧
      s.chip.domOn 16 = true ∧ s.chip.bit F.DDR_STATUS_READY = true ∧ s.chip.tlk.partCap ≤ s.chip.ddrSize) ∧
    (∃ (s : State) (m : Master) (v : Word), s.chip.Calm ∧ s.chip.writes m Reg.TLK_REJOIN_CTRL = true ∧
      bitAt v.toNat 30 = false ∧
      (s.chip.latched = true ∨ s.chip.holdsToken = true ∨ s.chip.tlkState ≠ 8 ∧ s.chip.tlkState ≠ 2)) ∧
    (∃ (s : State) (m : Master) (v : Word), s.chip.Calm ∧ s.chip.writes m Reg.TLK_REJOIN_CTRL = true ∧
      bitAt v.toNat 31 = false ∧ (s.chip.tlkState = 4 ∨ s.chip.tlkState = 5) ∧
      s.chip.fld F.TLK_REJOIN_STATUS_PHASE ≠ 0) ∧
    (∃ (s : State) (m : Master) (v : Word), s.chip.Calm ∧ s.chip.writes m Reg.TLK_REJOIN_CTRL = true ∧
      bitAt v.toNat 31 = false ∧ s.chip.fld F.TLK_REJOIN_STATUS_PHASE = 0) ∧
    (∃ (s : State) (most : Nat), s.chip.Calm ∧ s.chip.fld F.TLK_REJOIN_STATUS_PHASE = 1 ∧ s.chip.tlk.again = [] ∧
      (most = (List.range 10).foldl (fun m p => max m (s.chip.plen p)) 0)) ∧
    (∃ (s : State), s.chip.Calm ∧ s.chip.fld F.TLK_REJOIN_STATUS_PHASE = 2) ∧
    (∃ (s : State), s.chip.Calm ∧ s.chip.fld F.TLK_REJOIN_STATUS_PHASE = 3 ∧ s.chip.fld F.TLK_REJOIN_STATUS_LAG = 0) ∧
    (∃ (s : State), s.chip.Calm ∧ s.chip.fld F.TLK_REJOIN_STATUS_PHASE = 4 ∧
      max 1 (s.chip.fld F.TLK_REJOIN_CTRL_CLEAN) * 1024 ≤ s.chip.tlk.clean) ∧
    (∃ (s : State), s.chip.Calm ∧ s.chip.fld F.TLK_REJOIN_STATUS_PHASE = 0) :=
  ⟨
    ⟨(tand [(F.TLK_STATUS_STATE,8),(F.DDR_STATUS_READY,1)]), .cp, 3, by decide +kernel, by decide +kernel,
            by decide +kernel, by decide +kernel, by decide +kernel, by decide +kernel, by decide +kernel,
            by decide +kernel, by decide +kernel⟩,
    ⟨(tand [(F.TLK_STATUS_STATE,6)]), .cp, 3, by decide +kernel, by decide +kernel, by decide +kernel,
            by decide +kernel⟩,
    ⟨(tand [(F.TLK_STATUS_STATE,4),(F.TLK_REJOIN_STATUS_PHASE,1)]), .cp, 3, by decide +kernel, by decide +kernel,
            by decide +kernel, by decide +kernel, by decide +kernel⟩,
    ⟨(tand []), .cp, 3, by decide +kernel, by decide +kernel, by decide +kernel, by decide +kernel⟩,
    ⟨(tand [(F.TLK_STATUS_STATE,4),(F.TLK_REJOIN_STATUS_PHASE,1)]), 0, by decide +kernel, by decide +kernel,
            by decide +kernel, by decide +kernel⟩,
    ⟨(tand [(F.TLK_REJOIN_STATUS_PHASE,2)]), by decide +kernel, by decide +kernel⟩,
    ⟨(tand [(F.TLK_REJOIN_STATUS_PHASE,3)]), by decide +kernel, by decide +kernel, by decide +kernel⟩,
    ⟨(alter (tand [(F.TLK_REJOIN_STATUS_PHASE,4)]) fun c => { c with tlk := { c.tlk with clean := 1 <<< 26 } }),
            by decide +kernel, by decide +kernel, by decide +kernel⟩,
    ⟨(tand []), by decide +kernel, by decide +kernel⟩⟩

/-! ### Audio ports and routing -/

/-- Port 1 in a mode, enabled, with more fields. -/
def port (m : SapMode) (l : List (Field × Nat)) : State :=
  alter (fs ((F.SAP_CTRL_EN 1, 1) :: l)) fun c => c.setSap 1 { mode := m }

/-- Group 2 behind ASRC on port 1, with one output channel. -/
def asrcSt (m : SapMode) (l : List (Field × Nat)) : State :=
  alter (port m ([(F.SAP_CTRL_ASRC 1, 1), (F.ASRC_GCTRL_EN 2, 1), (F.ASRC_GCTRL_PORT 2, 1), (F.ASRC_CH_EN 5, 1), (F.ASRC_CH_GROUP 5, 2)] ++ l))
    fun c => c.setAsrc 5 .on

theorem test_audioPorts_met :
    (∃ (s : State) (m : Master) (k : Fin 8) (v : Word) (w : Word), s.chip.Calm ∧
      s.chip.writes m (Reg.SAP_CTRL k) = true ∧ s.chip.bit (F.SAP_CTRL_EN k) = false ∧
      w = (v &&& 0x3FF8007F) ||| 0x80000000 ∧
      (s.chip.sapSlots k * s.chip.sapBits k * 2 ^ (s.chip.rate / 2) ≤ 1024 ∨ bitAt v.toNat 27 = true ∧
          bitAt v.toNat 29 = false)) ∧
    (∃ (s : State) (m : Master) (k : Fin 8) (v : Word), s.chip.Calm ∧ s.chip.writes m (Reg.SAP_CTRL k) = true ∧
      s.chip.bit (F.SAP_CTRL_EN k) = false ∧ 1024 < s.chip.sapSlots k * s.chip.sapBits k * 2 ^ (s.chip.rate / 2) ∧
      (bitAt v.toNat 27 = false ∨ bitAt v.toNat 29 = true) ∧
      (∀ g : Nat, g < 4 → s.chip.fld (F.ASRC_GCTRL_PORT g) = k.val → s.chip.bit (F.ASRC_GSTATUS_SETTLED g) = false)) ∧
    (∃ (s : State) (m : Master) (k : Fin 8), s.chip.Calm ∧ s.chip.writes m (Reg.SAP_CTRL k) = true ∧
      s.chip.bit (F.SAP_CTRL_EN k) = true ∧ (s.chip.sapOf k).mode = .run) ∧
    (∃ (s : State) (m : Master) (k : Fin 8), s.chip.Calm ∧ s.chip.writes m (Reg.SAP_CTRL k) = true ∧
      s.chip.bit (F.SAP_CTRL_EN k) = true ∧ (s.chip.sapOf k).mode ≠ .run ∧
      (∀ g : Nat, g < 4 → s.chip.fld (F.ASRC_GCTRL_PORT g) = k.val → s.chip.bit (F.ASRC_GSTATUS_SETTLED g) = false)) ∧
    (∃ (s : State) (m : Master) (k : Fin 8) (v : Word), s.chip.Calm ∧ s.chip.writes m (Reg.SAP_CTRL k) = true ∧
      s.chip.bit (F.SAP_CTRL_EN k) = true ∧ bitAt v.toNat 31 = true ∧
      ((s.chip.sapOf k).mode ≠ .off ∧ (s.chip.sapOf k).mode ≠ .changed)) ∧
    (∃ (s : State) (m : Master) (k : Fin 8) (v : Word), s.chip.Calm ∧ s.chip.writes m (Reg.SAP_CTRL k) = true ∧
      s.chip.bit (F.SAP_CTRL_EN k) = true ∧ bitAt v.toNat 31 = true ∧ (s.chip.sapOf k).mode = .changed) ∧
    (∃ (s : State) (k : Fin 8) (count : Nat), s.chip.Calm ∧ (s.chip.sapOf k).mode = .run ∧ s.chip.looped k = false ∧
      s.chip.bit F.TICK_STATUS_PAUSED = false ∧
      (s.chip.bit (F.SAP_CTRL_MASTER k) = true ∨ s.chip.bit (F.SAP_CTRL_LOOSE k) = false ∧
          count = s.chip.sapSlots k * s.chip.sapBits k)) ∧
    (∃ (s : State) (k : Fin 8) (count : Nat), s.chip.Calm ∧ (s.chip.sapOf k).mode = .run ∧ s.chip.looped k = false ∧
      s.chip.bit F.TICK_STATUS_PAUSED = false ∧ s.chip.bit (F.SAP_CTRL_MASTER k) = false ∧
      s.chip.bit (F.SAP_CTRL_LOOSE k) = false ∧ count ≠ s.chip.sapSlots k * s.chip.sapBits k) ∧
    (∃ (s : State) (k : Fin 8), s.chip.Calm ∧ (s.chip.sapOf k).mode = .run ∧ s.chip.looped k = false ∧
      s.chip.bit F.TICK_STATUS_PAUSED = false ∧ s.chip.bit (F.SAP_CTRL_MASTER k) = false ∧
      s.chip.bit (F.SAP_CTRL_LOOSE k) = true) ∧
    (∃ (s : State) (k : Fin 8), s.chip.Calm ∧
      ((s.chip.sapOf k).mode = .off ∨ (s.chip.sapOf k).mode = .measure ∨ (s.chip.sapOf k).mode = .changed ∨
            (s.chip.sapOf k).mode = .lost)) ∧
    (∃ (s : State) (k : Fin 8), s.chip.Calm ∧ (s.chip.sapOf k).mode = .run ∧ s.chip.sapAsrc k = false ∧
      s.chip.looped k = false ∧ (s.chip.bit (F.SAP_CTRL_MASTER k) = true ∨ (s.chip.sapOf k).sent ≠ 1) ∧
      (∀ j : Nat, j < 16 → s.chip.fld (F.FL_CTRL_DST_PORT j) ≠ k.val)) ∧
    (∃ (s : State) (k : Fin 8), s.chip.Calm ∧ ((s.chip.sapOf k).mode ≠ .run ∧ (s.chip.sapOf k).mode ≠ .stop)) ∧
    (∃ (s : State) (k : Fin 8), s.chip.Calm ∧ s.chip.bit (F.SAP_CTRL_MASTER k) = false ∧
      ((s.chip.sapOf k).mode = .run ∨ (s.chip.sapOf k).mode = .measure ∨ (s.chip.sapOf k).mode = .changed) ∧
      (∀ g : Nat, g < 4 → s.chip.fld (F.ASRC_GCTRL_PORT g) = k.val → s.chip.bit (F.ASRC_GSTATUS_SETTLED g) = false)
        ∧ s.chip.trkSrc ≠ k.val + 2) ∧
    (∃ (s : State) (k : Fin 8), s.chip.Calm ∧ s.chip.bit (F.SAP_CTRL_MASTER k) = false ∧
      (s.chip.sapOf k).mode = .run ∧ s.chip.trkSrc = k.val + 2 ∧ s.chip.trkState = 2) ∧
    (∃ (s : State) (k : Fin 8), s.chip.Calm ∧
      (s.chip.bit (F.SAP_CTRL_MASTER k) = true ∨ (s.chip.sapOf k).mode = .off)) ∧
    (∃ (s : State) (k : Fin 8) (dev : Int), s.chip.Calm ∧ s.chip.bit (F.SAP_CTRL_MASTER k) = false ∧
      s.chip.bit (F.SAP_CTRL_ASRC k) = false ∧
      ((s.chip.sapOf k).mode = .lost ∨ (s.chip.sapOf k).mode = .measure ∨ (s.chip.sapOf k).mode = .changed) ∧
      (-1000 ≤ dev ∧ dev ≤ 1000)) ∧
    (∃ (s : State) (k : Fin 8) (dev : Int), s.chip.Calm ∧ s.chip.bit (F.SAP_CTRL_MASTER k) = false ∧
      s.chip.bit (F.SAP_CTRL_ASRC k) = false ∧
      ((s.chip.sapOf k).mode = .lost ∨ (s.chip.sapOf k).mode = .measure ∨ (s.chip.sapOf k).mode = .changed) ∧
      (dev < -1000 ∨ 1000 < dev)) :=
  ⟨
    ⟨(fs []), .cp, 1, 0x20180000, 0xA0180000, by decide +kernel, by decide +kernel, by decide +kernel,
            by decide +kernel, by decide +kernel⟩,
    ⟨(fs [(F.SAP_FMT_FORMAT 3, 2), (F.SAP_FMT_SLOTS 3, 31), (F.TICK_CADENCE_RATE, 3)]), .cp, 3, 0x20000000,
            by decide +kernel, by decide +kernel, by decide +kernel, by decide +kernel, by decide +kernel,
            by decide +kernel⟩,
    ⟨(port .run []), .cp, 1, by decide +kernel, by decide +kernel, by decide +kernel, by decide +kernel⟩,
    ⟨(port .measure [(F.SAP_STATUS_MUTED 1, 1)]), .cp, 1, by decide +kernel, by decide +kernel, by decide +kernel,
            by decide +kernel, by decide +kernel⟩,
    ⟨(port .run []), .cp, 1, 0x80000000, by decide +kernel, by decide +kernel, by decide +kernel, by decide +kernel,
            by decide +kernel⟩,
    ⟨(port .changed [(F.SAP_STATUS_MUTED 1,1)]), .cp, 1, 0x80000000, by decide +kernel, by decide +kernel,
            by decide +kernel, by decide +kernel, by decide +kernel⟩,
    ⟨(port .run [(F.SAP_CTRL_MASTER 1,1)]), 1, 0, by decide +kernel, by decide +kernel, by decide +kernel,
            by decide +kernel, by decide +kernel⟩,
    ⟨(port .run []), 1, 65, by decide +kernel, by decide +kernel, by decide +kernel, by decide +kernel,
            by decide +kernel, by decide +kernel, by decide +kernel⟩,
    ⟨(port .run [(F.SAP_CTRL_LOOSE 1,1)]), 1, by decide +kernel, by decide +kernel, by decide +kernel,
            by decide +kernel, by decide +kernel, by decide +kernel⟩,
    ⟨(fs []), 4, by decide +kernel, by decide +kernel⟩,
    ⟨(alter (port .run [(F.SAP_CTRL_TX_EN 1,1),(F.SAP_TXSLOT_DRIVE 1, 2),(F.SAP_CTRL_MASTER 1, 1),(
                            F.TLK_STATUS_TOKEN, 1)]) fun c => { ((List.range 16).foldl (fun c j => c.setFld (F.FL_CTRL_DST_PORT j) 2) c) with
                  rtr := { c.rtr with sink := [(32, 0x11111111), (33, 0x2222222)] } }), 1, by decide +kernel,
            by decide +kernel, by decide +kernel, by decide +kernel, by decide +kernel, by decide +kernel⟩,
    ⟨(fs []), 1, by decide +kernel, by decide +kernel⟩,
    ⟨(port .run []), 1, by decide +kernel, by decide +kernel, by decide +kernel, by decide +kernel,
            by decide +kernel⟩,
    ⟨(port .run [(F.TRK_CTRL_SRC, 3), (F.TRK_STATUS_STATE, 2)]), 1, by decide +kernel, by decide +kernel,
            by decide +kernel, by decide +kernel, by decide +kernel⟩,
    ⟨(fs []), 1, by decide +kernel, by decide +kernel⟩,
    ⟨(port .lost [(F.SAP_STATUS_MUTED 1, 1)]), 1, (-1000), by decide +kernel, by decide +kernel, by decide +kernel,
            by decide +kernel, by decide +kernel⟩,
    ⟨(port .lost [(F.SAP_STATUS_MUTED 1, 1)]), 1, 1001, by decide +kernel, by decide +kernel, by decide +kernel,
            by decide +kernel, by decide +kernel⟩⟩

theorem test_rateConversionAndRouting_met :
    (∃ (s : State) (g : Fin 4) (rho : Word), s.chip.Calm ∧ s.chip.asrcRuns g = true ∧
      s.chip.bit (F.ASRC_GSTATUS_SETTLED g) = false ∧ (2 ^ 25 ≤ rho.toNat ∧ rho.toNat ≤ 2 ^ 31)) ∧
    (∃ (s : State) (g : Fin 4) (rho : Word), s.chip.Calm ∧
      (s.chip.asrcRuns g = false ∨ s.chip.bit (F.ASRC_GSTATUS_SETTLED g) = true ∨ rho.toNat < 2 ^ 25 ∨ 2 ^ 31 <
            rho.toNat)) ∧
    (∃ (s : State) (g : Fin 4), s.chip.Calm ∧ s.chip.bit (F.ASRC_GSTATUS_SETTLED g) = true) ∧
    (∃ (s : State) (g : Fin 4), s.chip.Calm ∧ s.chip.bit (F.ASRC_GSTATUS_SETTLED g) = false) ∧
    (∃ (s : State) (m : Master) (k : Fin 4), s.chip.Calm ∧ s.chip.writes m (Reg.MCLK_CTRL k) = true) ∧
    (∃ (s : State) (m : Master) (k : Fin 4096), s.chip.Calm ∧ s.chip.writes m (Reg.RT_EP k) = true ∧
      ((s.chip.route k).cur = 0 ∧ (s.chip.route k).tgt = 0) ∧ (s.chip.tick.stage ≠ 1 ∨ s.chip.rtr.effect = false)) ∧
    (∃ (s : State) (m : Master) (k : Fin 4096), s.chip.Calm ∧ s.chip.writes m (Reg.RT_EP k) = true ∧
      ((s.chip.route k).cur ≠ 0 ∨ (s.chip.route k).tgt ≠ 0)) ∧
    (∃ (s : State) (m : Master) (v : Word), s.chip.Calm ∧ s.chip.writes m Reg.RTR_COMMIT = true ∧
      (s.chip.bit F.RTR_COMMIT_PENDING = false ∨ bitAt v.toNat 30 = true)) ∧
    (∃ (s : State) (m : Master) (v : Word), s.chip.Calm ∧ s.chip.writes m Reg.RTR_COMMIT = true ∧
      s.chip.bit F.RTR_COMMIT_PENDING = true ∧ bitAt v.toNat 30 = false) ∧
    (∃ (s : State) (m : Master) (v : Word), s.chip.Calm ∧ s.chip.writes m Reg.RTR_COMMIT = true ∧
      bitAt v.toNat 31 = false) ∧
    (∃ (s : State) (code : Byte), s.chip.Calm ∧
      max 1 (s.chip.fld (F.PROT_DC_HOLD (code.toNat / 32))) * 16 ≤ (s.chip.protOf code.toNat).cnt) ∧
    (∃ (s : State) (code : Byte), s.chip.Calm ∧
      (s.chip.protOf code.toNat).cnt < max 1 (s.chip.fld (F.PROT_DC_HOLD (code.toNat / 32))) * 16) ∧
    (∃ (s : State) (j : Fin 16), s.chip.Calm ∧ s.chip.bit (F.FL_CTRL_EN j) = true) ∧
    (∃ (s : State) (j : Fin 16), s.chip.Calm ∧ s.chip.bit (F.FL_CTRL_EN j) = false) ∧
    (∃ (s : State) (m : Master) (k : Byte), s.chip.Calm ∧ s.chip.writes m (Reg.MTR_CFG k.toNat) = true) ∧
    (∃ (s : State) (k : Byte), s.chip.Calm ∧ s.chip.bit (F.MTR_CFG_EN k.toNat) = true ∧
      s.chip.fbit ⟨Reg.SIL_STATE (k.toNat / 32), 31, 0⟩ (k.toNat % 32) = false ∧
      (max 1 (s.chip.fld (F.MTR_CFG_HOLD k.toNat)) * 64 ≤ Tab.get (fun _ => 0) s.chip.rtr.quiet k.toNat)) ∧
    (∃ (s : State) (k : Byte), s.chip.Calm ∧
      (s.chip.bit (F.MTR_CFG_EN k.toNat) = false ∨ s.chip.fbit ⟨Reg.SIL_STATE (k.toNat / 32), 31, 0⟩ (k.toNat % 32)
            = true)) :=
  ⟨
    ⟨(asrcSt .run []), 2, 0x2000000, by decide +kernel, by decide +kernel, by decide +kernel, by decide +kernel⟩,
    ⟨(asrcSt .run []), 2, 0x1FFFFFF, by decide +kernel, by decide +kernel⟩,
    ⟨(asrcSt .run [(F.ASRC_GSTATUS_SETTLED 2,1)]), 2, by decide +kernel, by decide +kernel⟩,
    ⟨(asrcSt .run []), 2, by decide +kernel, by decide +kernel⟩,
    ⟨(fs [(F.MCLK_CTRL_RUNNING 3,1),(F.MCLK_CTRL_EN 3,1)]), .cp, 3, by decide +kernel, by decide +kernel⟩,
    ⟨(fs []), .cp, 4095, by decide +kernel, by decide +kernel, by decide +kernel, by decide +kernel⟩,
    ⟨(alter (fs []) fun c => { c with rtr := { c.rtr with routes := [(7, ⟨0, 0, 5⟩)] } }), .cp, 7,
            by decide +kernel, by decide +kernel, by decide +kernel⟩,
    ⟨(fs []), .cp, 0, by decide +kernel, by decide +kernel, by decide +kernel⟩,
    ⟨(fs [(F.RTR_COMMIT_PENDING,1)]), .cp, 0, by decide +kernel, by decide +kernel, by decide +kernel,
            by decide +kernel⟩,
    ⟨(alter (fs [(F.RTR_COMMIT_PENDING,1)]) fun c =>
                { c with rtr := { c.rtr with pend := some (1, true, 5, false) } }), .cp, 0, by decide +kernel,
            by decide +kernel, by decide +kernel⟩,
    ⟨(alter (fs [(F.PROT_DC_HOLD 1, 1)]) fun c => c.setProt 40 { cnt := 16 }), 40, by decide +kernel,
            by decide +kernel⟩,
    ⟨(alter (fs []) fun c => c.setProt 40 { cnt := 15 }), 40, by decide +kernel, by decide +kernel⟩,
    ⟨(fs [(F.FL_CTRL_EN 3,1)]), 3, by decide +kernel, by decide +kernel⟩,
    ⟨(fs []), 3, by decide +kernel, by decide +kernel⟩,
    ⟨(alter (fs [(F.MTR_PEAK_PEAK 200, 9)]) fun c => c.setFbit ⟨Reg.SIL_STATE 6, 31, 0⟩ 8), .cp, 200,
            by decide +kernel, by decide +kernel⟩,
    ⟨(alter (fs [(F.MTR_CFG_EN 33, 1)]) fun c => { c with rtr := { c.rtr with quiet := [(33, 64)] } }), 33,
            by decide +kernel, by decide +kernel, by decide +kernel, by decide +kernel⟩,
    ⟨(fs []), 33, by decide +kernel, by decide +kernel⟩⟩

/-! ### Clocks -/

/-- Tracking port 1 in a state of the loop, with more fields. -/
def trk (st : Nat) (l : List (Field × Nat)) : State :=
  fs ([(F.TRK_CTRL_SRC, 3), (F.TRK_STATUS_STATE, st), (F.TRK_CTRL_NUM, 1), (F.TRK_CTRL_DEN, 1), (F.TICK_STATUS_RUNNING, 1)] ++ l)

/-- The loop has measured its sixteen edges. -/
def acq (s : State) : State := alter s fun c => { c with clk := { c.clk with acquired := true } }

/-- The slew has brought the phase within bound. -/
def slew (s : State) : State := alter s fun c => { c with clk := { c.clk with slewed := true, back := true } }
/-- SYSPLL relocks on the safe clock. -/
def safeSt (l : List (Field × Nat)) : State := fs ([(F.CLK_STATUS_SAFE, 1), (F.TICK_STATUS_SAFE_ECLK, 1), (F.CLK_STATUS_XTAL_OK, 1), (F.CLK_STATUS_SYS_LOCK, 0)] ++ l)

/-- A tick runs. -/
def ticking (l : List (Field × Nat)) : State := alter (fs ((F.TICK_STATUS_RUNNING, 1) :: l)) fun c => { c with tick := { c.tick with phase := .p1 } }

theorem test_referenceTracking_met :
    (∃ (s : State) (m : Master), s.chip.Calm ∧ s.chip.writes m Reg.AUD_CFG = true) ∧
    (∃ (s : State) (m : Master) (v : Word), s.chip.Calm ∧ s.chip.writes m Reg.TRK_CTRL = true ∧
      (
          let n := s.chip.setReg Reg.TRK_CTRL v
          n.trkSrc = s.chip.trkSrc ∧ n.trkNum = s.chip.trkNum ∧ n.trkDen = s.chip.trkDen)) ∧
    (∃ (s : State) (m : Master) (v : Word), s.chip.Calm ∧ s.chip.writes m Reg.TRK_CTRL = true ∧
      (
          let n := s.chip.setReg Reg.TRK_CTRL v
          n.trkSrc ≠ s.chip.trkSrc ∨ n.trkNum ≠ s.chip.trkNum ∨ n.trkDen ≠ s.chip.trkDen) ∧
      (s.chip.setReg Reg.TRK_CTRL v).trkSrc = 0 ∧ (s.chip.trkState ≠ 2 ∧ s.chip.trkState ≠ 4 ∧ s.chip.trkState ≠ 5)) ∧
    (∃ (s : State) (m : Master) (v : Word), s.chip.Calm ∧ s.chip.writes m Reg.TRK_CTRL = true ∧
      (
          let n := s.chip.setReg Reg.TRK_CTRL v
          n.trkSrc ≠ s.chip.trkSrc ∨ n.trkNum ≠ s.chip.trkNum ∨ n.trkDen ≠ s.chip.trkDen) ∧
      (s.chip.setReg Reg.TRK_CTRL v).trkSrc ≠ 0 ∧ (s.chip.trkState = 0 ∨ s.chip.trkState = 1)) ∧
    (∃ (s : State) (m : Master) (v : Word), s.chip.Calm ∧ s.chip.writes m Reg.TRK_CTRL = true ∧
      (
          let n := s.chip.setReg Reg.TRK_CTRL v
          n.trkSrc ≠ s.chip.trkSrc ∨ n.trkNum ≠ s.chip.trkNum ∨ n.trkDen ≠ s.chip.trkDen) ∧
      (s.chip.setReg Reg.TRK_CTRL v).trkSrc ≠ 0 ∧ (s.chip.trkState = 2 ∨ s.chip.trkState = 4 ∨ s.chip.trkState = 5)) ∧
    (∃ (s : State) (m : Master) (v : Word), s.chip.Calm ∧ s.chip.writes m Reg.TRK_CTRL = true ∧
      (
          let n := s.chip.setReg Reg.TRK_CTRL v
          n.trkSrc ≠ s.chip.trkSrc ∨ n.trkNum ≠ s.chip.trkNum ∨ n.trkDen ≠ s.chip.trkDen) ∧
      (s.chip.setReg Reg.TRK_CTRL v).trkSrc = 0 ∧ (s.chip.trkState = 2 ∨ s.chip.trkState = 4 ∨ s.chip.trkState = 5)) ∧
    (∃ (s : State), s.chip.Calm ∧ s.chip.trkState = 1 ∧ s.chip.clk.acquired = false ∧
      (s.chip.halted = true ∨ s.chip.phaseTracked = false)) ∧
    (∃ (s : State) (perr : Int), s.chip.Calm ∧ s.chip.trkState = 1 ∧ s.chip.clk.acquired = false ∧
      s.chip.halted = false ∧ s.chip.phaseTracked = true ∧ s.chip.trkSrc ≠ 11 ∧ (-32768 ≤ perr ∧ perr < 32768)) ∧
    (∃ (s : State), s.chip.Calm ∧ (s.chip.trkState ≠ 1 ∨ s.chip.clk.acquired = true)) ∧
    (∃ (s : State), s.chip.Calm ∧
      (s.chip.trkState = 1 ∧ s.chip.clk.acquired = true ∨ (s.chip.trkState = 4 ∨ s.chip.trkState = 5) ∧
          s.chip.clk.slewed = true)) ∧
    (∃ (s : State), s.chip.Calm ∧ (s.chip.trkState ≠ 1 ∧ s.chip.trkState ≠ 4 ∧ s.chip.trkState ≠ 5)) ∧
    (∃ (s : State), s.chip.Calm ∧ (s.chip.trkState = 2 ∨ s.chip.trkState = 4 ∨ s.chip.trkState = 5) ∧
      (s.chip.trkSrc ≠ 11 ∨ s.chip.bit F.TICK_STATUS_PAUSED = false)) ∧
    (∃ (s : State), s.chip.Calm ∧
      ((s.chip.trkState ≠ 2 ∧ s.chip.trkState ≠ 4 ∧ s.chip.trkState ≠ 5) ∨ s.chip.trkSrc = 11 ∧
          s.chip.bit F.TICK_STATUS_PAUSED = true)) ∧
    (∃ (s : State), s.chip.Calm ∧ s.chip.trkState = 3 ∧ s.chip.trkSrc ≠ 0) ∧
    (∃ (s : State), s.chip.Calm ∧ s.chip.trkState ≠ 3) ∧
    (∃ (s : State), s.chip.Calm ∧ s.chip.trkState = 4 ∧ s.chip.clk.slewed = false ∧
      s.chip.clk.fine ≤ 256 * (256 * s.chip.trkNum : Nat)) ∧
    (∃ (s : State), s.chip.Calm ∧ s.chip.trkState ≠ 4) ∧
    (∃ (s : State) (m : Master) (v : Word), s.chip.Calm ∧ s.chip.writes m Reg.TRK_CTRL = true ∧
      (
          let n := s.chip.setReg Reg.TRK_CTRL v
          n.trkSrc = s.chip.trkSrc ∧ n.trkNum = s.chip.trkNum ∧ n.trkDen = s.chip.trkDen)) :=
  ⟨
    ⟨(fs []), .cp, by decide +kernel, by decide +kernel⟩,
    ⟨(trk 2 []), .cp, 0x3F800101, by decide +kernel, by decide +kernel, by decide +kernel⟩,
    ⟨(trk 3 [(F.TRK_STATUS_GATED,1)]), .cp, 0xC0000101, by decide +kernel, by decide +kernel, by decide +kernel,
            by decide +kernel, by decide +kernel⟩,
    ⟨(trk 0 [(F.WCLK_CTRL_RUNNING,1),(F.MCLK_CTRL_SLAVED 2,1),(F.MCLK_CTRL_RUNNING 2,1)]), .cp, 0xB0000101,
            by decide +kernel, by decide +kernel, by decide +kernel, by decide +kernel, by decide +kernel⟩,
    ⟨(trk 2 [(F.TRK_CVAL_C, 100)]), .cp, 0x30000201, by decide +kernel, by decide +kernel, by decide +kernel,
            by decide +kernel, by decide +kernel⟩,
    ⟨(trk 4 [(F.TRK_CVAL_C, 0xFFFF)]), .cp, 0, by decide +kernel, by decide +kernel, by decide +kernel,
            by decide +kernel, by decide +kernel⟩,
    ⟨(trk 1 [(F.TICK_STATUS_PAUSED,1)]), by decide +kernel, by decide +kernel, by decide +kernel, by decide +kernel⟩,
    ⟨(trk 1 []), (-9), by decide +kernel, by decide +kernel, by decide +kernel, by decide +kernel,
            by decide +kernel, by decide +kernel, by decide +kernel⟩,
    ⟨(trk 2 []), by decide +kernel, by decide +kernel⟩,
    ⟨(acq (trk 1 [(F.TRK_STATUS_GATED,1)])), by decide +kernel, by decide +kernel⟩,
    ⟨(trk 2 []), by decide +kernel, by decide +kernel⟩,
    ⟨(alter (trk 2 []) fun c => { c with clk := { c.clk with hist := [5, 4] } }), by decide +kernel,
            by decide +kernel, by decide +kernel⟩,
    ⟨(trk 1 []), by decide +kernel, by decide +kernel⟩,
    ⟨(trk 3 []), by decide +kernel, by decide +kernel, by decide +kernel⟩,
    ⟨(trk 2 []), by decide +kernel, by decide +kernel⟩,
    ⟨(alter (trk 4 []) fun c => { c with clk := { c.clk with fine := 65536, cRef := -12 } }), by decide +kernel,
            by decide +kernel, by decide +kernel, by decide +kernel⟩,
    ⟨(trk 2 []), by decide +kernel, by decide +kernel⟩,
    ⟨(trk 5 [(F.TRK_CTRL_RET,3)]), .cp, 0x33000101, by decide +kernel, by decide +kernel, by decide +kernel⟩⟩

theorem test_clockFailures_met :
    (∃ (s : State) (m : Master), s.chip.Calm ∧ s.chip.writes m Reg.CLK_CFG = true) ∧
    (∃ (s : State), s.chip.Calm) ∧
    (∃ (s : State), s.chip.Calm ∧ s.chip.bit F.CLK_STATUS_SYS_LOCK = false ∧ s.chip.bit F.CLK_STATUS_SAFE = true ∧
      s.chip.tick.phase = .idle ∧ (∀ p : Nat, p < 10 → s.chip.inTick p = true → s.chip.plen p ≤ s.chip.budget)) ∧
    (∃ (s : State), s.chip.Calm ∧ s.chip.bit F.CLK_STATUS_SYS_LOCK = false ∧
      (s.chip.bit F.CLK_STATUS_SAFE = false ∨ s.chip.tick.phase ≠ .idle)) ∧
    (∃ (s : State), s.chip.Calm ∧ s.chip.bit F.CLK_STATUS_SYS_LOCK = true) ∧
    (∃ (s : State), s.chip.Calm ∧ s.chip.bit F.CLK_STATUS_SYS_LOCK = false) ∧
    (∃ (s : State), s.chip.Calm ∧ (s.chip.bit F.TICK_STATUS_RUNNING = false ∨ s.chip.tick.phase ≠ .idle)) ∧
    (∃ (s : State), s.chip.Calm ∧ s.chip.bit F.TICK_STATUS_RUNNING = true ∧ s.chip.tick.phase = .idle) ∧
    (∃ (s : State), s.chip.Calm ∧ s.chip.bit F.CLK_STATUS_AUD_LOCK = false) ∧
    (∃ (s : State), s.chip.Calm ∧ s.chip.bit F.CLK_STATUS_AUD_LOCK = true) ∧
    (∃ (s : State), s.chip.Calm ∧ s.chip.bit F.CLK_STATUS_AUD_LOCK = false) ∧
    (∃ (s : State), s.chip.Calm ∧ (s.chip.bit F.TICK_STATUS_RUNNING = false ∨ s.chip.tick.phase ≠ .idle)) ∧
    (∃ (s : State), s.chip.Calm ∧ s.chip.bit F.TICK_STATUS_RUNNING = true ∧ s.chip.tick.phase = .idle) ∧
    (∃ (s : State), s.chip.Calm ∧ s.chip.bit F.CLK_STATUS_XTAL_OK = false ∧
      (s.chip.bit F.CLK_STATUS_SAFE = false ∨ s.chip.bit F.TICK_STATUS_RUNNING = false ∨ s.chip.tick.phase ≠ .idle ∨
            s.chip.bit F.TICK_STATUS_PAUSED = true)) ∧
    (∃ (s : State), s.chip.Calm ∧ s.chip.bit F.CLK_STATUS_XTAL_OK = true) :=
  ⟨
    ⟨(fs []), .cp, by decide +kernel, by decide +kernel⟩,
    ⟨(fs [(F.ACT_OUT_DUTY 7, 9)]), by decide +kernel⟩,
    ⟨(safeSt []), by decide +kernel, by decide +kernel, by decide +kernel, by decide +kernel, by decide +kernel⟩,
    ⟨(alter (safeSt []) fun c => { c with tick := { c.tick with phase := .p1 } }), by decide +kernel,
            by decide +kernel, by decide +kernel⟩,
    ⟨(fs [(F.CLK_STATUS_SYS_LOCK,1)]), by decide +kernel, by decide +kernel⟩,
    ⟨(safeSt []), by decide +kernel, by decide +kernel⟩,
    ⟨(fs []), by decide +kernel, by decide +kernel⟩,
    ⟨(fs [(F.TICK_STATUS_RUNNING,1),(F.SENSE_STATUS_RUNNING,1)]), by decide +kernel, by decide +kernel,
            by decide +kernel⟩,
    ⟨(fs [(F.TICK_STATUS_RUNNING,1),(F.TICK_STATUS_PAUSED,1),(F.AUD_CFG_SEED,77),(F.CLK_STATUS_AUD_LOCK,0)]),
            by decide +kernel, by decide +kernel⟩,
    ⟨(fs [(F.CLK_STATUS_AUD_LOCK,1)]), by decide +kernel, by decide +kernel⟩,
    ⟨(fs [(F.CLK_STATUS_AUD_LOCK,0)]), by decide +kernel, by decide +kernel⟩,
    ⟨(fs []), by decide +kernel, by decide +kernel⟩,
    ⟨(fs [(F.TICK_STATUS_RUNNING,1)]), by decide +kernel, by decide +kernel, by decide +kernel⟩,
    ⟨(safeSt [(F.CLK_STATUS_XTAL_OK,0),(F.CLK_STATUS_AUD_LOCK,1)]), by decide +kernel, by decide +kernel,
            by decide +kernel⟩,
    ⟨(safeSt []), by decide +kernel, by decide +kernel⟩⟩

/-! ### Sensing -/

/-- A running scan whose point 5 has a type and a state, with more fields. -/
def scan (ty : Nat) (x : SPoint) (l : List (Field × Nat)) : State :=
  alter (fs ([(F.SENSE_STATUS_RUNNING, 1), (F.SENSE_PT_CFG_TYPE 5, ty), (F.SENSE_PT_CAL_GAIN 5, 0x4000),
    (F.SENSE_PT_THR_ON_THR 5, 0x8000), (F.SENSE_PT_THR_OFF_THR 5, 0x4000)] ++ l))
    fun c => { (List.range 16).foldl (fun c j => c.setReg (Reg.SENSE_LIN 5 j) (BitVec.ofNat 32 (0x8000000 * (2 * j + 1) + 4096 * j))) c with
      sense := { c.sense with points := [(5, x)], slot := 5 } }

theorem test_senseFrontEnd_met :
    (∃ (s : State) (m : Master) (v : Word), s.chip.Calm ∧ s.chip.writes m Reg.SENSE_CTRL = true ∧
      (bitAt v.toNat 30 = false ∨ s.chip.bit F.SENSE_STATUS_RUNNING = true) ∧ s.chip.bit F.SENSE_CTRL_EN = true) ∧
    (∃ (s : State) (a : Nat), s.chip.Calm ∧ s.chip.domOn 13 = true ∧ s.chip.bit F.SENSE_STATUS_RUNNING = true ∧
      s.chip.sense.slot < s.chip.slotsPerTick ∧ a = s.chip.muxAddr s.chip.sense.slot ∧
      (∀ j : Nat, j < 32 → s.chip.bit (F.ACT_CS_CS_EN j) = false)) ∧
    (∃ (s : State) (codes : BitVec 256) (k : Nat) (p : Nat) (code : Nat) (out : Nat), s.chip.Calm ∧
      s.chip.domOn 13 = true ∧ s.chip.bit F.SENSE_STATUS_RUNNING = true ∧ s.chip.sense.slot < s.chip.slotsPerTick ∧
      k < 16 ∧ p = 16 * k + s.chip.muxAddr s.chip.sense.slot ∧ code = codes.toNat / 2 ^ (16 * k) % 65536 ∧
      (0x40 ≤ code ∧ code ≤ 0xFFBF) ∧ s.chip.ptType p = 1 ∧ s.chip.ptBad p = false ∧ out = s.chip.linOut p code) ∧
    (∃ (s : State) (codes : BitVec 256) (k : Nat) (p : Nat) (code : Nat) (out : Nat), s.chip.Calm ∧
      s.chip.domOn 13 = true ∧ s.chip.bit F.SENSE_STATUS_RUNNING = true ∧ s.chip.sense.slot < s.chip.slotsPerTick ∧
      k < 16 ∧ p = 16 * k + s.chip.muxAddr s.chip.sense.slot ∧ code = codes.toNat / 2 ^ (16 * k) % 65536 ∧
      (0x40 ≤ code ∧ code ≤ 0xFFBF) ∧ s.chip.ptType p = 2 ∧ s.chip.ptBad p = false ∧ out = s.chip.linOut p code) ∧
    (∃ (s : State), s.chip.Calm ∧
      (s.chip.domOn 13 = false ∨ s.chip.bit F.SENSE_STATUS_RUNNING = false ∨ s.chip.slotsPerTick ≤ s.chip.sense.slot)) ∧
    (∃ (s : State) (k : Fin 16), s.chip.Calm ∧ s.chip.domOn 13 = true ∧ s.chip.fbit F.SENSE_ADC_FAULT_NOW k = false) ∧
    (∃ (s : State) (k : Fin 16), s.chip.Calm ∧ s.chip.domOn 13 = true ∧ s.chip.fbit F.SENSE_ADC_FAULT_NOW k = true) ∧
    (∃ (s : State) (k : Fin 16) (bad : Bool), s.chip.Calm ∧
      (s.chip.domOn 13 = false ∨ s.chip.fbit F.SENSE_ADC_FAULT_NOW k = bad)) ∧
    (∃ (s : State) (m : Master) (v : Word), s.chip.Calm ∧ s.chip.writes m Reg.SENSE_CTRL = true ∧
      (s.chip.bit F.SENSE_CTRL_EN = false ∨ bitAt v.toNat 31 = true)) ∧
    (∃ (s : State), s.chip.Calm ∧ s.chip.bit F.SENSE_STATUS_CAL_BUSY = true) ∧
    (∃ (s : State), s.chip.Calm ∧ s.chip.bit F.SENSE_STATUS_CAL_BUSY = false) ∧
    (∃ (s : State) (m : Master) (k : Fin 2) (e : Word × Word) (l : List (Word × Word)), s.chip.Calm ∧
      s.chip.reads m (Reg.SENSE_FIFO_B k) = true ∧ m ≠ .debug ∧ s.chip.fifoOf k = e :: l ∧ l.length < 512) ∧
    (∃ (s : State) (m : Master) (k : Fin 2), s.chip.Calm ∧ s.chip.reads m (Reg.SENSE_FIFO_B k) = true ∧
      (m = .debug ∨ s.chip.fifoOf k = [])) ∧
    (∃ (s : State) (level : Bool), s.chip.Calm ∧ s.chip.bit F.AUX_CMP_EN = true ∧ s.chip.bit F.AUX_CMP_LEVEL ≠ level) ∧
    (∃ (s : State), s.chip.Calm ∧ s.chip.bit F.AUX_CMP_EN = false) :=
  ⟨
    ⟨(scan 1 {} [(F.SENSE_CTRL_EN,1)]), .cp, 0x20000000, by decide +kernel, by decide +kernel, by decide +kernel,
            by decide +kernel⟩,
    ⟨(scan 1 {} []), 5, by decide +kernel, by decide +kernel, by decide +kernel, by decide +kernel,
            by decide +kernel, by decide +kernel⟩,
    ⟨(scan 1 { conv := 5, y := 0x7000, v := 3, at_ := 0, vvalid := true } []), 0x8800, 0, 5, 0x8800, 0x8800,
            by decide +kernel, by decide +kernel, by decide +kernel, by decide +kernel, by decide +kernel,
            by decide +kernel, by decide +kernel, by decide +kernel, by decide +kernel, by decide +kernel,
            by decide +kernel⟩,
    ⟨(alter (scan 2 {} [(F.ACT_CS_CS_EN 3, 1), (F.ACT_CS_CS_POINT 3, 5), (F.ACT_CS_ILIM 3, 0x100)]) fun c =>
                c.modAct 3 fun x => { x with cs := 3 }), 0x1000, 0, 5, 0x1000, 0x1000, by decide +kernel,
            by decide +kernel, by decide +kernel, by decide +kernel, by decide +kernel, by decide +kernel,
            by decide +kernel, by decide +kernel, by decide +kernel, by decide +kernel, by decide +kernel⟩,
    ⟨(fs []), by decide +kernel, by decide +kernel⟩,
    ⟨(scan 1 {} []), 0, by decide +kernel, by decide +kernel, by decide +kernel⟩,
    ⟨(scan 1 { conv := 9 } [(F.SENSE_ADC_FAULT_NOW, 1)]), 0, by decide +kernel, by decide +kernel, by decide +kernel⟩,
    ⟨(fs []), 3, false, by decide +kernel, by decide +kernel⟩,
    ⟨(fs []), .cp, 0x2000000F, by decide +kernel, by decide +kernel, by decide +kernel⟩,
    ⟨(fs [(F.SENSE_STATUS_CAL_BUSY,1)]), by decide +kernel, by decide +kernel⟩,
    ⟨(fs []), by decide +kernel, by decide +kernel⟩,
    ⟨(alter (fs []) fun c => c.fifoPush 1 (5, 6)), .cp, 1, (5, 6), [], by decide +kernel, by decide +kernel,
            by decide +kernel, by decide +kernel, by decide +kernel⟩,
    ⟨(alter (fs [(F.ID_LIFECYCLE_STATE,0)]) fun c =>
                { (c.fifoPush 1 (5, 6)) with sec := { c.sec with open_ := true } }), .debug, 1, by decide +kernel,
            by decide +kernel, by decide +kernel⟩,
    ⟨(fs [(F.AUX_CMP_EN,1)]), true, by decide +kernel, by decide +kernel, by decide +kernel⟩,
    ⟨(fs []), by decide +kernel, by decide +kernel⟩⟩

/-! ### Actuators, mailboxes, bells -/

/-- Channel 9 enabled with a duty and energy, with more fields. -/
def act9 (acc : Nat) (l : List (Field × Nat)) : State :=
  alter (fs ([(F.ACT_CTRL_EN 9, 1), (F.ACT_OUT_DUTY 9, 0x8000), (F.ACT_LIM_DUTY_MAX 9, 0xFFFF), (F.ACT_EMAX_EMAX 9, 1000)] ++ l))
    fun c => c.modAct 9 fun x => { x with acc := acc, val := 0x40000000 }
/-- Mailbox 2 in a state, from sender 2, with every sender listed, and more fields. -/
def mbSt (st : Nat) (l : List (Field × Nat)) : State :=
  fs ([(F.MB_STATUS_STATE 2, st), (F.MB_STAMP_SENDER 2, 2), (F.MB_ACL_SENDERS 2, 0x7F)] ++ l)

theorem test_actuatorChannels_met :
    (∃ (s : State) (m : Master) (k : Fin 32), s.chip.Calm ∧ s.chip.writes m (Reg.ACT_CTRL k) = true ∧
      s.chip.bit (F.ACT_CTRL_EN k) = false) ∧
    (∃ (s : State) (m : Master) (k : Fin 32), s.chip.Calm ∧ s.chip.writes m (Reg.ACT_CTRL k) = true) ∧
    (∃ (s : State) (k : Fin 32) (acc : Nat), s.chip.Calm ∧ s.chip.domOn 14 = true ∧
      s.chip.bit F.CLK_STATUS_SAFE = false ∧
      acc = (s.chip.actCh k).acc + s.chip.fld (F.ACT_OUT_DUTY k) * s.chip.fld (F.ACT_OUT_DUTY k) / 65536 -
        s.chip.fld (F.ACT_LIM_LEAK k) ∧ acc ≤ s.chip.fld (F.ACT_EMAX_EMAX k) * 256) ∧
    (∃ (s : State) (k : Fin 32) (acc : Nat), s.chip.Calm ∧ s.chip.domOn 14 = true ∧
      s.chip.bit F.CLK_STATUS_SAFE = false ∧
      acc = (s.chip.actCh k).acc + s.chip.fld (F.ACT_OUT_DUTY k) * s.chip.fld (F.ACT_OUT_DUTY k) / 65536 -
        s.chip.fld (F.ACT_LIM_LEAK k) ∧ s.chip.fld (F.ACT_EMAX_EMAX k) * 256 < acc) ∧
    (∃ (s : State), s.chip.Calm ∧ (s.chip.domOn 14 = false ∨ s.chip.bit F.CLK_STATUS_SAFE = true)) ∧
    (∃ (s : State), s.chip.Calm ∧ s.chip.domOn 14 = true) ∧
    (∃ (s : State), s.chip.Calm ∧ s.chip.domOn 14 = true) ∧
    (∃ (s : State) (m : Master), s.chip.Calm ∧ s.chip.writes m Reg.ACT_STATUS = true) ∧
    (∃ (s : State) (m : Master), s.chip.Calm ∧ s.chip.writes m Reg.ACT_TRIP = true) ∧
    (∃ (s : State) (m : Master) (k : Fin 32), s.chip.Calm ∧ s.chip.writes m (Reg.ACT_LIM k) = true) ∧
    (∃ (s : State) (m : Master) (k : Fin 32), s.chip.Calm ∧ s.chip.writes m (Reg.ACT_EMAX k) = true) ∧
    (∃ (s : State) (m : Master) (k : Fin 32) (v : Word), s.chip.Calm ∧ s.chip.writes m (Reg.ACT_CS k) = true ∧
      bitAt v.toNat 31 = false ∧ (∀ j : Nat, j < 32 → s.chip.csBad j = false)) ∧
    (∃ (s : State) (m : Master) (k : Fin 32) (v : Word), s.chip.Calm ∧ s.chip.writes m (Reg.ACT_CS k) = true ∧
      bitAt v.toNat 31 = true ∧ s.chip.bit F.SENSE_STATUS_RUNNING = false ∧ s.chip.domOn 14 = true) :=
  ⟨
    ⟨(fs []), .cp, 9, by decide +kernel, by decide +kernel, by decide +kernel⟩,
    ⟨(act9 5 []), .cp, 9, by decide +kernel, by decide +kernel⟩,
    ⟨(act9 5 []), 9, 16389, by decide +kernel, by decide +kernel, by decide +kernel, by decide +kernel,
            by decide +kernel⟩,
    ⟨(act9 300000 []), 9, 316384, by decide +kernel, by decide +kernel, by decide +kernel, by decide +kernel,
            by decide +kernel⟩,
    ⟨(fs [(F.CLK_STATUS_SAFE,1)]), by decide +kernel, by decide +kernel⟩,
    ⟨(act9 5 []), by decide +kernel, by decide +kernel⟩,
    ⟨(fs [(F.ACT_STATUS_FLT_NOW,15)]), by decide +kernel, by decide +kernel⟩,
    ⟨(act9 5 [(F.ACT_STATUS_CEIL,1)]), .cp, by decide +kernel, by decide +kernel⟩,
    ⟨(act9 128000 [(F.ACT_TRIP_TRIP,0x300)]), .cp, by decide +kernel, by decide +kernel⟩,
    ⟨(fs [(F.ACT_FUSE_A_DUTY_CEIL 1, 0x1000), (F.ACT_FUSE_C_LEAK_CEIL 1, 9)]), .cp, 9, by decide +kernel,
            by decide +kernel⟩,
    ⟨(fs [(F.ACT_FUSE_B_EMAX_CEIL 1, 0x1000)]), .cp, 9, by decide +kernel, by decide +kernel⟩,
    ⟨(fs [(F.ACT_FUSE_A_ILIM_CEIL 1, 0x1000)]), .cp, 9, 0x1001, by decide +kernel, by decide +kernel,
            by decide +kernel, by decide +kernel⟩,
    ⟨(fs []), .cp, 9, 0x80051001, by decide +kernel, by decide +kernel, by decide +kernel, by decide +kernel,
            by decide +kernel⟩⟩

theorem test_mailboxes_met :
    (∃ (s : State) (m : Master) (mb : Fin 24) (k : Fin 16), s.chip.Calm ∧ s.chip.writes m (Reg.MB_DATA mb k) = true) ∧
    (∃ (s : State) (m : Master) (mb : Fin 24), s.chip.Calm ∧ s.chip.writes m (Reg.MB_CTRL mb) = true ∧
      s.chip.listed mb m.id = true ∧ s.chip.mbState mb = 0 ∧ s.chip.domOn (s.chip.recvDom mb) = true) ∧
    (∃ (s : State) (m : Master) (mb : Fin 24), s.chip.Calm ∧ s.chip.writes m (Reg.MB_CTRL mb) = true ∧
      (s.chip.listed mb m.id = false ∨ s.chip.mbState mb ≠ 0)) ∧
    (∃ (s : State) (m : Master) (mb : Fin 24), s.chip.Calm ∧ s.chip.writes m (Reg.MB_CTRL mb) = true ∧
      s.chip.listed mb m.id = true ∧ s.chip.mbState mb = 0 ∧ s.chip.domOn (s.chip.recvDom mb) = false) ∧
    (∃ (s : State) (m : Master) (mb : Fin 24), s.chip.Calm ∧ s.chip.writes m (Reg.MB_ACK mb) = true) ∧
    (∃ (s : State) (m : Master) (mb : Fin 24), s.chip.Calm ∧ s.chip.writes m (Reg.MB_CTRL mb) = true) ∧
    (∃ (s : State) (m : Master) (mb : Fin 24), s.chip.Calm ∧ s.chip.writes m (Reg.MB_CTRL mb) = true ∧
      (m = .spi ∨ m = .i2c ∨ m = .usb)) ∧
    (∃ (s : State) (m : Master) (mb : Fin 24), s.chip.Calm ∧ s.chip.writes m (Reg.MB_CTRL mb) = true ∧
      (m = .cp ∨ m = .secp ∨ m = .debug)) ∧
    (∃ (s : State), s.chip.Calm) :=
  ⟨
    ⟨(mbSt 2 []), .spi, 2, 15, by decide +kernel, by decide +kernel⟩,
    ⟨(mbSt 0 [(F.MB_STATUS_TIMEOUT 2, 1), (F.EPOCH_EPOCH 1, 9), (F.EPOCH_EPOCH 2, 5)]), .spi, 2, by decide +kernel,
            by decide +kernel, by decide +kernel, by decide +kernel, by decide +kernel⟩,
    ⟨(mbSt 1 []), .spi, 2, by decide +kernel, by decide +kernel, by decide +kernel⟩,
    ⟨(mbSt 0 [(F.PMU_DSTATE0_STATE, 2 ^ 21 + 2 ^ 23)]), .spi, 2, by decide +kernel, by decide +kernel,
            by decide +kernel, by decide +kernel, by decide +kernel⟩,
    ⟨(mbSt 1 []), .cp, 2, by decide +kernel, by decide +kernel⟩,
    ⟨(mbSt 1 []), .spi, 2, by decide +kernel, by decide +kernel⟩,
    ⟨(mbSt 1 [(F.EPOCH_EPOCH 2, 255), (F.SEM_FREE 9, 0), (F.SEM_OWNER 9, 2)]), .spi, 2, by decide +kernel,
            by decide +kernel, by decide +kernel⟩,
    ⟨(mbSt 1 []), .cp, 2, by decide +kernel, by decide +kernel, by decide +kernel⟩,
    ⟨(mbSt 1 [(F.MB_TIMEOUT_UNITS 2, 3)]), by decide +kernel⟩⟩

theorem test_bellsSemaphoresAndPin_met :
    (∃ (s : State), s.chip.Calm) ∧
    (∃ (s : State) (m : Master), s.chip.Calm ∧ s.chip.writes m Reg.CP_CTRL = true ∧ m = .secp) ∧
    (∃ (s : State) (m : Master), s.chip.Calm ∧ s.chip.writes m Reg.CP_CTRL = true ∧ m ≠ .secp) ∧
    (∃ (s : State) (m : Master) (g : Fin 8), s.chip.Calm ∧ s.chip.writes m (Reg.BELL_RING g) = true) ∧
    (∃ (s : State) (m : Master) (g : Fin 8), s.chip.Calm ∧ s.chip.writes m (Reg.BELL g) = true ∧
      (m = .cp ∨ m = .secp)) ∧
    (∃ (s : State) (m : Master), s.chip.Calm ∧ (m = .spi ∨ m = .i2c ∨ m = .usb)) ∧
    (∃ (s : State) (m : Master) (k : BitVec 6), s.chip.Calm ∧ s.chip.reads m (Reg.SEM k.toNat) = true ∧
      s.chip.bit (F.SEM_FREE k.toNat) = true ∧ (m = .cp ∨ m = .secp)) ∧
    (∃ (s : State) (m : Master) (k : BitVec 6), s.chip.Calm ∧ s.chip.reads m (Reg.SEM k.toNat) = true ∧
      s.chip.bit (F.SEM_FREE k.toNat) = false ∧ (m = .cp ∨ m = .secp)) ∧
    (∃ (s : State) (k : BitVec 6), s.chip.Calm ∧ s.chip.reads .debug (Reg.SEM k.toNat) = true) ∧
    (∃ (s : State) (m : Master), s.chip.Calm ∧ s.chip.writes m Reg.SEM_REL = true) :=
  ⟨
    ⟨(alter (fs [(F.EVT_HOST_CTRL_EN,1),(F.EVT_CFG_HOST 77, 1)]) fun c => c.raise 77), by decide +kernel⟩,
    ⟨(alter cpRun fun c => c.setFld F.CORE_ESTAT_RUNLVL 9), .secp, by decide +kernel, by decide +kernel,
            by decide +kernel⟩,
    ⟨(fs []), .cp, by decide +kernel, by decide +kernel, by decide +kernel⟩,
    ⟨(fs [(F.BELL_MASK 3, 6)]), .spi, 3, by decide +kernel, by decide +kernel⟩,
    ⟨(fs [(F.BELL_BELL 3, 0xF)]), .cp, 3, by decide +kernel, by decide +kernel, by decide +kernel⟩,
    ⟨(fs [(F.BELL_BELL 3, 0xF)]), .spi, by decide +kernel, by decide +kernel⟩,
    ⟨(fs []), .cp, 63, by decide +kernel, by decide +kernel, by decide +kernel, by decide +kernel⟩,
    ⟨(fs [(F.SEM_FREE 5,0),(F.SEM_OWNER 5,2)]), .cp, 5, by decide +kernel, by decide +kernel, by decide +kernel,
            by decide +kernel⟩,
    ⟨(alter (fs [(F.SEM_FREE 5,0),(F.SEM_OWNER 5,2)]) fun c => { c with sec := { c.sec with open_ := true } }), 5,
            by decide +kernel, by decide +kernel⟩,
    ⟨(fs [(F.SEM_FREE 5,0),(F.SEM_OWNER 5,1)]), .cp, by decide +kernel, by decide +kernel⟩⟩

/-! ### Host ports, USB, MIDI -/

/-- Mailbox 2 may be written by every sender; the host ports respond. -/
def hostSt (l : List (Field × Nat)) : State :=
  fs ([(F.MB_ACL_SENDERS 2, 0x7F), (F.HPORT_CFG_SPI_EN, 1), (F.HPORT_CFG_I2C_EN, 1), (F.HPORT_CFG_I2C_ADDR, 0x2C)] ++ l)

/-- The two bytes of a frame's check. -/
def crcBytes (b : List Byte) : List Byte := [BitVec.ofNat 8 (crc16 b / 256), BitVec.ofNat 8 (crc16 b)]
/-- A connected and configured USB device, with more fields. -/
def usbSt (l : List (Field × Nat)) : State :=
  fs ([(F.USB_CTRL_CONNECT, 1), (F.USB_CTRL_HS_EN, 1), (F.USB_STATUS_CONFIGURED, 1), (F.USB_STATUS_SPEED, 2), (F.USB_STATUS_ADDR, 5)] ++ l)

/-- A device that serves alternate setting 1 in both directions. -/
def usbAudio : State := usbSt [(F.TICK_CADENCE_RATE, 1), (F.USB_STATUS_ALT_OUT, 1), (F.USB_STATUS_ALT_IN, 1)]
/-- UART 2 enabled both ways with bytes in its FIFOs. -/
def midiSt (rx : List (Word × Word)) (tx : List Byte) : State :=
  alter (fs [(F.MIDI_CFG_RX_EN 2, 1), (F.MIDI_CFG_TX_EN 2, 1)]) fun c => c.setMidi 2 { rx := rx, tx := tx }

theorem test_hostPorts_met :
    (∃ (s : State) (mb : Fin 8) (k : Fin 16) (v : Word) (b : List Byte), s.chip.Calm ∧
      s.chip.bit F.HPORT_CFG_SPI_EN = true ∧ b = [0x60, BitVec.ofNat 8 (32 * mb + k), 0] ++ wordBytes v) ∧
    (∃ (s : State) (off : Nat) (a : Nat) (b : List Byte) (out : List Byte), s.chip.Calm ∧
      s.chip.bit F.HPORT_CFG_SPI_EN = true ∧ off < 4096 ∧ off % 4 = 0 ∧ s.chip.windowReg 2 off = some a ∧
      (off < 0x600 ∨ 0x610 < off) ∧ b = [0xE0, BitVec.ofNat 8 (off / 4), BitVec.ofNat 8 (off / 1024)] ∧
      out = (BitVec.ofNat 8 (0xC0 + s.chip.irq.toNat * 32 + 0) : Byte) :: wordBytes (s.chip.regValue 2 a)) ∧
    (∃ (s : State) (off : Nat) (v : Word) (b : List Byte), s.chip.Calm ∧ s.chip.bit F.HPORT_CFG_SPI_EN = true ∧
      off < 4096 ∧ off % 4 = 0 ∧ s.chip.windowReg 2 off = none ∧ (off < 0x600 ∨ 0x610 ≤ off) ∧
      b = [0x60, BitVec.ofNat 8 (off / 4), BitVec.ofNat 8 (off / 1024)] ++ wordBytes v) ∧
    (∃ (s : State) (b : List Byte) (c0 : Byte) (c1 : Byte), s.chip.Calm ∧ s.chip.bit F.HPORT_CFG_SPI_EN = true ∧
      b.length = 3 ∧ bits (b.getD 0 0).toNat 7 4 = 14 ∧ (b.getD 2 0).toNat < 4 ∧ c0.toNat * 256 + c1.toNat ≠ crc16 b) ∧
    (∃ (s : State) (b : List Byte), s.chip.Calm ∧ s.chip.bit F.HPORT_CFG_SPI_EN = true ∧
      (b.length < 5 ∨ bits (b.getD 0 0).toNat 6 4 ≠ 6 ∨ 4 ≤ (b.getD 2 0).toNat)) ∧
    (∃ (s : State), s.chip.Calm ∧ s.chip.bit F.HPORT_CFG_SPI_EN = false) ∧
    (∃ (s : State) (addr : BitVec 7), s.chip.Calm ∧ s.chip.bit F.HPORT_CFG_I2C_EN = true ∧
      addr.toNat = s.chip.fld F.HPORT_CFG_I2C_ADDR) ∧
    (∃ (s : State) (addr : BitVec 7) (off : Nat), s.chip.Calm ∧ s.chip.bit F.HPORT_CFG_I2C_EN = true ∧
      addr.toNat = s.chip.fld F.HPORT_CFG_I2C_ADDR ∧ off < 4096 ∧ off % 4 = 0 ∧ s.chip.windowReg 3 off = none ∧
      (off < 0x600 ∨ 0x610 ≤ off)) ∧
    (∃ (s : State) (addr : BitVec 7) (off : Nat) (a : Nat), s.chip.Calm ∧ s.chip.bit F.HPORT_CFG_I2C_EN = true ∧
      addr.toNat = s.chip.fld F.HPORT_CFG_I2C_ADDR ∧ off < 4096 ∧ off % 4 = 0 ∧ s.chip.windowReg 3 off = some a ∧
      (off < 0x600 ∨ 0x610 < off)) ∧
    (∃ (s : State) (addr : BitVec 7), s.chip.Calm ∧
      (s.chip.bit F.HPORT_CFG_I2C_EN = false ∨ addr.toNat ≠ s.chip.fld F.HPORT_CFG_I2C_ADDR)) ∧
    (∃ (s : State), s.chip.Calm) ∧
    (∃ (s : State), s.chip.Calm) :=
  ⟨
    ⟨(hostSt []), 2, 15, 0x12345678, ([0x60, 79, 0] ++ wordBytes 0x12345678), by decide +kernel, by decide +kernel,
            by decide +kernel⟩,
    ⟨(hostSt [(⟨Reg.READY, 8, 0⟩, 5)]), 0x500, Reg.READY, [0xE0, 0x40, 1], [0xC0, 5, 0, 0, 0], by decide +kernel,
            by decide +kernel, by decide +kernel, by decide +kernel, by decide +kernel, by decide +kernel,
            by decide +kernel, by decide +kernel⟩,
    ⟨(hostSt []), 0xFFC, 3, ([0x60, 0xFF, 3] ++ wordBytes 3), by decide +kernel, by decide +kernel,
            by decide +kernel, by decide +kernel, by decide +kernel, by decide +kernel, by decide +kernel⟩,
    ⟨(hostSt []), [0xE0, 0, 0], 0, 0, by decide +kernel, by decide +kernel, by decide +kernel, by decide +kernel,
            by decide +kernel, by decide +kernel⟩,
    ⟨(hostSt []), [0xE0, 0, 0], by decide +kernel, by decide +kernel, by decide +kernel⟩,
    ⟨(fs [(F.HPORT_CFG_SPI_EN,0)]), by decide +kernel, by decide +kernel⟩,
    ⟨(hostSt []), 0x2C, by decide +kernel, by decide +kernel, by decide +kernel⟩,
    ⟨(hostSt []), 0x2C, 0xFFC, by decide +kernel, by decide +kernel, by decide +kernel, by decide +kernel,
            by decide +kernel, by decide +kernel, by decide +kernel⟩,
    ⟨(hostSt [(⟨Reg.READY, 8, 0⟩, 5)]), 0x2C, 0x500, Reg.READY, by decide +kernel, by decide +kernel,
            by decide +kernel, by decide +kernel, by decide +kernel, by decide +kernel, by decide +kernel⟩,
    ⟨(hostSt []), 0x2D, by decide +kernel, by decide +kernel⟩,
    ⟨(hostSt []), by decide +kernel⟩,
    ⟨(hostSt [(F.HPORT_CFG_WAKE_EN,1),(F.PMU_DSTATE0_STATE,5)]), by decide +kernel⟩⟩

theorem test_usbDevice_met :
    (∃ (s : State), s.chip.Calm ∧ s.chip.usbLive = true) ∧
    (∃ (s : State), s.chip.Calm ∧ s.chip.usbLive = true) ∧
    (∃ (s : State), s.chip.Calm ∧ s.chip.usbLive = true) ∧
    (∃ (s : State), s.chip.Calm ∧ s.chip.domOn 15 = false) ∧
    (∃ (s : State) (a : Nat), s.chip.Calm ∧ s.chip.usbLive = true ∧ a < 128) ∧
    (∃ (s : State), s.chip.Calm ∧ s.chip.usbLive = true) ∧
    (∃ (s : State), s.chip.Calm ∧ s.chip.usbLive = true) ∧
    (∃ (s : State), s.chip.Calm ∧ s.chip.usbLive = true) ∧
    (∃ (s : State), s.chip.Calm ∧ s.chip.usbLive = true) ∧
    (∃ (s : State) (b : List Byte) (l : List (List Word)), s.chip.Calm ∧ s.chip.usbLive = true ∧
      s.chip.fld F.USB_STATUS_ALT_OUT ≠ 0 ∧ s.chip.rate / 2 + 1 = s.chip.fld F.USB_STATUS_ALT_OUT ∧
      l = s.chip.usb.fifo ++ pieces (Chip.altChannels (s.chip.fld F.USB_STATUS_ALT_OUT)) b.length (wordsOf b)) ∧
    (∃ (s : State), s.chip.Calm ∧ s.chip.usbLive = true ∧ s.chip.fld F.USB_STATUS_ALT_IN ≠ 0) ∧
    (∃ (s : State), s.chip.Calm ∧ s.chip.usbLive = true ∧ s.chip.fld F.USB_STATUS_ALT_OUT ≠ 0) ∧
    (∃ (s : State), s.chip.Calm ∧ s.chip.usbLive = true ∧ s.chip.bit F.USB_STATUS_CONFIGURED = true ∧
      s.chip.recovery = false) ∧
    (∃ (s : State), s.chip.Calm ∧ (s.chip.usbLive = false ∨ s.chip.bit F.USB_STATUS_CONFIGURED = false)) ∧
    (∃ (s : State), s.chip.Calm ∧ s.chip.usbLive = true ∧ s.chip.bit F.USB_STATUS_CONFIGURED = true) ∧
    (∃ (s : State) (m : Master) (v : Word), s.chip.Calm ∧ s.chip.writes m Reg.USB_CTRL = true ∧
      bitAt v.toNat 31 = true) ∧
    (∃ (s : State), s.chip.Calm ∧ s.chip.usbLive = false) :=
  ⟨
    ⟨usbAudio, by decide +kernel, by decide +kernel⟩,
    ⟨(usbSt []), by decide +kernel, by decide +kernel⟩,
    ⟨(usbSt [(F.USB_STATUS_SUSPENDED,1)]), by decide +kernel, by decide +kernel⟩,
    ⟨(fs [(F.PMU_DSTATE0_STATE, 0x80000000),(F.PMU_WAKE_EN_USB,1)]), by decide +kernel, by decide +kernel⟩,
    ⟨(usbSt []), 99, by decide +kernel, by decide +kernel, by decide +kernel⟩,
    ⟨usbAudio, by decide +kernel, by decide +kernel⟩,
    ⟨usbAudio, by decide +kernel, by decide +kernel⟩,
    ⟨usbAudio, by decide +kernel, by decide +kernel⟩,
    ⟨usbAudio, by decide +kernel, by decide +kernel⟩,
    ⟨usbAudio, (List.replicate 256 1), [List.replicate 32 0x01010101, List.replicate 32 0x01010101],
            by decide +kernel, by decide +kernel, by decide +kernel, by decide +kernel, by decide +kernel⟩,
    ⟨(alter usbAudio fun c => { c with usb := { c.usb with inq := [[1, 2]] } }), by decide +kernel,
            by decide +kernel, by decide +kernel⟩,
    ⟨usbAudio, by decide +kernel, by decide +kernel, by decide +kernel⟩,
    ⟨(usbSt [(F.MB_ACL_SENDERS 17, 16)]), by decide +kernel, by decide +kernel, by decide +kernel, by decide +kernel⟩,
    ⟨(fs []), by decide +kernel, by decide +kernel⟩,
    ⟨(alter (usbSt [(F.EVT_CFG_HOST 77,1)]) fun c => c.raise 77), by decide +kernel, by decide +kernel,
            by decide +kernel⟩,
    ⟨(alter (usbSt [(F.USB_STATUS_SUSPENDED,1)]) fun c => { c with usb := { c.usb with rwake := true } }), .cp,
            0x80000000, by decide +kernel, by decide +kernel, by decide +kernel⟩,
    ⟨(fs []), by decide +kernel, by decide +kernel⟩⟩

theorem test_midiPorts_met :
    (∃ (s : State) (k : Fin 4), s.chip.Calm ∧ s.chip.domOn 10 = true ∧ s.chip.bit (F.MIDI_CFG_RX_EN k) = true ∧
      (s.chip.midiCh k).rx.length < 64) ∧
    (∃ (s : State) (k : Fin 4), s.chip.Calm ∧ s.chip.domOn 10 = true ∧ s.chip.bit (F.MIDI_CFG_RX_EN k) = true ∧
      64 ≤ (s.chip.midiCh k).rx.length) ∧
    (∃ (s : State) (k : Fin 4), s.chip.Calm ∧ (s.chip.domOn 10 = false ∨ s.chip.bit (F.MIDI_CFG_RX_EN k) = false)) ∧
    (∃ (s : State) (m : Master) (k : Fin 4) (e : Word × Word) (l : List (Word × Word)), s.chip.Calm ∧
      s.chip.reads m (Reg.MIDI_RX_B k) = true ∧ m ≠ .debug ∧ (s.chip.midiCh k).rx = e :: l ∧ l.length < 256) ∧
    (∃ (s : State) (m : Master) (k : Fin 4), s.chip.Calm ∧ s.chip.reads m (Reg.MIDI_RX_B k) = true ∧
      (m = .debug ∨ (s.chip.midiCh k).rx = [])) ∧
    (∃ (s : State) (n : Nat) (used : Nat), s.chip.Calm ∧ s.chip.usbLive = true ∧
      s.chip.bit F.USB_STATUS_CONFIGURED = true ∧ n = 2 ^ (min (s.chip.fld F.USB_MIDI_RX_BASE_SIZE) 10 + 6) ∧
      used = (s.chip.fld F.USB_MIDI_RX_PTR_HEAD % n + n - s.chip.fld F.USB_MIDI_RX_PTR_TAIL % n) % n) ∧
    (∃ (s : State) (n : Nat) (k : Nat), s.chip.Calm ∧ s.chip.usbLive = true ∧
      s.chip.bit F.USB_STATUS_CONFIGURED = true ∧ n = 2 ^ (min (s.chip.fld F.USB_MIDI_TX_BASE_SIZE) 10 + 6) ∧
      k = min (if s.chip.fld F.USB_STATUS_SPEED = 2 then 512 else 64)
        ((s.chip.fld F.USB_MIDI_TX_PTR_HEAD % n + n - s.chip.fld F.USB_MIDI_TX_PTR_TAIL % n) % n)) :=
  ⟨
    ⟨(midiSt [] []), 2, by decide +kernel, by decide +kernel, by decide +kernel, by decide +kernel⟩,
    ⟨(midiSt (List.replicate 64 (1,2)) []), 2, by decide +kernel, by decide +kernel, by decide +kernel,
            by decide +kernel⟩,
    ⟨(fs []), 2, by decide +kernel, by decide +kernel⟩,
    ⟨(midiSt [(1,2),(3,4)] []), .cp, 2, (1, 2), [(3, 4)], by decide +kernel, by decide +kernel, by decide +kernel,
            by decide +kernel, by decide +kernel⟩,
    ⟨(midiSt [] []), .cp, 2, by decide +kernel, by decide +kernel, by decide +kernel⟩,
    ⟨(usbSt [(F.USB_MIDI_RX_PTR_HEAD, 62)]), 64, 62, by decide +kernel, by decide +kernel, by decide +kernel,
            by decide +kernel, by decide +kernel⟩,
    ⟨(usbSt [(F.USB_MIDI_TX_PTR_HEAD, 2),(F.USB_MIDI_TX_PTR_TAIL, 62)]), 64, 4, by decide +kernel,
            by decide +kernel, by decide +kernel, by decide +kernel, by decide +kernel⟩⟩

theorem test_midiTransmit_met :
    (∃ (s : State) (m : Master) (k : Fin 4), s.chip.Calm ∧ s.chip.writes m (Reg.MIDI_TX k) = true ∧
      (s.chip.midiCh k).tx.length < 64) ∧
    (∃ (s : State) (m : Master) (k : Fin 4), s.chip.Calm ∧ s.chip.writes m (Reg.MIDI_TX k) = true ∧
      64 ≤ (s.chip.midiCh k).tx.length) ∧
    (∃ (s : State) (k : Fin 4) (b : Byte) (l : List Byte), s.chip.Calm ∧ s.chip.domOn 10 = true ∧
      s.chip.bit (F.MIDI_CFG_TX_EN k) = true ∧ (s.chip.midiCh k).tx = b :: l ∧ l.length < 256) ∧
    (∃ (s : State) (k : Fin 4), s.chip.Calm ∧
      (s.chip.domOn 10 = false ∨ s.chip.bit (F.MIDI_CFG_TX_EN k) = false ∨ (s.chip.midiCh k).tx = [])) :=
  ⟨
    ⟨(midiSt [] [5]), .cp, 2, by decide +kernel, by decide +kernel, by decide +kernel⟩,
    ⟨(midiSt [] (List.replicate 64 5)), .cp, 2, by decide +kernel, by decide +kernel, by decide +kernel⟩,
    ⟨(midiSt [] [5, 6]), 2, 5, [6], by decide +kernel, by decide +kernel, by decide +kernel, by decide +kernel,
            by decide +kernel⟩,
    ⟨(fs []), 1, by decide +kernel, by decide +kernel⟩⟩

theorem test_shiftCounts_met :
    (∃ (s : State) (core : CoreId) (x : AArgs) (n : Nat), s.chip.Calm ∧ s.chip.ready core = true ∧
      aOk core .shl x = true ∧ n = (s.chip.gpr core x.rb).toNat % 64) ∧
    (∃ (s : State) (core : CoreId) (x : AArgs) (n : Nat), s.chip.Calm ∧ s.chip.ready core = true ∧
      aOk core .shr x = true ∧ n = (s.chip.gpr core x.rb).toNat % 64) ∧
    (∃ (s : State) (core : CoreId) (x : AArgs) (n : Nat), s.chip.Calm ∧ s.chip.ready core = true ∧
      aOk core .sra x = true ∧ n = (s.chip.gpr core x.rb).toNat % 64) ∧
    (∃ (s : State) (core : CoreId) (x : AArgs) (n : Nat), s.chip.Calm ∧ s.chip.ready core = true ∧
      aOk core .ror x = true ∧ n = (s.chip.gpr core x.rb).toNat % 64) ∧
    (∃ (s : State) (core : CoreId) (x : AArgs) (n : Nat), s.chip.Calm ∧ s.chip.ready core = true ∧
      aOk core .shi x = true ∧ n = bits x.imm10 5 0) :=
  ⟨
    ⟨eng3, 3, ⟨8, 16⟩, 5, by decide +kernel, by decide +kernel, by decide +kernel, by decide +kernel⟩,
    ⟨eng3, 3, ⟨8, 2064⟩, 5, by decide +kernel, by decide +kernel, by decide +kernel, by decide +kernel⟩,
    ⟨eng3, 3, ⟨8, 2064⟩, 5, by decide +kernel, by decide +kernel, by decide +kernel, by decide +kernel⟩,
    ⟨eng3, 3, ⟨8, 16⟩, 5, by decide +kernel, by decide +kernel, by decide +kernel, by decide +kernel⟩,
    ⟨eng3, 3, ⟨8, 2239⟩, 63, by decide +kernel, by decide +kernel, by decide +kernel, by decide +kernel⟩⟩

/-! ### Firmware: requests -/

/-- A staged route whose entry is in use already takes no free entry. -/
theorem place_one {c : Chip} {L : List (Nat × Nat × Word)} {src sink k : Nat} {g : Word} {free : List Nat}
    (hl : L = [(src, sink, g)]) (h : c.routeOf (src * 65536 + sink) = some k) :
    c.ndPlace L free [] = some ([(Reg.RT_GAIN k, g)], free) := by
  simp [hl, Chip.ndPlace, h]

/-- A block in which every function of READY has started, with more fields. -/
def up (l : List (Field × Nat)) : State := alter (fs l) fun c => c.setReg Reg.READY 0x1FF

/-- The message `ws` posted in mailbox `m` by sender `id`, which has negotiated minor 3. -/
def asked (s : State) (m id : Nat) (ws : List Word) : State :=
  alter s fun c => ((ws.zipIdx.foldl (fun c x => c.setReg (Reg.MB_DATA m x.2) x.1) c).setFld (F.MB_STATUS_STATE m) 1
    |>.setFld (F.MB_STAMP_SENDER m) id).modNdo fun n => { n with vers := [(id, 3, 0)] }

/-- The same on the block after reset but for READY and fields, in mailbox 0 from SPI. -/
def ask (l : List (Field × Nat)) (ws : List Word) : State := asked (up l) 0 2 ws

/-- An engine's part of a program image. -/
def img4 : ArsicEng := ⟨4, [0x10000], 0, 0, 0, 0, [1], [2], [], 0⟩

theorem test_firmwareRequests_met :
    (∃ (s : State) (m : Fin 24), s.chip.Due m ∧ bitAt (s.chip.reg (Reg.MB_STATUS m)).toNat 5 = false ∧
      (s.chip.recvEpoch m ≠ s.chip.fld (F.MB_STAMP_R_EPOCH m) ∨ s.chip.fld
            (F.EPOCH_EPOCH (s.chip.fld (F.MB_STAMP_SENDER m))) ≠ s.chip.fld (F.MB_STAMP_S_EPOCH m))) ∧
    (∃ (s : State) (m : Fin 24) (r : NdRec), s.chip.Due m ∧ s.chip.ndStale (s.chip.ndReq m) = false ∧
      ((s.chip.ndo.recs.find? fun x => x.1 == m.val && x.2.q.same (s.chip.ndReq m)) = some (m.val, r)) ∧
      (s.chip.ndReq m).op ≠ 1 ∧ (∀ b ∈ r.reply, b.1 = (s.chip.ndReq m).op)) ∧
    (∃ (s : State) (m : Fin 24), s.chip.New m ∧ (Chip.ndInfo (s.chip.ndReq m).op).isNone = true ∧
      (s.chip.ndMinor (s.chip.ndReq m).sender).isSome = true) ∧
    (∃ (s : State) (m : Fin 24), s.chip.New m ∧ ((s.chip.ndReq m).op ≠ 1 ∧ (s.chip.ndReq m).op ≠ 2) ∧
      s.chip.ndMinor (s.chip.ndReq m).sender = none) ∧
    (∃ (s : State) (m : Fin 24) (v : Nat), s.chip.New m ∧ ((s.chip.ndReq m).op ≠ 1 ∧ (s.chip.ndReq m).op ≠ 2) ∧
      (Chip.ndInfo (s.chip.ndReq m).op).isSome = true ∧ s.chip.ndMinor (s.chip.ndReq m).sender = some v ∧
      v < (s.chip.ndReq m).minor) ∧
    (∃ (s : State) (m : Fin 24) (v : Nat) (b : Nat) (r : Nat) (k : Chip.NdTandem), s.chip.New m ∧
      ((s.chip.ndReq m).op ≠ 1 ∧ (s.chip.ndReq m).op ≠ 2) ∧ s.chip.ndMinor (s.chip.ndReq m).sender = some v ∧
      (s.chip.ndReq m).minor ≤ v ∧ Chip.ndInfo (s.chip.ndReq m).op = some (some b, r, k) ∧
      bitAt s.chip.ndo.caps b = false) ∧
    (∃ (s : State) (m : Fin 24) (v : Nat) (r : Nat) (b : Option Nat) (k : Chip.NdTandem), s.chip.New m ∧
      ((s.chip.ndReq m).op ≠ 1 ∧ (s.chip.ndReq m).op ≠ 2) ∧ s.chip.ndMinor (s.chip.ndReq m).sender = some v ∧
      (s.chip.ndReq m).minor ≤ v ∧ Chip.ndInfo (s.chip.ndReq m).op = some (b, r, k) ∧
      (∀ x ∈ b, bitAt s.chip.ndo.caps x = true) ∧ s.chip.tandem = false ∧ s.chip.tlkState = 0 ∧
      s.chip.bit ⟨Reg.READY, r, r⟩ = false) ∧
    (∃ (s : State) (m : Fin 24), s.chip.Quiet ∧ s.chip.ndTurn m = false) ∧
    (∃ (s : State) (m : Fin 24) (q : NdReq) (w : Word) (v : Nat), q = s.chip.ndReq m ∧ s.chip.Served m 1 ∧
      (1 ≤ q.len ∧ q.len ≤ 4) ∧ ((q.body.all fun x => bits x.toNat 31 16 == 0) = true) ∧
      ((q.body.find? fun x => bits x.toNat 15 8 == 2) = some w) ∧ v = min (bits w.toNat 7 0) 3) ∧
    (∃ (s : State) (m : Fin 24) (q : NdReq), q = s.chip.ndReq m ∧ s.chip.Served m 1 ∧ (1 ≤ q.len ∧ q.len ≤ 4) ∧
      ((q.body.all fun x => bits x.toNat 31 16 == 0 && bits x.toNat 15 8 != 2) = true)) ∧
    (∃ (s : State) (m : Fin 24) (pend : Bool) (c1 : Chip), s.chip.Served m 2 ∧ (s.chip.ndReq m).len = 0 ∧
      pend =
        (s.chip.flashWord (s.chip.ndSlotAt 0) == 0xFFFFFF00 || s.chip.flashWord (s.chip.ndSlotAt 1) == 0xFFFFFF00) ∧
      c1 = s.chip.draw.2) ∧
    (∃ (s : State) (m : Fin 24) (q : NdReq) (b : Nat) (had : List Word), q = s.chip.ndReq m ∧
      s.chip.Served m 0x010 ∧ 2 ≤ q.len ∧ q.f 1 27 19 = 0 ∧ b = q.f 1 29 28 ∧
      (had = if bitAt (q.w 1) 31 = true then [] else (s.chip.ndBuf b).1) ∧ q.f 1 18 0 = had.length ∧
      had.length + (q.len - 1) ≤ 0x80000 ∧ s.chip.ndHeld [.buf b] = false ∧ bitAt (q.w 1) 30 = false) ∧
    (∃ (s : State) (m : Fin 24) (q : NdReq) (b : Nat) (had : List Word), q = s.chip.ndReq m ∧
      s.chip.Served m 0x010 ∧ 2 ≤ q.len ∧ q.f 1 27 19 = 0 ∧ b = q.f 1 29 28 ∧
      (had = if bitAt (q.w 1) 31 = true then [] else (s.chip.ndBuf b).1) ∧ q.f 1 18 0 = had.length ∧
      had.length + (q.len - 1) ≤ 0x80000 ∧ s.chip.ndHeld [.buf b] = false ∧ bitAt (q.w 1) 30 = true) ∧
    (∃ (s : State) (m : Fin 24) (q : NdReq) (b : Nat), q = s.chip.ndReq m ∧ s.chip.Served m 0x010 ∧ 2 ≤ q.len ∧
      q.f 1 27 19 = 0 ∧ b = q.f 1 29 28 ∧ bitAt (q.w 1) 31 = false ∧ s.chip.ndHeld [.buf b] = false ∧
      q.f 1 18 0 ≠ (s.chip.ndBuf b).1.length) ∧
    (∃ (s : State) (m : Fin 24) (q : NdReq) (l : List Nat), q = s.chip.ndReq m ∧ s.chip.Served m 0x011 ∧ q.len = 1 ∧
      q.w 1 &&& 0xCC00FF00 = 0 ∧ l = (List.range 10).filter (bitAt (q.f 1 25 16))) ∧
    (∃ (s : State) (m : Fin 24) (q : NdReq) (e : Nat) (l : List (Nat × Word)), q = s.chip.ndReq m ∧
      s.chip.Served m 0x020 ∧ 2 ≤ q.len ∧ q.f 1 26 15 = 0 ∧ e = q.f 1 31 28 ∧ e ≤ 9 ∧
      q.f 1 14 0 + (q.len - 1) ≤ 32768 ∧ s.chip.ndHeld [.eng e] = false ∧ s.chip.ndLedger = false ∧
      (l = (q.body.drop 1).zipIdx.map (fun x => (engBase (s.chip.phys e) +
                    (if bitAt (q.w 1) 27 then 0x100000 else 0x120000) + 4 * (q.f 1 14 0 + x.2), x.1))) ∧
      (if bitAt (q.w 1) 27 = true then s.chip.locked73 (s.chip.phys e) = false else s.chip.armedNames e 4 = false)) ∧
    (∃ (s : State) (m : Fin 24) (q : NdReq) (e : Nat), q = s.chip.ndReq m ∧ s.chip.Served m 0x020 ∧ 2 ≤ q.len ∧
      q.f 1 26 15 = 0 ∧ e = q.f 1 31 28) ∧
    (∃ (s : State) (m : Fin 24) (q : NdReq) (k : Nat) (l : List (Nat × Word)), q = s.chip.ndReq m ∧
      s.chip.Served m 0x021 ∧ bitAt (q.w 1) 28 = false ∧ q.len = 3 ∧ q.w 1 &&& 0x0C00FC00 = 0 ∧ q.f 1 9 0 ≠ 0 ∧
      bitAt (q.w 1) 29 = false ∧ s.chip.ndHeld (((List.range 10).filter (bitAt (q.f 1 9 0))).map .eng) = false ∧
      (List.range 4).find? s.chip.slotFree = some k ∧
      (∀ e : Nat, e < 10 → bitAt (q.f 1 9 0) e = true → s.chip.armedNames e 4 = false ∧
          s.chip.fbit F.PAN_STATUS_CF_BUSY e = false) ∧ s.chip.ndLedger = false ∧
      l = [(Reg.SWAP_AT_LO k, BitVec.ofNat 32 (q.w 2)), (Reg.SWAP_AT_HI k, BitVec.ofNat 32 (q.w 3)),
            (Reg.SWAP_CTRL k, BitVec.ofNat 32 (2 ^ 31 + (if bitAt (q.w 1) 31 then 2 ^ 29 else 0) +
                    (if bitAt (q.w 1) 30 then 2 ^ 28 else 0) + q.f 1 9 0))] ∧ ((Chip.ndDirect l s.chip).2 = true)) ∧
    (∃ (s : State) (m : Fin 24) (q : NdReq), q = s.chip.ndReq m ∧ s.chip.Served m 0x021 ∧ bitAt (q.w 1) 28 = false ∧
      q.len = 3 ∧ q.w 1 &&& 0x0C00FC00 = 0 ∧ q.f 1 9 0 ≠ 0 ∧ (bitAt (q.w 1) 29 = false ∨ 1 ≤ q.minor) ∧
      s.chip.ndHeld (((List.range 10).filter (bitAt (q.f 1 9 0))).map .eng) = false) ∧
    (∃ (s : State) (m : Fin 24) (q : NdReq) (l : List (Nat × Word)), q = s.chip.ndReq m ∧ s.chip.Served m 0x021 ∧
      bitAt (q.w 1) 28 = true ∧ q.len = 3 ∧ q.w 1 &&& 0x0C00FC00 = 0 ∧
      l = [(Reg.SWAP_CTRL (q.f 1 25 24), BitVec.ofNat 32 (2 ^ 30))]) ∧
    (∃ (s : State) (m : Fin 24) (q : NdReq) (l : List (Nat × Word)), q = s.chip.ndReq m ∧ s.chip.Served m 0x022 ∧
      q.len = 4 ∧ q.w 1 ≤ 1023 ∧
      l = [(Reg.GLD_CTRL (q.w 1), BitVec.ofNat 32 (q.w 2 % 2 ^ 31)),
            (Reg.GLD_TARGET (q.w 1), BitVec.ofNat 32 (q.w 3)), (Reg.GLD_RATE (q.w 1), BitVec.ofNat 32 (q.w 4)),
            (Reg.GLD_CTRL (q.w 1), BitVec.ofNat 32 (2 ^ 31 + q.w 2 % 2 ^ 31))] ∧ s.chip.ndLedger = false) ∧
    (∃ (s : State) (m : Fin 24) (q : NdReq) (src : Nat) (sink : Nat), q = s.chip.ndReq m ∧ s.chip.Served m 0x030 ∧
      q.len = 3 ∧ q.w 1 &&& 0x1FFFFF00 = 0 ∧ bitAt (q.w 1) 31 = false ∧ bitAt (q.w 1) 29 = false ∧
      q.w 2 = src * 65536 + sink ∧ (src < 2048 ∧ sink < 2048) ∧ q.w 3 < 2 ^ 24) ∧
    (∃ (s : State) (m : Fin 24) (q : NdReq) (l : List (Nat × Word)) (left : List Nat), q = s.chip.ndReq m ∧
      s.chip.Served m 0x030 ∧ q.len = 1 ∧ q.w 1 &&& 0x1FFFFF00 = 0 ∧ bitAt (q.w 1) 31 = true ∧
      bitAt (q.w 1) 29 = false ∧ s.chip.bit F.RTR_COMMIT_PENDING = false ∧
      (s.chip.ndPlace ((s.chip.ndo.staged.filter (·.1 == q.sender)).map (·.2))
            ((List.range 4096).filter fun k => !s.chip.routeUsed k) [] = some (l, left)) ∧ s.chip.ndLedger = false ∧
      ((Chip.ndDirect (l ++ [(Reg.RTR_COMMIT, BitVec.ofNat 32
                            (2 ^ 31 + (if bitAt (q.w 1) 30 then 2 ^ 28 else 0) + q.f 1 7 0))]) s.chip).2 = true)) ∧
    (∃ (s : State) (m : Fin 24) (q : NdReq), q = s.chip.ndReq m ∧ s.chip.Served m 0x030 ∧ q.len = 1 ∧
      q.w 1 &&& 0x1FFFFF00 = 0 ∧ bitAt (q.w 1) 31 = true ∧ bitAt (q.w 1) 29 = false) ∧
    (∃ (s : State) (m : Fin 24) (q : NdReq) (p : Nat), q = s.chip.ndReq m ∧ s.chip.Served m 0x060 ∧ q.len = 1 ∧
      q.w 1 = p + 256 ∧ p < 256 ∧ s.chip.domOn 12 = true) ∧
    (∃ (s : State) (m : Fin 24) (q : NdReq) (l : List (Nat × Word)), q = s.chip.ndReq m ∧ s.chip.Served m 0x060 ∧
      q.len = 3 ∧ q.f 1 31 16 = 0x4000 ∧ q.f 1 15 8 = 1 ∧
      l = [(Reg.MTR_CFG (q.f 1 7 0), BitVec.ofNat 32 (q.w 2)), (Reg.MTR_THR (q.f 1 7 0), BitVec.ofNat 32 (q.w 3))]) ∧
    (∃ (s : State) (m : Fin 24) (q : NdReq) (v : Nat), q = s.chip.ndReq m ∧ s.chip.Served m 0x070 ∧ q.len = 5 ∧
      q.w 5 = 0 ∧
      v = (q.w 1 + q.w 2 * 2 ^ 32 + q.w 3 * 2 ^ 64 + q.w 4 * 2 ^ 96) &&&
        ((2 ^ 128 - 2 ^ 32) - (2 ^ 116 + 2 ^ 117 + 2 ^ 118))) ∧
    (∃ (s : State) (e : BitVec 7) (x : NdSub) (r : Nat) (l : List Word), s.chip.Quiet ∧
      s.chip.pends e.toNat = true ∧ s.chip.ndo.subs = [x] ∧ x.mask.getLsbD e.toNat = true ∧ x.counts = [] ∧
      replyBox x.mb = some r ∧ s.chip.mbState r = 0 ∧ (32 ≤ e.toNat ∧ e.toNat ≠ 80 ∧ e.toNat ≠ 81) ∧
      l = (Chip.evtRegs e.toNat).map s.chip.reg ∧ (Chip.evtRegs e.toNat = [] ∨ e.toNat = 120)) ∧
    (∃ (s : State) (e : BitVec 7), s.chip.Quiet ∧ (s.chip.pends e.toNat = false ∨ s.chip.ndo.subs = []) ∧
      (∀ x ∈ s.chip.ndo.subs, x.counts = [])) :=
  ⟨
    ⟨(alter (ask [] [0x00011001, 0x203]) fun c => c.setFld (F.EPOCH_EPOCH 2) 9), 0, by decide +kernel,
            by decide +kernel, by decide +kernel⟩,
    ⟨(alter (ask [] [0x03281051, 0x80000003]) fun c => c.modNdo fun n =>
                { n with recs := [(0, ⟨c.ndReq 0, 1, some (0x051, [7, 8])⟩)] }), 0,
            ⟨(ask [] [0x03281051, 0x80000003]).chip.ndReq 0, 1, some (0x051, [7, 8])⟩, by decide +kernel,
            by decide +kernel, by decide +kernel, by decide +kernel, by decide +kernel⟩,
    ⟨(ask [] [0x03010777]), 0, by decide +kernel, by decide +kernel, by decide +kernel⟩,
    ⟨(alter (ask [] [0x03010020]) fun c => c.modNdo fun n => { n with vers := [] }), 0, by decide +kernel,
            by decide +kernel, by decide +kernel⟩,
    ⟨(ask [] [0x04010020]), 0, 3, by decide +kernel, by decide +kernel, by decide +kernel, by decide +kernel,
            by decide +kernel⟩,
    ⟨(alter (ask [] [0x03010020]) fun c => c.modNdo fun n => { n with caps := 0xFFFE }), 0, 3, 0, 1, .ledger,
            by decide +kernel, by decide +kernel, by decide +kernel, by decide +kernel, by decide +kernel,
            by decide +kernel⟩,
    ⟨(alter (ask [] [0x03010020]) fun c => c.setReg Reg.READY 1), 0, 3, 1, (some 0), .ledger, by decide +kernel,
            by decide +kernel, by decide +kernel, by decide +kernel, by decide +kernel, by decide +kernel,
            by decide +kernel, by decide +kernel, by decide +kernel⟩,
    ⟨(up []), 3, by decide +kernel, by decide +kernel⟩,
    ⟨(ask [] [0x00011001, 0x203]), 0, ((ask [] [0x00011001, 0x203]).chip.ndReq 0), 0x203, 3, by decide +kernel,
            by decide +kernel, by decide +kernel, by decide +kernel, by decide +kernel, by decide +kernel⟩,
    ⟨(ask [] [0x00011001, 0x103]), 0, ((ask [] [0x00011001, 0x103]).chip.ndReq 0), by decide +kernel,
            by decide +kernel, by decide +kernel, by decide +kernel⟩,
    ⟨(alter (ask [(F.SEC_BOOT_STATUS_SLOT,1),(F.FUSE_STATE_ARB,3)] [0x00010002]) fun c =>
                { c with tick := { c.tick with stc := 0x123456789A } }), 0, false, ((alter
                    (ask [(F.SEC_BOOT_STATUS_SLOT,1),(F.FUSE_STATE_ARB,3)] [0x00010002]) fun c =>
                    { c with tick := { c.tick with stc := 0x123456789A } }).chip.draw.2), by decide +kernel,
            by decide +kernel, by decide +kernel, by decide +kernel⟩,
    ⟨(ask [] [0x03012010, 0x90000000, 77]), 0, ((ask [] [0x03012010, 0x90000000, 77]).chip.ndReq 0), 1, [],
            by decide +kernel, by decide +kernel, by decide +kernel, by decide +kernel, by decide +kernel,
            by decide +kernel, by decide +kernel, by decide +kernel, by decide +kernel, by decide +kernel⟩,
    ⟨(alter (ask [] [0x03012010, 0x50000001, 77]) fun c => c.setNdBuf 1 ([5], none)), 0,
            ((ask [] [0x03012010, 0x50000001, 77]).chip.ndReq 0), 1, [5], by decide +kernel, by decide +kernel,
            by decide +kernel, by decide +kernel, by decide +kernel, by decide +kernel, by decide +kernel,
            by decide +kernel, by decide +kernel, by decide +kernel⟩,
    ⟨(ask [] [0x03012010, 0x10000001, 77]), 0, ((ask [] [0x03012010, 0x10000001, 77]).chip.ndReq 0), 1,
            by decide +kernel, by decide +kernel, by decide +kernel, by decide +kernel, by decide +kernel,
            by decide +kernel, by decide +kernel, by decide +kernel⟩,
    ⟨(alter (ask [] [0x03011011, 0x10100020]) fun c => c.setNdBuf 1 ([5], some [img4])), 0,
            ((ask [] [0x03011011, 0x10100020]).chip.ndReq 0), [4], by decide +kernel, by decide +kernel,
            by decide +kernel, by decide +kernel, by decide +kernel⟩,
    ⟨(ask [] [0x03012020, 0x48000005, 77]), 0, ((ask [] [0x03012020, 0x48000005, 77]).chip.ndReq 0), 4,
            [(engBase 4 + 0x100014, 77)], by decide +kernel, by decide +kernel, by decide +kernel,
            by decide +kernel, by decide +kernel, by decide +kernel, by decide +kernel, by decide +kernel,
            by decide +kernel, by decide +kernel, by decide +kernel⟩,
    ⟨(ask [] [0x03012020, 0xA8000005, 77]), 0, ((ask [] [0x03012020, 0xA8000005, 77]).chip.ndReq 0), 10,
            by decide +kernel, by decide +kernel, by decide +kernel, by decide +kernel, by decide +kernel⟩,
    ⟨(ask [] [0x03013021, 0x40000010, 500, 0]), 0, ((ask [] [0x03013021, 0x40000010, 500, 0]).chip.ndReq 0), 0,
            [(Reg.SWAP_AT_LO 0, 500), (Reg.SWAP_AT_HI 0, 0), (Reg.SWAP_CTRL 0, 0x90000010)], by decide +kernel,
            by decide +kernel, by decide +kernel, by decide +kernel, by decide +kernel, by decide +kernel,
            by decide +kernel, by decide +kernel, by decide +kernel, by decide +kernel, by decide +kernel,
            by decide +kernel, by decide +kernel⟩,
    ⟨(ask [(F.SWAP_CTRL_ARMED 0,1),(F.SWAP_CTRL_ARMED 1,1),(F.SWAP_CTRL_ARMED 2,1),(F.SWAP_CTRL_ARMED 3,1)]
                [0x03013021, 0x40000010, 500, 0]), 0, ((ask [] [0x03013021, 0x40000010, 500, 0]).chip.ndReq 0),
            by decide +kernel, by decide +kernel, by decide +kernel, by decide +kernel, by decide +kernel,
            by decide +kernel, by decide +kernel, by decide +kernel⟩,
    ⟨(ask [(F.SWAP_CTRL_ARMED 2,1)] [0x03013021, 0x12000000, 0, 0]), 0,
            ((ask [] [0x03013021, 0x12000000, 0, 0]).chip.ndReq 0), [(Reg.SWAP_CTRL 2, 0x40000000)],
            by decide +kernel, by decide +kernel, by decide +kernel, by decide +kernel, by decide +kernel,
            by decide +kernel⟩,
    ⟨(ask [] [0x03014022, 5, 0x50040009, 0x30000000, 240]), 0,
            ((ask [] [0x03014022, 5, 0x50040009, 0x30000000, 240]).chip.ndReq 0), [(Reg.GLD_CTRL 5, 0x50040009),
                (Reg.GLD_TARGET 5, 0x30000000), (Reg.GLD_RATE 5, 240), (Reg.GLD_CTRL 5, 0xD0040009)],
            by decide +kernel, by decide +kernel, by decide +kernel, by decide +kernel, by decide +kernel,
            by decide +kernel⟩,
    ⟨(ask [] [0x03013030, 0, 0x01000005, 0x100000]), 0,
            ((ask [] [0x03013030, 0, 0x01000005, 0x100000]).chip.ndReq 0), 256, 5, by decide +kernel,
            by decide +kernel, by decide +kernel, by decide +kernel, by decide +kernel, by decide +kernel,
            by decide +kernel, by decide +kernel, by decide +kernel⟩,
    ⟨(alter (ask [(⟨Reg.RT_GAIN 0, 23, 0⟩, 5)] [0x03011030, 0x80000040]) fun c => c.modNdo fun n =>
                { n with staged := [(2, 0, 0, 0x100000), (3, 257, 0, 5)] }), 0,
            ((ask [] [0x03011030, 0x80000040]).chip.ndReq 0), [(Reg.RT_GAIN 0, 0x100000)], ((List.range 4096).filter
                fun k => !(alter (ask [(⟨Reg.RT_GAIN 0, 23, 0⟩, 5)] [0x03011030, 0x80000040]) fun c => c.modNdo fun
                    n => { n with staged := [(2, 0, 0, 0x100000), (3, 257, 0, 5)] }).chip.routeUsed k),
            by decide +kernel, by decide +kernel, by decide +kernel, by decide +kernel, by decide +kernel,
            by decide +kernel, by decide +kernel, place_one (src := 0) (sink := 0) (by decide +kernel)
            (by decide +kernel), by decide +kernel, by decide +kernel⟩,
    ⟨(ask [(F.RTR_COMMIT_PENDING,1)] [0x03011030, 0x80000040]), 0, ((ask [] [0x03011030, 0x80000040]).chip.ndReq 0),
            by decide +kernel, by decide +kernel, by decide +kernel, by decide +kernel, by decide +kernel,
            by decide +kernel⟩,
    ⟨(ask [(F.MTR_PEAK_PEAK 37, 0x1234),(F.MTR_OVER_OVER 1, 32)] [0x03011060, 0x125]), 0,
            ((ask [] [0x03011060, 0x125]).chip.ndReq 0), 37, by decide +kernel, by decide +kernel,
            by decide +kernel, by decide +kernel, by decide +kernel, by decide +kernel⟩,
    ⟨(ask [] [0x03013060, 0x40000125, 5, 6]), 0, ((ask [] [0x03013060, 0x40000125, 5, 6]).chip.ndReq 0),
            [(Reg.MTR_CFG 37, 5), (Reg.MTR_THR 37, 6)], by decide +kernel, by decide +kernel, by decide +kernel,
            by decide +kernel, by decide +kernel, by decide +kernel⟩,
    ⟨(ask [] [0x03015070, 0xFF, 0xF0000000, 0x80F, 0x01700000, 0]), 0,
            ((ask [] [0x03015070, 0xFF, 0xF0000000, 0x80F, 0x01700000, 0]).chip.ndReq 0),
            (0xF0000000 * 2 ^ 32 + 0x80F * 2 ^ 64 + 0x01000000 * 2 ^ 96), by decide +kernel, by decide +kernel,
            by decide +kernel, by decide +kernel, by decide +kernel⟩,
    ⟨(alter (up [(F.EVT_PEND_PEND 1, 2 ^ 26)]) fun c => c.modNdo fun n =>
                { n with subs := [{ sender := 2, mb := 0, minor := 3, mask := BitVec.ofNat 128 (2 ^ 58) }] }), 58,
            { sender := 2, mb := 0, minor := 3, mask := BitVec.ofNat 128 (2 ^ 58) }, 4, [], by decide +kernel,
            by decide +kernel, by decide +kernel, by decide +kernel, by decide +kernel, by decide +kernel,
            by decide +kernel, by decide +kernel, by decide +kernel, by decide +kernel⟩,
    ⟨(up []), 77, by decide +kernel, by decide +kernel, by decide +kernel⟩⟩

/-! ### Firmware: service -/

/-- A block with one running task of the request that `ask` has posted. -/
def doing (l : List (Field × Nat)) (_ws : List Word) (k : NdTask) : State :=
  alter (up l) fun c => c.modNdo fun n => { n with tasks := [k] }

/-- A leader in lockstep. -/
def leads : List (Field × Nat) :=
  [(F.TLK_CFG_EN, 1), (F.TLK_STATUS_LINK_UP, 1), (F.TLK_STATUS_STATE, 6), (F.TLK_STATUS_LEADER, 1), (F.TLK_STATUS_MINOR, 1),
    (F.TLK_STATUS_MAJOR, 2)]

/-- A task of the request `q` in mailbox 0. -/
def job (kind : NdKind) (ws : List Word) : NdTask := { q := (ask [] ws).chip.ndReq 0, kind := kind }

theorem test_firmwareService_met :
    (∃ (s : State) (m : Fin 24) (q : NdReq) (i : Nat) (l : List (Nat × Word)) (c : Chip), q = s.chip.ndReq m ∧
      s.chip.Served m 0x040 ∧ q.len = 4 ∧ q.w 1 = i ∧ i < 8 ∧ s.chip.ndHeld [.port i] = false ∧
      s.chip.tandem = false ∧ s.chip.bit (F.SAP_CTRL_EN i) = false ∧
      l = [(Reg.SAP_FMT i, BitVec.ofNat 32 (q.w 3)), (Reg.SAP_TXSLOT i, BitVec.ofNat 32 (q.w 4)),
            (Reg.SAP_CTRL i, BitVec.ofNat 32 (q.w 2))] ∧ c = s.chip.setFld (F.SAP_STATUS_FMT_ERR i) 0 ∧
      (Chip.ndDirect l c).2 = true) ∧
    (∃ (s : State) (m : Fin 24) (q : NdReq) (i : Nat), q = s.chip.ndReq m ∧ s.chip.Served m 0x040 ∧ q.len = 4 ∧
      q.w 1 = i ∧ i < 8 ∧ s.chip.ndHeld [.port i] = false ∧ s.chip.bit (F.SAP_CTRL_EN i) = true ∧
      (s.chip.reg (Reg.SAP_FMT i)).toNat ≠ q.w 3 &&& 0xFFFF0000) ∧
    (∃ (s : State) (m : Fin 24) (q : NdReq), q = s.chip.ndReq m ∧ s.chip.Served m 0x040) ∧
    (∃ (s : State) (m : Fin 24) (q : NdReq) (l : List (Nat × Word)), q = s.chip.ndReq m ∧ s.chip.Served m 0x041 ∧
      q.len = 3 ∧ q.w 3 = 0 ∧
      l = (if maskOff (q.w 1) (2 ^ 23) ≠ (s.chip.reg Reg.TRK_CTRL).toNat ∨ bitAt (q.w 1) 23 = true then
            [(Reg.TRK_CTRL, BitVec.ofNat 32 (q.w 1))] else []) ++ (if q.w 2 &&& 0x7FFFF ≠
            (s.chip.reg Reg.TRK_PHASE).toNat then [(Reg.TRK_PHASE, BitVec.ofNat 32 (q.w 2))] else []) ∧
      ((Chip.ndDirect l s.chip).2 = true)) ∧
    (∃ (s : State) (m : Fin 24) (q : NdReq) (l : List (Nat × Word)), q = s.chip.ndReq m ∧ s.chip.Served m 0x041 ∧
      q.len = 3 ∧ q.w 3 = 8 + q.f 3 2 0 ∧ s.chip.ndLedger = false ∧ s.chip.bit F.TICK_CADENCE_PENDING = false ∧
      q.w 1 = (s.chip.reg Reg.TRK_CTRL).toNat ∧ bitAt (q.w 1) 23 = false ∧
      q.w 2 = (s.chip.reg Reg.TRK_PHASE).toNat ∧ q.w 2 < 0x80000 ∧
      l = [(Reg.TICK_CADENCE, BitVec.ofNat 32 (2 ^ 29 + q.f 3 2 0))]) ∧
    (∃ (s : State) (m : Fin 24) (q : NdReq), q = s.chip.ndReq m ∧ s.chip.Served m 0x041 ∧
      q.len = (if bitAt (q.w 3) 7 = true then 5 else 3) ∧ q.w 3 < 512 ∧
      ((bitAt (q.w 3) 3 = true ∧ s.chip.bit F.TICK_CADENCE_PENDING = true) ∨
            (bitAt (q.w 3) 6 = true ∧ s.chip.bit F.CLK_ECLK_PENDING = true))) ∧
    (∃ (s : State) (m : Fin 24) (q : NdReq) (p : Nat) (l : List (Nat × Word)), q = s.chip.ndReq m ∧
      s.chip.Served m 0x050 ∧ q.len = 4 ∧ q.w 1 = 2 ^ 31 + 256 + p ∧ p < 256 ∧ s.chip.ndHeld [.sense] = false ∧
      s.chip.bit F.SENSE_STATUS_RUNNING = false ∧ s.chip.tandem = false ∧
      l = [(Reg.SENSE_PT_CFG p, BitVec.ofNat 32 (q.w 2)), (Reg.SENSE_PT_CAL p, BitVec.ofNat 32 (q.w 3)),
            (Reg.SENSE_PT_THR p, BitVec.ofNat 32 (q.w 4)), (Reg.SENSE_CTRL, BitVec.ofNat 32 (2 ^ 31))]) ∧
    (∃ (s : State) (m : Fin 24) (q : NdReq), q = s.chip.ndReq m ∧ s.chip.Served m 0x050 ∧ q.len = 1 ∧ q.f 1 29 0 = 0) ∧
    (∃ (s : State) (m : Fin 24) (q : NdReq) (k : Nat) (l : List (Nat × Word)) (c : Chip), q = s.chip.ndReq m ∧
      s.chip.Served m 0x051 ∧ bitAt (q.w 1) 31 = false ∧ q.len = 7 ∧ q.w 1 = k ∧ k < 32 ∧ s.chip.ndLedger = false ∧
      (l = (
              let rest := [(Reg.ACT_PER k, BitVec.ofNat 32 (q.w 3)), (Reg.ACT_LIM k, BitVec.ofNat 32 (q.w 4)),
                    (Reg.ACT_EMAX k, BitVec.ofNat 32 (q.w 5)), (Reg.ACT_CS k, BitVec.ofNat 32 (q.w 6)),
                    (Reg.ACT_VAL k, BitVec.ofNat 32 (q.w 7))]
              if bitAt (q.w 2) 31 then rest ++ [(Reg.ACT_CTRL k, BitVec.ofNat 32 (q.w 2))] else
                (Reg.ACT_CTRL k, BitVec.ofNat 32 (q.w 2)) :: rest)) ∧ ((Chip.ndDirect l s.chip).2 = true) ∧
      c = (Chip.ndDirect l s.chip).1) ∧
    (∃ (s : State) (m : Fin 24) (q : NdReq) (k : Nat) (l : List (Nat × Word)) (c : Chip), q = s.chip.ndReq m ∧
      s.chip.Served m 0x051 ∧ q.len = 1 ∧ q.w 1 = 2 ^ 31 + k ∧ k < 32 ∧ s.chip.ndLedger = false ∧
      l = [(Reg.ACT_TRIP, BitVec.ofNat 32 (2 ^ k))] ∧ ((Chip.ndDirect l s.chip).2 = true) ∧
      c = (Chip.ndDirect l s.chip).1) ∧
    (∃ (s : State) (m : Fin 24) (q : NdReq) (d : Nat) (x : Nat), q = s.chip.ndReq m ∧ s.chip.Served m 0x080 ∧
      q.len = 1 ∧ q.w 1 = d * 256 + x ∧ x < 4 ∧ (d ≤ 2 ∨ (0x20 ≤ d ∧ d < 0x46))) ∧
    (∃ (s : State) (m : Fin 24) (q : NdReq) (l : List (Nat × Word)), q = s.chip.ndReq m ∧ s.chip.Served m 0x090 ∧
      q.len = 3 ∧ q.w 3 = 0 ∧ l = [(Reg.TLK_CFG, BitVec.ofNat 32 (q.w 1)), (Reg.TLK_FWD, BitVec.ofNat 32 (q.w 2))] ∧
      ((Chip.ndDirect l s.chip).2 = true)) ∧
    (∃ (s : State) (m : Fin 24) (q : NdReq) (l : List (Nat × Word)), q = s.chip.ndReq m ∧ s.chip.Served m 0x090 ∧
      q.len = 3 ∧ q.w 3 = 1 ∧
      l = [(Reg.TLK_CFG, BitVec.ofNat 32 (q.w 1)), (Reg.TLK_FWD, BitVec.ofNat 32 (q.w 2)),
            (Reg.TLK_REJOIN_CTRL, BitVec.ofNat 32 (2 ^ 31 + s.chip.fld F.TLK_REJOIN_CTRL_CLEAN))] ∧
      ((Chip.ndDirect l s.chip).2 = true)) ∧
    (∃ (s : State) (m : Fin 24) (q : NdReq) (l : List (Nat × Word)), q = s.chip.ndReq m ∧ s.chip.Served m 0x090 ∧
      q.len = 3 ∧ q.w 3 = 2 ∧ (s.chip.tandem = true ∨ bitAt (q.w 1) 31 = false) ∧
      l = [(Reg.TLK_CFG, BitVec.ofNat 32 (q.w 1)), (Reg.TLK_FWD, BitVec.ofNat 32 (q.w 2)),
            (Reg.TLK_REJOIN_CTRL, BitVec.ofNat 32 (2 ^ 30 + s.chip.fld F.TLK_REJOIN_CTRL_CLEAN))] ∧
      ((Chip.ndDirect l s.chip).2 = true)) ∧
    (∃ (s : State) (m : Fin 24) (q : NdReq) (l : List (Nat × Word)), q = s.chip.ndReq m ∧ s.chip.Served m 0x090 ∧
      q.len = 3 ∧ q.w 3 = 4 ∧ (s.chip.tandem = true ∨ bitAt (q.w 1) 31 = false) ∧
      l = [(Reg.TLK_CFG, BitVec.ofNat 32 (q.w 1)), (Reg.TLK_FWD, BitVec.ofNat 32 (q.w 2)),
            (Reg.TLK_LATCH, BitVec.ofNat 32 (2 ^ 29))] ∧ ((Chip.ndDirect l s.chip).2 = true)) ∧
    (∃ (s : State) (m : Fin 24) (q : NdReq) (l : List (Nat × Word)), q = s.chip.ndReq m ∧ s.chip.Served m 0x090 ∧
      q.len = 3 ∧ q.w 3 = 16 ∧ (s.chip.tandem = true ∨ bitAt (q.w 1) 31 = false) ∧
      l = [(Reg.TLK_CFG, BitVec.ofNat 32 (q.w 1)), (Reg.TLK_FWD, BitVec.ofNat 32 (q.w 2)),
            (Reg.TLK_LATCH, BitVec.ofNat 32 (2 ^ 30))] ∧ ((Chip.ndDirect l s.chip).2 = true)) ∧
    (∃ (s : State) (m : Fin 24) (q : NdReq) (l : List (Nat × Word)), q = s.chip.ndReq m ∧ s.chip.Served m 0x090 ∧
      q.len = 3 ∧ q.w 3 = 32 ∧ (s.chip.tandem = true ∨ bitAt (q.w 1) 31 = false) ∧
      l = [(Reg.TLK_CFG, BitVec.ofNat 32 (q.w 1)), (Reg.TLK_FWD, BitVec.ofNat 32 (q.w 2)),
            (Reg.TLK_LATCH, BitVec.ofNat 32 (2 ^ 31))] ∧ ((Chip.ndDirect l s.chip).2 = true)) ∧
    (∃ (s : State) (m : Fin 24) (q : NdReq) (l : List (Nat × Word)) (c : Chip), q = s.chip.ndReq m ∧
      s.chip.Served m 0x090 ∧ q.len = 3 ∧ q.w 3 = 8 ∧ 1 ≤ q.minor ∧
      (s.chip.tandem = true ∨ bitAt (q.w 1) 31 = false) ∧
      l = [(Reg.TLK_CFG, BitVec.ofNat 32 (q.w 1)), (Reg.TLK_FWD, BitVec.ofNat 32 (q.w 2))] ∧
      ((Chip.ndDirect l s.chip).2 = true) ∧ c = (Chip.ndDirect l s.chip).1) ∧
    (∃ (s : State) (m : Fin 24) (l : List Nat), s.chip.Served m 0x091 ∧ (s.chip.ndReq m).len = 0 ∧
      l = [Reg.TLK_STATUS, Reg.TLK_EVT, Reg.TLK_LATCH, Reg.TLK_REJOIN_STATUS, Reg.TLK_DIV_CNT, Reg.TLK_DIV_TICK_LO,
            Reg.TLK_PART_INFO, Reg.TLK_PART_BUILD] ∧ ((l.all fun a => s.chip.regReached mCp a) = true)) ∧
    (∃ (s : State) (m : Fin 24) (q : NdReq) (next : Option Nat) (c : Chip), q = s.chip.ndReq m ∧
      s.chip.Served m 0x0A0 ∧ 1 ≤ q.len ∧ q.f 1 29 21 = 0 ∧ s.chip.ndHeld [.slot] = false ∧
      (next = if bitAt (q.w 1) 31 then some 0 else s.chip.ndo.upd) ∧ next = some (q.f 1 20 0) ∧
      (c = s.chip.modNdo fun n => { n with upd := some (q.f 1 20 0 + (q.len - 1)) })) ∧
    (∃ (s : State) (m : Fin 24) (q : NdReq), q = s.chip.ndReq m ∧ s.chip.Served m 0x0A0 ∧ 1 ≤ q.len ∧
      q.f 1 29 21 = 0 ∧ s.chip.ndHeld [.slot] = false ∧ bitAt (q.w 1) 31 = false ∧
      s.chip.ndo.upd ≠ some (q.f 1 20 0)) ∧
    (∃ (s : State) (m : Fin 24) (q : NdReq), q = s.chip.ndReq m ∧ s.chip.Served m 0x0A1 ∧ q.len = 2) ∧
    (∃ (s : State) (m : Fin 24) (q : NdReq) (l : List Nat), q = s.chip.ndReq m ∧ s.chip.Served m 0x0F0 ∧ q.len = 2 ∧
      q.f 1 7 0 = 1 ∧ q.w 1 < 65536 ∧ (1 ≤ q.f 1 15 8 ∧ q.f 1 15 8 ≤ 15) ∧
      (l = (List.range (q.f 1 15 8)).map (fun i => q.w 2 + 4 * i))) ∧
    (∃ (s : State) (m : Fin 24) (q : NdReq) (l : List (Nat × Word)), q = s.chip.ndReq m ∧ s.chip.Served m 0x0F0 ∧
      3 ≤ q.len ∧ q.w 1 = 2 ∧ (l = (q.body.drop 2).zipIdx.map (fun x => (q.w 2 + 4 * x.2, x.1)))) ∧
    (∃ (s : State) (m : Fin 24) (q : NdReq) (l : List (Nat × Word)), q = s.chip.ndReq m ∧ s.chip.Served m 0x0F0 ∧
      q.len = 2 ∧ q.w 1 = 3 ∧ q.w 2 &&& 0xF0F00000 = 0 ∧ q.f 2 27 24 ≤ 9 ∧ q.f 2 19 16 ≤ 9 ∧
      s.chip.ndHeld [.eng (q.f 2 19 16), .eng (s.chip.logi (q.f 2 27 24))] = false ∧
      l = [(Reg.SPARE_CFG, BitVec.ofNat 32 (2 ^ 31 + q.f 2 27 24)), (Reg.MIG_STATUS, 0x30000000),
            (Reg.MIG_CTRL, BitVec.ofNat 32 (2 ^ 31 + q.w 2 % 2 ^ 20))] ∧ ((Chip.ndDirect l s.chip).2 = true)) ∧
    (∃ (s : State) (m : Fin 24) (q : NdReq) (l : List (Nat × Word)), q = s.chip.ndReq m ∧ s.chip.Served m 0x0F0 ∧
      q.len = 2 ∧ q.w 1 = 4 ∧ bitAt (q.w 2) 31 = false ∧ q.f 2 28 4 = 0 ∧ q.f 2 3 0 ≤ 9 ∧
      s.chip.ndHeld [.eng (s.chip.logi (q.f 2 3 0))] = false ∧ s.chip.bit F.BIST_STATUS_BUSY = false ∧
      l = [(Reg.BIST_STATUS, BitVec.ofNat 32 (2 ^ 30)), (Reg.BIST_CTRL, BitVec.ofNat 32 (2 ^ 31 + q.w 2))] ∧
      ((Chip.ndDirect l s.chip).2 = true)) ∧
    (∃ (s : State) (m : Fin 24) (q : NdReq) (l : List (Nat × Word)), q = s.chip.ndReq m ∧ s.chip.Served m 0x0F0 ∧
      q.len = 2 ∧ q.w 1 = 5 ∧ q.f 2 31 19 = 0 ∧ q.f 2 15 0 ≠ 0 ∧ s.chip.ndHeld [.port (q.f 2 18 16)] = false ∧
      s.chip.bit F.LOOP_STATUS_BUSY = false ∧
      l = [(Reg.LOOP_STATUS, BitVec.ofNat 32 (2 ^ 30)), (Reg.LOOP_CTRL, BitVec.ofNat 32 (2 ^ 31 + q.w 2))] ∧
      ((Chip.ndDirect l s.chip).2 = true)) ∧
    (∃ (s : State) (m : Fin 24) (l : List Nat), s.chip.Served m 0x0F0 ∧ (s.chip.ndReq m).len = 1 ∧
      (s.chip.ndReq m).w 1 = 6 ∧
      l = [Reg.REPLAY_CNT, Reg.STRM_MISS_TOTAL, Reg.STRM_SQUASH_CNT, Reg.TLK_DIV_CNT, Reg.TLK_LINK_CNT] ∧
      ((l.all fun a => s.chip.regReached mCp a) = true)) ∧
    (∃ (s : State) (j : Nat), s.chip.Quiet ∧ s.chip.ndo.tasks.length ≤ j) ∧
    (∃ (s : State) (k : NdTask) (r : Nat), s.chip.Quiet ∧ s.chip.ndo.tasks = [k] ∧ k.kind = .swapWait ∧
      k.defer = true ∧ replyBox k.q.mb = some r ∧ s.chip.mbState r = 0 ∧
      s.chip.bit (F.SWAP_CTRL_DONE (k.args.getD 0 0)) = true ∧ k.args.getD 1 0 ≤ s.chip.now ∧ k.words.length ≤ 2) ∧
    (∃ (s : State) (k : NdTask) (r : Nat), s.chip.Quiet ∧ s.chip.ndo.tasks = [k] ∧ k.kind = .bist ∧ k.defer = true ∧
      replyBox k.q.mb = some r ∧ s.chip.mbState r = 0 ∧ s.chip.bit F.BIST_STATUS_BUSY = false) ∧
    (∃ (s : State) (k : NdTask) (r : Nat), s.chip.Quiet ∧ s.chip.ndo.tasks = [k] ∧ k.kind = .migrate ∧
      k.defer = true ∧ replyBox k.q.mb = some r ∧ s.chip.mbState r = 0 ∧ s.chip.bit F.MIG_STATUS_DONE = true ∧
      s.chip.bit F.MIG_STATUS_ABORTED = false) ∧
    (∃ (s : State) (k : NdTask) (r : Nat), s.chip.Quiet ∧ s.chip.ndo.tasks = [k] ∧ k.kind = .pair ∧ k.defer = true ∧
      replyBox k.q.mb = some r ∧ s.chip.mbState r = 0 ∧
      (s.chip.fld F.TLK_STATUS_FAIL_REASON ≠ 0 ∨ 4 ≤ s.chip.tlkState)) ∧
    (∃ (s : State) (k : NdTask) (r : Nat), s.chip.Quiet ∧ s.chip.ndo.tasks = [k] ∧ k.kind = .rejoin ∧
      k.defer = true ∧ replyBox k.q.mb = some r ∧ s.chip.mbState r = 0 ∧ s.chip.fld F.TLK_REJOIN_STATUS_PHASE = 0 ∧
      s.chip.bit F.TLK_REJOIN_STATUS_DONE = true ∧ s.chip.bit F.TLK_REJOIN_STATUS_ABORTED = false) ∧
    (∃ (s : State) (k : NdTask) (r : Nat), s.chip.Quiet ∧ s.chip.ndo.tasks = [k] ∧ k.kind = .loop ∧ k.defer = true ∧
      replyBox k.q.mb = some r ∧ s.chip.mbState r = 0 ∧ s.chip.bit F.LOOP_STATUS_BUSY = false) ∧
    (∃ (s : State) (k : NdTask) (r : Nat), s.chip.Quiet ∧ s.chip.ndo.tasks = [k] ∧ k.kind = .power ∧
      k.defer = true ∧ replyBox k.q.mb = some r ∧ s.chip.mbState r = 0 ∧ k.stage = 0 ∧ k.item < k.q.len ∧
      bits (k.q.w (k.item + 1)) 15 8 ≤ 2) ∧
    (∃ (s : State) (k : NdTask) (r : Nat), s.chip.Quiet ∧ s.chip.ndo.tasks = [k] ∧ k.kind = .power ∧
      k.defer = true ∧ replyBox k.q.mb = some r ∧ s.chip.mbState r = 0 ∧ k.q.len ≤ k.item) ∧
    (∃ (s : State) (k : NdTask) (r : Nat) (c : Chip), s.chip.Quiet ∧ s.chip.ndo.tasks = [k] ∧ k.kind = .cal ∧
      k.defer = true ∧ replyBox k.q.mb = some r ∧ s.chip.mbState r = 0 ∧ k.stage = 2 ∧
      s.chip.bit F.SENSE_STATUS_CAL_BUSY = false ∧
      c = (Chip.ndDirect [(Reg.SENSE_CTRL, Chip.ndSenseCtrl k.q (bitAt (k.q.w 1) 31))] s.chip).1) ∧
    (∃ (s : State) (k : NdTask) (r : Nat), s.chip.Quiet ∧ s.chip.ndo.tasks = [k] ∧ k.kind = .counter ∧
      k.defer = true ∧ replyBox k.q.mb = some r ∧ s.chip.mbState r = 0 ∧ k.args = [s.otp.counter]) :=
  ⟨
    ⟨(ask [] [0x03014040, 1, 0x80000000, 0, 0]), 0, ((ask [] [0x03014040, 1, 0x80000000, 0, 0]).chip.ndReq 0), 1,
            [(Reg.SAP_FMT 1, 0), (Reg.SAP_TXSLOT 1, 0), (Reg.SAP_CTRL 1, 0x80000000)],
            ((ask [] [0x03014040, 1, 0x80000000, 0, 0]).chip.setFld (F.SAP_STATUS_FMT_ERR 1) 0), by decide +kernel,
            by decide +kernel, by decide +kernel, by decide +kernel, by decide +kernel, by decide +kernel,
            by decide +kernel, by decide +kernel, by decide +kernel, by decide +kernel, by decide +kernel⟩,
    ⟨(ask [(F.SAP_CTRL_EN 1,1),(F.SAP_FMT_SLOTS 1,2)] [0x03014040, 1, 0x80000000, 0, 0]), 0,
            ((ask [] [0x03014040, 1, 0x80000000, 0, 0]).chip.ndReq 0), 1, by decide +kernel, by decide +kernel,
            by decide +kernel, by decide +kernel, by decide +kernel, by decide +kernel, by decide +kernel,
            by decide +kernel⟩,
    ⟨(ask [] [0x03012040, 0x50000000, 0]), 0, ((ask [] [0x03012040, 0x50000000, 0]).chip.ndReq 0),
            by decide +kernel, by decide +kernel⟩,
    ⟨(ask [] [0x03013041, 0x10000000, 7, 0]), 0, ((ask [] [0x03013041, 0x10000000, 7, 0]).chip.ndReq 0),
            [(Reg.TRK_CTRL, 0x10000000), (Reg.TRK_PHASE, 7)], by decide +kernel, by decide +kernel,
            by decide +kernel, by decide +kernel, by decide +kernel, by decide +kernel⟩,
    ⟨(ask [(F.TICK_STATUS_RUNNING,1)] [0x03013041, (fs []).chip.reg Reg.TRK_CTRL, (fs []).chip.reg Reg.TRK_PHASE, 9]),
            0,
            ((ask [] [0x03013041, (fs []).chip.reg Reg.TRK_CTRL, (fs []).chip.reg Reg.TRK_PHASE, 9]).chip.ndReq 0),
            [(Reg.TICK_CADENCE, 0x20000001)], by decide +kernel, by decide +kernel, by decide +kernel,
            by decide +kernel, by decide +kernel, by decide +kernel, by decide +kernel, by decide +kernel,
            by decide +kernel, by decide +kernel, by decide +kernel⟩,
    ⟨(ask [(F.TICK_CADENCE_PENDING,1)] [0x03013041, 0, 0, 9]), 0, ((ask [] [0x03013041, 0, 0, 9]).chip.ndReq 0),
            by decide +kernel, by decide +kernel, by decide +kernel, by decide +kernel, by decide +kernel⟩,
    ⟨(ask [] [0x03014050, 0x80000105, 0x10000000, 0x4000, 0x80004000]), 0,
            ((ask [] [0x03014050, 0x80000105, 0x10000000, 0x4000, 0x80004000]).chip.ndReq 0), 5,
            [(Reg.SENSE_PT_CFG 5, 0x10000000), (Reg.SENSE_PT_CAL 5, 0x4000), (Reg.SENSE_PT_THR 5, 0x80004000),
                (Reg.SENSE_CTRL, 0x80000000)], by decide +kernel, by decide +kernel, by decide +kernel,
            by decide +kernel, by decide +kernel, by decide +kernel, by decide +kernel, by decide +kernel,
            by decide +kernel⟩,
    ⟨(ask [] [0x03011050, 0xC0000000]), 0, ((ask [] [0x03011050, 0xC0000000]).chip.ndReq 0), by decide +kernel,
            by decide +kernel, by decide +kernel, by decide +kernel⟩,
    ⟨(ask [(F.ACT_FUSE_A_DUTY_CEIL 1, 0x1000)] [0x03017051, 9, 0x80000000, 1000, 0x20000000, 0, 0, 5]), 0,
            ((ask [] [0x03017051, 9, 0x80000000, 1000, 0x20000000, 0, 0, 5]).chip.ndReq 0), 9, [
                (Reg.ACT_PER 9, 1000), (Reg.ACT_LIM 9, 0x20000000), (Reg.ACT_EMAX 9, 0), (Reg.ACT_CS 9, 0),
                (Reg.ACT_VAL 9, 5), (Reg.ACT_CTRL 9, 0x80000000)], (Chip.ndDirect [(Reg.ACT_PER 9, 1000),
                    (Reg.ACT_LIM 9, 0x20000000), (Reg.ACT_EMAX 9, 0), (Reg.ACT_CS 9, 0), (Reg.ACT_VAL 9, 5),
                    (Reg.ACT_CTRL 9, 0x80000000)] (ask [(F.ACT_FUSE_A_DUTY_CEIL 1, 0x1000)]
                    [0x03017051, 9, 0x80000000, 1000, 0x20000000, 0, 0, 5]).chip).1, by decide +kernel,
            by decide +kernel, by decide +kernel, by decide +kernel, by decide +kernel, by decide +kernel,
            by decide +kernel, by decide +kernel, by decide +kernel, by decide +kernel⟩,
    ⟨(ask [(F.ACT_TRIP_TRIP, 0x200)] [0x03011051, 0x80000009]), 0, ((ask [] [0x03011051, 0x80000009]).chip.ndReq 0),
            9, [(Reg.ACT_TRIP, 0x200)], (Chip.ndDirect [(Reg.ACT_TRIP, 0x200)]
                (ask [(F.ACT_TRIP_TRIP, 0x200)] [0x03011051, 0x80000009]).chip).1, by decide +kernel,
            by decide +kernel, by decide +kernel, by decide +kernel, by decide +kernel, by decide +kernel,
            by decide +kernel, by decide +kernel, by decide +kernel⟩,
    ⟨(ask [] [0x03011080, 0x4102]), 0, ((ask [] [0x03011080, 0x4102]).chip.ndReq 0), 0x41, 2, by decide +kernel,
            by decide +kernel, by decide +kernel, by decide +kernel, by decide +kernel, by decide +kernel⟩,
    ⟨(ask [] [0x03013090, 0x80000000, 5, 0]), 0, ((ask [] [0x03013090, 0x80000000, 5, 0]).chip.ndReq 0),
            [(Reg.TLK_CFG, 0x80000000), (Reg.TLK_FWD, 5)], by decide +kernel, by decide +kernel, by decide +kernel,
            by decide +kernel, by decide +kernel, by decide +kernel⟩,
    ⟨(ask [(F.TLK_REJOIN_CTRL_CLEAN,9)] [0x03013090, 0, 5, 1]), 0, ((ask [] [0x03013090, 0, 5, 1]).chip.ndReq 0),
            [(Reg.TLK_CFG, 0), (Reg.TLK_FWD, 5), (Reg.TLK_REJOIN_CTRL, 0x80000009)], by decide +kernel,
            by decide +kernel, by decide +kernel, by decide +kernel, by decide +kernel, by decide +kernel⟩,
    ⟨(ask [(F.TLK_REJOIN_CTRL_CLEAN,9)] [0x03013090, 0, 5, 2]), 0, ((ask [] [0x03013090, 0, 5, 2]).chip.ndReq 0),
            [(Reg.TLK_CFG, 0), (Reg.TLK_FWD, 5), (Reg.TLK_REJOIN_CTRL, 0x40000009)], by decide +kernel,
            by decide +kernel, by decide +kernel, by decide +kernel, by decide +kernel, by decide +kernel,
            by decide +kernel⟩,
    ⟨(ask [(F.TLK_REJOIN_CTRL_CLEAN,9)] [0x03013090, 0, 5, 4]), 0, ((ask [] [0x03013090, 0, 5, 4]).chip.ndReq 0),
            [(Reg.TLK_CFG, 0), (Reg.TLK_FWD, 5), (Reg.TLK_LATCH, 0x20000000)], by decide +kernel, by decide +kernel,
            by decide +kernel, by decide +kernel, by decide +kernel, by decide +kernel, by decide +kernel⟩,
    ⟨(ask [(F.TLK_REJOIN_CTRL_CLEAN,9)] [0x03013090, 0, 5, 16]), 0, ((ask [] [0x03013090, 0, 5, 16]).chip.ndReq 0),
            [(Reg.TLK_CFG, 0), (Reg.TLK_FWD, 5), (Reg.TLK_LATCH, 0x40000000)], by decide +kernel, by decide +kernel,
            by decide +kernel, by decide +kernel, by decide +kernel, by decide +kernel, by decide +kernel⟩,
    ⟨(ask [(F.TLK_REJOIN_CTRL_CLEAN,9)] [0x03013090, 0, 5, 32]), 0, ((ask [] [0x03013090, 0, 5, 32]).chip.ndReq 0),
            [(Reg.TLK_CFG, 0), (Reg.TLK_FWD, 5), (Reg.TLK_LATCH, 0x80000000)], by decide +kernel, by decide +kernel,
            by decide +kernel, by decide +kernel, by decide +kernel, by decide +kernel, by decide +kernel⟩,
    ⟨(ask leads [0x03013090, 0x80000000, 5, 8]), 0, ((ask [] [0x03013090, 0x80000000, 5, 8]).chip.ndReq 0),
            [(Reg.TLK_CFG, 0x80000000), (Reg.TLK_FWD, 5)], (Chip.ndDirect
                [(Reg.TLK_CFG, 0x80000000), (Reg.TLK_FWD, 5)] (ask leads [0x03013090, 0x80000000, 5, 8]).chip).1,
            by decide +kernel, by decide +kernel, by decide +kernel, by decide +kernel, by decide +kernel,
            by decide +kernel, by decide +kernel, by decide +kernel, by decide +kernel⟩,
    ⟨(ask [(F.TLK_DIV_CNT_COUNT,3)] [0x03010091]), 0, [Reg.TLK_STATUS, Reg.TLK_EVT, Reg.TLK_LATCH,
                Reg.TLK_REJOIN_STATUS, Reg.TLK_DIV_CNT, Reg.TLK_DIV_TICK_LO, Reg.TLK_PART_INFO, Reg.TLK_PART_BUILD],
            by decide +kernel, by decide +kernel, by decide +kernel, by decide +kernel⟩,
    ⟨(ask [] [0x030120A0, 0x80000000, 7]), 0, ((ask [] [0x030120A0, 0x80000000, 7]).chip.ndReq 0), (some 0),
            ((ask [] [0x030120A0, 0x80000000, 7]).chip.modNdo fun n => { n with upd := some 1 }), by decide +kernel,
            by decide +kernel, by decide +kernel, by decide +kernel, by decide +kernel, by decide +kernel,
            by decide +kernel, by decide +kernel⟩,
    ⟨(ask [] [0x030120A0, 5, 7]), 0, ((ask [] [0x030120A0, 5, 7]).chip.ndReq 0), by decide +kernel,
            by decide +kernel, by decide +kernel, by decide +kernel, by decide +kernel, by decide +kernel,
            by decide +kernel⟩,
    ⟨(ask [(F.SEC_BOOT_STATUS_COMMITTED,1),(F.SEC_IMG_INFO_ARB,4)] [0x030120A1, 0x41445643, 4]), 0,
            ((ask [] [0x030120A1, 0x41445643, 4]).chip.ndReq 0), by decide +kernel, by decide +kernel,
            by decide +kernel⟩,
    ⟨(ask [] [0x030120F0, 0x201, BitVec.ofNat 32 Reg.TLK_STATUS]), 0,
            ((ask [] [0x030120F0, 0x201, BitVec.ofNat 32 Reg.TLK_STATUS]).chip.ndReq 0),
            [Reg.TLK_STATUS, Reg.TLK_STATUS + 4], by decide +kernel, by decide +kernel, by decide +kernel,
            by decide +kernel, by decide +kernel, by decide +kernel, by decide +kernel⟩,
    ⟨(ask [(F.ID_LIFECYCLE_STATE,1)] [0x030130F0, 2, BitVec.ofNat 32 (Reg.RT_GAIN 7), 55]), 0,
            ((ask [] [0x030130F0, 2, BitVec.ofNat 32 (Reg.RT_GAIN 7), 55]).chip.ndReq 0), [(Reg.RT_GAIN 7, 55)],
            by decide +kernel, by decide +kernel, by decide +kernel, by decide +kernel, by decide +kernel⟩,
    ⟨(ask [(F.SPARE_CFG_EN, 1), (F.SPARE_CFG_SPARE, 9), (F.ENG_STATUS_STATE 2, 4), (F.ENG_STATUS_STATE 9, 6)]
                [0x030120F0, 3, 0x09020010]), 0, ((ask [] [0x030120F0, 3, 0x09020010]).chip.ndReq 0),
            [(Reg.SPARE_CFG, 0x80000009), (Reg.MIG_STATUS, 0x30000000), (Reg.MIG_CTRL, 0x80020010)],
            by decide +kernel, by decide +kernel, by decide +kernel, by decide +kernel, by decide +kernel,
            by decide +kernel, by decide +kernel, by decide +kernel, by decide +kernel, by decide +kernel⟩,
    ⟨(ask [] [0x030120F0, 4, 0x00000009]), 0, ((ask [] [0x030120F0, 4, 0x00000009]).chip.ndReq 0),
            [(Reg.BIST_STATUS, 0x40000000), (Reg.BIST_CTRL, 0x80000009)], by decide +kernel, by decide +kernel,
            by decide +kernel, by decide +kernel, by decide +kernel, by decide +kernel, by decide +kernel,
            by decide +kernel, by decide +kernel, by decide +kernel, by decide +kernel⟩,
    ⟨(ask [] [0x030120F0, 5, 0x20010]), 0, ((ask [] [0x030120F0, 5, 0x20010]).chip.ndReq 0),
            [(Reg.LOOP_STATUS, 0x40000000), (Reg.LOOP_CTRL, 0x80020010)], by decide +kernel, by decide +kernel,
            by decide +kernel, by decide +kernel, by decide +kernel, by decide +kernel, by decide +kernel,
            by decide +kernel, by decide +kernel, by decide +kernel⟩,
    ⟨(ask [(F.TLK_DIV_CNT_COUNT,3)] [0x030110F0, 6]), 0,
            [Reg.REPLAY_CNT, Reg.STRM_MISS_TOTAL, Reg.STRM_SQUASH_CNT, Reg.TLK_DIV_CNT, Reg.TLK_LINK_CNT],
            by decide +kernel, by decide +kernel, by decide +kernel, by decide +kernel, by decide +kernel⟩,
    ⟨(up []), 0, by decide +kernel, by decide +kernel⟩,
    ⟨(doing [(F.SWAP_CTRL_DONE 1,1)] [0x03013021, 0, 0, 0]
                { job .swapWait [0x03013021, 0, 0, 0] with args := [1, 0], words := [9, 0] }),
            { job .swapWait [0x03013021, 0, 0, 0] with args := [1, 0], words := [9, 0] }, 4, by decide +kernel,
            by decide +kernel, by decide +kernel, by decide +kernel, by decide +kernel, by decide +kernel,
            by decide +kernel, by decide +kernel, by decide +kernel⟩,
    ⟨(doing [(F.BIST_STATUS_FAIL,1)] [0x030120F0, 4, 9] (job .bist [0x030120F0, 4, 9])),
            (job .bist [0x030120F0, 4, 9]), 4, by decide +kernel, by decide +kernel, by decide +kernel,
            by decide +kernel, by decide +kernel, by decide +kernel, by decide +kernel⟩,
    ⟨(doing [(F.MIG_STATUS_DONE,1)] [0x030120F0, 3, 9] (job .migrate [0x030120F0, 3, 9])),
            (job .migrate [0x030120F0, 3, 9]), 4, by decide +kernel, by decide +kernel, by decide +kernel,
            by decide +kernel, by decide +kernel, by decide +kernel, by decide +kernel, by decide +kernel⟩,
    ⟨(doing [(F.TLK_STATUS_STATE,6)] [0x03013090, 0, 0, 0] (job .pair [0x03013090, 0, 0, 0])),
            (job .pair [0x03013090, 0, 0, 0]), 4, by decide +kernel, by decide +kernel, by decide +kernel,
            by decide +kernel, by decide +kernel, by decide +kernel, by decide +kernel⟩,
    ⟨(doing [(F.TLK_REJOIN_STATUS_DONE,1)] [0x03013090, 0, 0, 1] (job .rejoin [0x03013090, 0, 0, 1])),
            (job .rejoin [0x03013090, 0, 0, 1]), 4, by decide +kernel, by decide +kernel, by decide +kernel,
            by decide +kernel, by decide +kernel, by decide +kernel, by decide +kernel, by decide +kernel,
            by decide +kernel⟩,
    ⟨(doing [] [0x030120F0, 5, 9] (job .loop [0x030120F0, 5, 9])), (job .loop [0x030120F0, 5, 9]), 4,
            by decide +kernel, by decide +kernel, by decide +kernel, by decide +kernel, by decide +kernel,
            by decide +kernel, by decide +kernel⟩,
    ⟨(doing [] [0x03011080, 0x102] (job .power [0x03011080, 0x102])), (job .power [0x03011080, 0x102]), 4,
            by decide +kernel, by decide +kernel, by decide +kernel, by decide +kernel, by decide +kernel,
            by decide +kernel, by decide +kernel, by decide +kernel, by decide +kernel⟩,
    ⟨(doing [] [0x03010080] (job .power [0x03010080])), (job .power [0x03010080]), 4, by decide +kernel,
            by decide +kernel, by decide +kernel, by decide +kernel, by decide +kernel, by decide +kernel,
            by decide +kernel⟩,
    ⟨(doing [(F.SENSE_STATUS_CAL_FAIL,1)] [0x03011050, 0xC0000000]
                { job .cal [0x03011050, 0xC0000000] with stage := 2 }),
            { job .cal [0x03011050, 0xC0000000] with stage := 2 }, 4, (Chip.ndDirect [(Reg.SENSE_CTRL, 0x80000000)]
                (doing [(F.SENSE_STATUS_CAL_FAIL,1)] [0x03011050, 0xC0000000]
                    { job .cal [0x03011050, 0xC0000000] with stage := 2 }).chip).1, by decide +kernel,
            by decide +kernel, by decide +kernel, by decide +kernel, by decide +kernel, by decide +kernel,
            by decide +kernel, by decide +kernel, by decide +kernel⟩,
    ⟨(doing [] [0x030120A1, 0x41445643, 4] { job .counter [0x030120A1, 0x41445643, 4] with args := [0] }),
            { job .counter [0x030120A1, 0x41445643, 4] with args := [0] }, 4, by decide +kernel, by decide +kernel,
            by decide +kernel, by decide +kernel, by decide +kernel, by decide +kernel, by decide +kernel⟩⟩

/-! ### Boot and security -/

/-- Recovery boot with the message `ws` posted in mailbox 0, and more fields. -/
def rec_ (l : List (Field × Nat)) (ws : List Word) : State :=
  alter (fs ([(F.SEC_BOOT_STATUS_PATH, 2), (F.MB_STATUS_STATE 0, 1), (F.MB_STAMP_SENDER 0, 2)] ++ l)) fun c =>
    ws.zipIdx.foldl (fun c x => c.setReg (Reg.MB_DATA 0 x.2) x.1) c

/-- The same in a device with fuses `o`. -/
def recO (o : Otp) (ws : List Word) : State := { rec_ [] ws with otp := o }
/-- A fuse operation runs on fuses `o`, with more fields. -/
def fusing (o : Otp) (f : FuseOp) (l : List (Field × Nat)) : State :=
  { alter (fs ([(F.FUSE_STATUS_BUSY, 1)] ++ l)) fun c => { c with sec := { c.sec with fuseOp := some f } } with otp := o }

/-- A flash operation runs. -/
def flashing (op a n : Nat) : State :=
  alter (fs [(F.OSPI_CMD_BUSY, 1)]) fun c =>
    { c with flash := [(0x11000, 0x0F), (0x20000, 7)], sec := { c.sec with ospi := some (op, a, n, [0xAABBCCF1]) } }

/-- The ROM is to start. -/
def booting (o : Otp) (l : List (Field × Nat)) : State :=
  { alter (fs l) fun c => { c with sec := { c.sec with romDue := true, sample := true } } with otp := o }

theorem test_recoveryRequests_met :
    (∃ (s : State), s.chip.Calm ∧ s.chip.recAsked 1 = true ∧ s.chip.msgLen 0 = 0 ∧ s.chip.mbState 4 = 0) ∧
    (∃ (s : State), s.chip.Calm ∧ s.chip.recovery = true ∧ s.chip.mbState 0 = 1 ∧
      s.chip.msgOp 0 ∉ [1, 0x10, 0x11, 0x12, 0x13, 0x20, 0x21, 0x30]) ∧
    (∃ (s : State), s.chip.Calm ∧ (s.chip.recovery = false ∨ s.chip.mbState 0 ≠ 1)) ∧
    (∃ (s : State) (at_ : Nat) (n : Nat), s.chip.Calm ∧ s.chip.recAsked 0x10 = true ∧ s.chip.msgLen 0 = n + 1 ∧
      1 ≤ n ∧ bits (s.chip.msg 0 1).toNat 27 21 = 0 ∧ at_ = bits (s.chip.msg 0 1).toNat 20 0 ∧
      4 * (at_ + n) ≤ 8388640 ∧ (at_ = if bitAt (s.chip.msg 0 1).toNat 31 then 0 else s.chip.sec.buf) ∧
      (∀ b : Nat, b < 32 → s.chip.seraiState b = 0)) ∧
    (∃ (s : State), s.chip.Calm ∧ s.chip.recAsked 0x10 = true ∧ 2 ≤ s.chip.msgLen 0 ∧
      bits (s.chip.msg 0 1).toNat 27 21 = 0 ∧ bitAt (s.chip.msg 0 1).toNat 31 = false ∧
      4 * (bits (s.chip.msg 0 1).toNat 20 0 + (s.chip.msgLen 0 - 1)) ≤ 8388640 ∧
      bits (s.chip.msg 0 1).toNat 20 0 ≠ s.chip.sec.buf) ∧
    (∃ (s : State) (rc : Nat), s.chip.Calm ∧ s.chip.recAsked 0x11 = true ∧ s.chip.msgLen 0 = 0 ∧
      s.chip.mbState 4 = 0 ∧ rc = s.chip.recVerdict s.otp) ∧
    (∃ (s : State) (k : Nat) (base : Nat) (img : List Byte), s.chip.Calm ∧ s.chip.recAsked 0x12 = true ∧
      s.chip.msgLen 0 = 1 ∧ (s.chip.msg 0 1).toNat = k ∧ k ≤ 1 ∧ s.chip.sec.checked.isSome = true ∧
      base = Chip.slotAt s.otp k ∧ img = (List.range (imgLength s.chip.bufByte + 32)).map s.chip.bufByte) ∧
    (∃ (s : State), s.chip.Calm ∧ s.chip.recAsked 0x12 = true) ∧
    (∃ (s : State), s.chip.Calm ∧ s.chip.recAsked 0x13 = true ∧ s.chip.msgLen 0 = 0) ∧
    (∃ (s : State), s.chip.Calm ∧ s.chip.recAsked 0x20 = true ∧ s.chip.msgLen 0 = 9) ∧
    (∃ (s : State) (n : Nat), s.chip.Calm ∧ s.chip.recAsked 0x21 = true ∧ s.chip.msgLen 0 = 2 ∧
      (s.chip.msg 0 1).toNat = n) ∧
    (∃ (s : State), s.chip.Calm ∧ s.chip.recAsked 0x30 = true) :=
  ⟨
    ⟨(rec_ [(F.SEC_BOOT_STATUS_REC_CAUSE,2)] [0x00050001]), by decide +kernel, by decide +kernel, by decide +kernel,
            by decide +kernel⟩,
    ⟨(rec_ [] [0x00050777]), by decide +kernel, by decide +kernel, by decide +kernel, by decide +kernel⟩,
    ⟨(fs []), by decide +kernel, by decide +kernel⟩,
    ⟨(rec_ [] [0x00053010, 0x80000000, 0x11223344, 5]), 0, 2, by decide +kernel, by decide +kernel,
            by decide +kernel, by decide +kernel, by decide +kernel, by decide +kernel, by decide +kernel,
            by decide +kernel, by decide +kernel⟩,
    ⟨(rec_ [] [0x00052010, 7, 9]), by decide +kernel, by decide +kernel, by decide +kernel, by decide +kernel,
            by decide +kernel, by decide +kernel, by decide +kernel⟩,
    ⟨(rec_ [] [0x00050011]), 0x36, by decide +kernel, by decide +kernel, by decide +kernel, by decide +kernel,
            by decide +kernel⟩,
    ⟨(alter (rec_ [] [0x00051012, 1]) fun c => { c with sec := { c.sec with checked := some (0, 0) } }), 1,
            0x910000, (List.replicate 32 0), by decide +kernel, by decide +kernel, by decide +kernel,
            by decide +kernel, by decide +kernel, by decide +kernel, by decide +kernel, by decide +kernel⟩,
    ⟨(rec_ [] [0x00051012, 1]), by decide +kernel, by decide +kernel⟩,
    ⟨(rec_ [] [0x00050013]), by decide +kernel, by decide +kernel, by decide +kernel⟩,
    ⟨(rec_ [] [0x00059020, 0x00910001, 1, 2, 3, 4, 5, 6, 7, 8]), by decide +kernel, by decide +kernel,
            by decide +kernel⟩,
    ⟨(recO { lc := 1, cik := 5 } [0x00052021, 2, 0x4C435943]), 2, by decide +kernel, by decide +kernel,
            by decide +kernel, by decide +kernel⟩,
    ⟨(rec_ [] [0x00050030]), by decide +kernel, by decide +kernel⟩⟩

theorem test_bootAndSecurity_met :
    (∃ (s : State), s.chip.Calm ∧ s.chip.sec.romDue = false) ∧
    (∃ (s : State) (bs : BitVec 2), s.chip.Calm ∧ s.chip.sec.romDue = true ∧ s.chip.sec.sample = true ∧
      s.chip.sec.woke = false ∧ s.otp.lc ≠ 3 ∧ (bs = 1 ∨ bs = 2)) ∧
    (∃ (s : State) (bs : BitVec 2) (late : BitVec 2), s.chip.Calm ∧ s.chip.sec.romDue = true ∧
      s.chip.sec.sample = true ∧ s.chip.sec.woke = false ∧ s.otp.lc ≠ 3 ∧ bs = 0 ∧ late = 0 ∧
      s.chip.flashWord (Chip.slotAt s.otp 0) = 0xFFFFFFFF ∧ s.chip.flashWord (Chip.slotAt s.otp 1) = 0xFFFFFFFF) ∧
    (∃ (s : State), s.chip.Calm ∧ s.chip.sec.romDue = true ∧ s.otp.lc = 3) ∧
    (∃ (s : State) (m : Master) (v : Word), s.chip.Calm ∧ s.chip.writes m Reg.SEC_CTRL = true ∧
      bitAt v.toNat 31 = false ∧ bitAt v.toNat 30 = false) ∧
    (∃ (s : State) (m : Master) (v : Word), s.chip.Calm ∧ s.chip.writes m Reg.SEC_CTRL = true ∧
      bitAt v.toNat 31 = false) ∧
    (∃ (s : State) (m : Master), s.chip.Calm ∧ s.chip.writes m Reg.FUSE_CMD = true ∧
      s.chip.bit F.FUSE_STATUS_BUSY = false) ∧
    (∃ (s : State) (m : Master), s.chip.Calm ∧ s.chip.writes m Reg.FUSE_CMD = true ∧
      s.chip.bit F.FUSE_STATUS_BUSY = true) ∧
    (∃ (s : State), s.chip.Calm ∧ s.chip.sec.fuseOp = none) ∧
    (∃ (s : State) (f : FuseOp), s.chip.Calm ∧ s.chip.domOn 11 = true ∧ s.chip.sec.fuseOp = some f ∧ f.op = 1) ∧
    (∃ (s : State) (f : FuseOp) (bad : BitVec 256), s.chip.Calm ∧ s.chip.domOn 11 = true ∧
      s.chip.sec.fuseOp = some f ∧ f.op = 1 ∧ s.otp.counter ≤ f.arg ∧ f.arg ≤ 64 ∧
      bad &&& BitVec.ofNat 256 (2 ^ f.arg - 1) ≠ 0) ∧
    (∃ (s : State) (f : FuseOp), s.chip.Calm ∧ s.chip.domOn 11 = true ∧ s.chip.sec.fuseOp = some f ∧ f.op = 2 ∧
      f.arg ≤ 3) ∧
    (∃ (s : State) (f : FuseOp), s.chip.Calm ∧ s.chip.domOn 11 = true ∧ s.chip.sec.fuseOp = some f ∧ s.otp.lc = 0 ∧
      f.locked = false) ∧
    (∃ (s : State) (f : FuseOp), s.chip.Calm ∧ s.chip.sec.fuseOp = some f ∧ (f.op = 3 ∨ f.op = 4 ∨ f.op = 5) ∧
      (s.otp.lc ≠ 0 ∨ f.locked = true ∨ (f.op = 3 ∧ s.otp.slotSet = true) ∨ (f.op = 4 ∧ s.otp.cikSet = true) ∨
            (f.op = 5 ∧ s.otp.dukSet = true))) ∧
    (∃ (s : State) (f : FuseOp), s.chip.Calm ∧ s.chip.domOn 11 = true ∧ s.chip.sec.fuseOp = some f ∧ f.op = 6 ∧
      f.arg < 32) ∧
    (∃ (s : State) (m : Master), s.chip.Calm ∧ s.chip.writes m Reg.SEC_REC_CTRL = true) ∧
    (∃ (s : State), s.chip.Calm) ∧
    (∃ (s : State) (m : Master), s.chip.Calm ∧ s.chip.writes m Reg.OSPI_CMD = true ∧
      s.chip.bit F.OSPI_CMD_BUSY = false) ∧
    (∃ (s : State) (m : Master), s.chip.Calm ∧ s.chip.writes m Reg.OSPI_CMD = true ∧
      s.chip.bit F.OSPI_CMD_BUSY = true) ∧
    (∃ (s : State) (op : Nat) (a : Nat) (n : Nat) (buf : List Word), s.chip.Calm ∧
      s.chip.sec.ospi = some (op, a, n, buf) ∧ n ≤ 256) ∧
    (∃ (s : State), s.chip.Calm ∧ s.chip.sec.ospi = none) ∧
    (∃ (s : State) (a : BitVec 32), s.chip.Calm ∧ s.chip.debugReaches a.toNat = false) ∧
    (∃ (s : State) (a : BitVec 32), s.chip.Calm ∧ a.toNat % 4 = 0 ∧ s.chip.finds .debug a.toNat false = true ∧
      s.chip.place mDbg a.toNat = .reg a.toNat ∧ a.toNat ∉ [Reg.STC_LO, Reg.RTC_CNT_LO, Reg.STRM_POS_LO] ∧
      (a.toNat < Reg.SEM 0 ∨ Reg.SEM 63 < a.toNat) ∧ (a.toNat < 0x40121000 ∨ 0x40121800 ≤ a.toNat)) ∧
    (∃ (s : State), s.chip.Calm) :=
  ⟨
    ⟨(alter (fs []) fun c => { c with sec := { c.sec with romDue := false } }), by decide +kernel, by decide +kernel⟩,
    ⟨(booting {} []), 1, by decide +kernel, by decide +kernel, by decide +kernel, by decide +kernel,
            by decide +kernel, by decide +kernel⟩,
    ⟨(booting {} []), 0, 0, by decide +kernel, by decide +kernel, by decide +kernel, by decide +kernel,
            by decide +kernel, by decide +kernel, by decide +kernel, by decide +kernel, by decide +kernel⟩,
    ⟨(booting { lc := 3 } []), by decide +kernel, by decide +kernel, by decide +kernel⟩,
    ⟨(fs []), .secp, 0, by decide +kernel, by decide +kernel, by decide +kernel, by decide +kernel⟩,
    ⟨(fs [(F.ENG_STATUS_STATE 3,4),(F.MB_LOCK_LOCK,1)]), .secp, 0, by decide +kernel, by decide +kernel,
            by decide +kernel⟩,
    ⟨(fs [(F.SEC_CTRL_KEY_LOCK,1)]), .secp, by decide +kernel, by decide +kernel, by decide +kernel⟩,
    ⟨(fusing {} { op := 1, arg := 2, data := [], locked := false } []), .secp, by decide +kernel, by decide +kernel,
            by decide +kernel⟩,
    ⟨(fs []), by decide +kernel, by decide +kernel⟩,
    ⟨(fusing {} { op := 1, arg := 2, data := [], locked := false } []),
            { op := 1, arg := 2, data := [], locked := false }, by decide +kernel, by decide +kernel,
            by decide +kernel, by decide +kernel⟩,
    ⟨(fusing {} { op := 1, arg := 2, data := [], locked := false } []),
            { op := 1, arg := 2, data := [], locked := false }, 2, by decide +kernel, by decide +kernel,
            by decide +kernel, by decide +kernel, by decide +kernel, by decide +kernel, by decide +kernel⟩,
    ⟨(fusing {} { op := 2, arg := 1, data := [], locked := false } []),
            { op := 2, arg := 1, data := [], locked := false }, by decide +kernel, by decide +kernel,
            by decide +kernel, by decide +kernel, by decide +kernel⟩,
    ⟨(fusing {} { op := 3, arg := 0, data := [0x910001], locked := false } []),
            { op := 3, arg := 0, data := [0x910001], locked := false }, by decide +kernel, by decide +kernel,
            by decide +kernel, by decide +kernel, by decide +kernel⟩,
    ⟨(fusing { lc := 1 } { op := 4, arg := 0, data := [], locked := false } []),
            { op := 4, arg := 0, data := [], locked := false }, by decide +kernel, by decide +kernel,
            by decide +kernel, by decide +kernel⟩,
    ⟨(fusing { lc := 1 } { op := 6, arg := 16, data := [0x1000], locked := true } []),
            { op := 6, arg := 16, data := [0x1000], locked := true }, by decide +kernel, by decide +kernel,
            by decide +kernel, by decide +kernel, by decide +kernel⟩,
    ⟨(fs []), .secp, by decide +kernel, by decide +kernel⟩,
    ⟨(fs [(F.SEC_REC_CTRL_BUSY,1)]), by decide +kernel⟩,
    ⟨(fs [(F.SEC_OSPI_WP_START,1),(F.SEC_OSPI_WP_LEN,4)]), .secp, by decide +kernel, by decide +kernel,
            by decide +kernel⟩,
    ⟨(flashing 1 0 4), .secp, by decide +kernel, by decide +kernel, by decide +kernel⟩,
    ⟨(flashing 1 0x10FFE 4), 1, 0x10FFE, 4, [0xAABBCCF1], by decide +kernel, by decide +kernel, by decide +kernel⟩,
    ⟨(fs []), by decide +kernel, by decide +kernel⟩,
    ⟨(fs [(F.ID_LIFECYCLE_STATE,2)]), 0x10000000, by decide +kernel, by decide +kernel⟩,
    ⟨(alter (fs []) fun c => { c with sec := { c.sec with open_ := true } }), (BitVec.ofNat 32 Reg.READY),
            by decide +kernel, by decide +kernel, by decide +kernel, by decide +kernel, by decide +kernel,
            by decide +kernel, by decide +kernel⟩,
    ⟨(fs []), by decide +kernel⟩⟩

/-! ### Power -/

/-- States of the domains and banks that standby leaves, with more fields. -/
def asleep (l : List (Field × Nat)) : State :=
  fs ([(F.PMU_DSTATE0_STATE, 0xAAAAAAAA), (F.PMU_DSTATE1_STATE, 0xA), (F.PMU_SSTATE0_STATE, 0xAAAAAAAA), (F.PMU_SSTATE1_STATE, 0xAAAAAAAA),
    (F.PMU_STATUS_LPMODE, 1)] ++ l)

/-- A wake sequence is at step `n`. -/
def waking (q : WakeSeq) (l : List (Field × Nat)) : State :=
  alter (asleep ([(F.PMU_STATUS_BUSY, 1), (F.PMU_STATUS_LPMODE, 0)] ++ l)) fun c => { c with pmu := { c.pmu with seq := some q } }

theorem test_powerManagement_met :
    (∃ (s : State) (m : Master), s.chip.Calm ∧ s.chip.writes m Reg.PMU_CMD = true ∧
      s.chip.bit F.PMU_STATUS_BUSY = true) ∧
    (∃ (s : State) (m : Master) (v : Word) (d : Nat), s.chip.Calm ∧ s.chip.writes m Reg.PMU_CMD = true ∧
      s.chip.bit F.PMU_STATUS_BUSY = false ∧ d = bits v.toNat 15 8) ∧
    (∃ (s : State) (m : Master) (v : Word) (d : Nat), s.chip.Calm ∧ s.chip.writes m Reg.PMU_CMD = true ∧
      s.chip.bit F.PMU_STATUS_BUSY = false ∧ d = bits v.toNat 15 8 ∧ bits v.toNat 1 0 = 2 ∧ s.chip.domOn 10 = true ∧
      s.chip.domOn 11 = true) ∧
    (∃ (s : State) (m : Master) (v : Word) (p : Nat), s.chip.Calm ∧ s.chip.writes m Reg.PMU_CMD = true ∧
      s.chip.bit F.PMU_STATUS_BUSY = false ∧ s.chip.tick.phase = .idle ∧ bits v.toNat 15 8 = 0x10 + p ∧ p < 10 ∧
      bits v.toNat 1 0 = 2 ∧ s.chip.domOn 10 = true ∧ s.chip.domOn p = true ∧ s.chip.locked73 p = false ∧
      s.chip.bit F.TLK_CFG_EN = false) ∧
    (∃ (s : State) (m : Master) (v : Word) (d : Nat), s.chip.Calm ∧ s.chip.writes m Reg.PMU_CMD = true ∧
      s.chip.bit F.PMU_STATUS_BUSY = false ∧ bits v.toNat 15 8 = 0x40 + d ∧ d < 6 ∧ bits v.toNat 1 0 = 0) ∧
    (∃ (s : State) (m : Master), s.chip.Calm ∧ s.chip.writes m Reg.PMU_CMD = true ∧
      s.chip.bit F.PMU_STATUS_BUSY = false) ∧
    (∃ (s : State) (m : Master) (d : Nat) (b : Nat), s.chip.Calm ∧ s.chip.writes m Reg.PMU_CMD = true ∧
      s.chip.bit F.PMU_STATUS_BUSY = false ∧ d = s.chip.notOn (Chip.closeSet (s.chip.fld F.PMU_WAKE_SET_SET)) ∧
      b = s.chip.banksNotOn (s.chip.fld F.PMU_WAKE_SERAI_SET)) ∧
    (∃ (s : State), s.chip.Calm ∧ (s.chip.bit F.PMU_STATUS_PREP = false ∨ s.chip.prepared = false)) ∧
    (∃ (s : State), s.chip.Calm ∧ s.chip.bit F.PMU_STATUS_PREP = true ∧ s.chip.prepared = true ∧
      s.chip.tick.phase = .idle ∧ s.chip.bit F.SEC_REC_CTRL_BUSY = false ∧ s.chip.sec.fuseOp = none ∧
      s.chip.sec.ospi = none ∧ s.chip.fld F.TICK_STATUS_RUNNING = 0) ∧
    (∃ (s : State), s.chip.Calm) ∧
    (∃ (s : State) (level : Bool) (hit : Bool), s.chip.Calm ∧ s.chip.entering = false ∧
      hit = (s.chip.bit F.PMU_WAKE_EN_PIN && level != s.chip.bit F.PMU_WAKE_EN_PIN_POL &&
            (!s.chip.bit F.PMU_WAKE_EN_PIN_EDGE || s.chip.pmu.pin == s.chip.bit F.PMU_WAKE_EN_PIN_POL))) ∧
    (∃ (s : State), s.chip.Calm ∧ s.chip.entering = true ∧ s.chip.bit F.PMU_WAKE_EN_PIN = true ∧
      s.chip.bit F.PMU_WAKE_EN_PIN_EDGE = true ∧ s.chip.bit F.PMU_WAKE_EN_PIN_POL = false ∧ s.chip.pmu.pin = false) ∧
    (∃ (s : State), s.chip.Calm ∧ s.chip.entering = true ∧ s.chip.bit F.PMU_WAKE_EN_PIN = true ∧
      s.chip.bit F.PMU_WAKE_EN_PIN_EDGE = false ∧ s.chip.bit F.PMU_WAKE_EN_PIN_POL = false) ∧
    (∃ (s : State), s.chip.Calm) ∧
    (∃ (s : State), s.chip.Calm) ∧
    (∃ (s : State), s.chip.Calm ∧
      (s.chip.pmu.seq.isSome = true ∨
            (s.chip.notOn (Chip.closeSet s.chip.pmu.req) = 0 ∧ s.chip.banksNotOn s.chip.pmu.reqBanks = 0))) ∧
    (∃ (s : State) (d : Nat) (b : Nat), s.chip.Calm ∧ s.chip.pmu.seq = none ∧
      d = s.chip.notOn (Chip.closeSet s.chip.pmu.req) ∧ b = s.chip.banksNotOn s.chip.pmu.reqBanks ∧ (d ≠ 0 ∨ b ≠ 0)) ∧
    (∃ (s : State), s.chip.Calm ∧ s.chip.pmu.seq = none) ∧
    (∃ (s : State) (q : WakeSeq), s.chip.Calm ∧ s.chip.pmu.seq = some q ∧ q.step = 1 ∧
      (s.chip.pmu.req = 0 ∧ s.chip.pmu.reqBanks = 0) ∧ bitAt q.doms 17 = true ∧ s.chip.bit F.RTC_CTRL_EN = true) ∧
    (∃ (s : State) (q : WakeSeq), s.chip.Calm ∧ s.chip.pmu.seq = some q ∧ q.step = 4 ∧ q.doms = 2 ^ 13 ∧
      (s.chip.pmu.req = 0 ∧ s.chip.pmu.reqBanks = 0) ∧ s.chip.bit F.RTC_CTRL_EN = false ∧ s.chip.domState 13 = 3 ∧
      q.was 13 = 2) ∧
    (∃ (s : State) (q : WakeSeq), s.chip.Calm ∧ s.chip.pmu.seq = some q) ∧
    (∃ (s : State) (q : WakeSeq) (a : Nat) (l : List Nat), s.chip.Calm ∧ s.chip.pmu.seq = some q ∧ q.step = 3 ∧
      q.tried = true ∧ q.arrays = a :: l ∧ l ≠ [] ∧ a < 8) ∧
    (∃ (s : State) (m : Master), s.chip.Calm ∧ s.chip.writes m Reg.PMU_PAD_HOLD = true) ∧
    (∃ (s : State) (k : Nat), s.chip.Calm ∧
      k ∉ [Reg.PMU_RST_CAUSE, Reg.HPORT_CFG, Reg.EVT_PEND 3, Reg.FUSE_STATE, Reg.FUSE_SLOT, Reg.ID_LIFECYCLE] ∧
      s.otp.ceil = [] ∧ s.chip.sec.fuseOp = none ∧ s.chip.sec.ospi = none) :=
  ⟨
    ⟨(fs [(F.PMU_STATUS_BUSY,1)]), .cp, by decide +kernel, by decide +kernel, by decide +kernel⟩,
    ⟨(fs []), .cp, 0x1003, 0x10, by decide +kernel, by decide +kernel, by decide +kernel, by decide +kernel⟩,
    ⟨(fs [(F.STRM_CFG_EN,1)]), .cp, 0x4402, 0x44, by decide +kernel, by decide +kernel, by decide +kernel,
            by decide +kernel, by decide +kernel, by decide +kernel, by decide +kernel⟩,
    ⟨(alter (fs [(F.ENG_STATUS_STATE 3,6)]) fun c => c.setCore 3 { pc := 8 }), .cp, 0x1302, 3, by decide +kernel,
            by decide +kernel, by decide +kernel, by decide +kernel, by decide +kernel, by decide +kernel,
            by decide +kernel, by decide +kernel, by decide +kernel, by decide +kernel, by decide +kernel⟩,
    ⟨(fs []), .cp, 0x4100, 1, by decide +kernel, by decide +kernel, by decide +kernel, by decide +kernel,
            by decide +kernel, by decide +kernel⟩,
    ⟨(fs []), .cp, by decide +kernel, by decide +kernel, by decide +kernel⟩,
    ⟨(fs []), .cp, 0, 0, by decide +kernel, by decide +kernel, by decide +kernel, by decide +kernel,
            by decide +kernel⟩,
    ⟨(fs [(F.PMU_STATUS_PREP,1)]), by decide +kernel, by decide +kernel⟩,
    ⟨(alter (fs [(F.PMU_STATUS_PREP,1),(F.PMU_STBY_CFG_RET,0x401)]) fun c =>
                (c.modAux 10 fun a => { a with run := .waiting }).modAux 11 fun a => { a with run := .waiting }),
            by decide +kernel, by decide +kernel, by decide +kernel, by decide +kernel, by decide +kernel,
            by decide +kernel, by decide +kernel, by decide +kernel⟩,
    ⟨(fs [(F.PMU_STATUS_PREP,1),(F.PMU_STATUS_BUSY,1)]), by decide +kernel⟩,
    ⟨(asleep [(F.PMU_WAKE_EN_PIN,1),(F.PMU_WAKE_SET_SET,0x1000)]), true, true, by decide +kernel, by decide +kernel,
            by decide +kernel⟩,
    ⟨(fs [(F.PMU_WAKE_EN_PIN,1),(F.PMU_WAKE_EN_PIN_EDGE,1),(F.PMU_STATUS_PREP,1)]), by decide +kernel,
            by decide +kernel, by decide +kernel, by decide +kernel, by decide +kernel, by decide +kernel⟩,
    ⟨(fs [(F.PMU_WAKE_EN_PIN,1),(F.PMU_STATUS_PREP,1),(F.PMU_STATUS_BUSY,1)]), by decide +kernel, by decide +kernel,
            by decide +kernel, by decide +kernel, by decide +kernel⟩,
    ⟨(fs [(F.RTC_CTRL_EN,1),(F.RTC_CTRL_ALARM_EN,1),(F.PMU_WAKE_EN_RTC,1)]), by decide +kernel⟩,
    ⟨(asleep [(F.RTC_CTRL_ACTIVE_SRC,1)]), by decide +kernel⟩,
    ⟨(fs []), by decide +kernel, by decide +kernel⟩,
    ⟨(alter (asleep []) fun c => { c with pmu := { c.pmu with req := 0x1000, reqBanks := 5 } }), 0x21000, 5,
            by decide +kernel, by decide +kernel, by decide +kernel, by decide +kernel, by decide +kernel⟩,
    ⟨(fs []), by decide +kernel, by decide +kernel⟩,
    ⟨(waking { doms := 0x21000, banks := 0, step := 1, arrays := [], prior := [] } [(F.RTC_CTRL_EN,1)]),
            { doms := 0x21000, banks := 0, step := 1, arrays := [], prior := [] }, by decide +kernel,
            by decide +kernel, by decide +kernel, by decide +kernel, by decide +kernel, by decide +kernel⟩,
    ⟨(alter (fs [(F.PMU_DSTATE0_STATE, 0x0C000000),(F.PMU_STATUS_BUSY,1),(F.RTC_CTRL_EN,0)]) fun c =>
                { c with
                  pmu := { c.pmu with
                          seq := some {
                                  doms := 0x2000
                                  banks := 0
                                  step := 4
                                  arrays := []
                                  prior := [0x08000000, 0, 0, 0] } } }),
            { doms := 0x2000, banks := 0, step := 4, arrays := [], prior := [0x08000000, 0, 0, 0] },
            by decide +kernel, by decide +kernel, by decide +kernel, by decide +kernel, by decide +kernel,
            by decide +kernel, by decide +kernel, by decide +kernel⟩,
    ⟨(waking {
                  doms := 0x21000
                  banks := 0
                  step := 1
                  arrays := []
                  prior := [0xAAAAAAAA, 10, 0, 0]
                  tried := true } []), {
              doms := 0x21000
              banks := 0
              step := 1
              arrays := []
              prior := [0xAAAAAAAA, 10, 0, 0]
              tried := true }, by decide +kernel, by decide +kernel⟩,
    ⟨(waking { doms := 0x21000, banks := 5, step := 3, arrays := [0, 2], prior := [], tried := true } []),
            { doms := 0x21000, banks := 5, step := 3, arrays := [0, 2], prior := [], tried := true }, 0, [2],
            by decide +kernel, by decide +kernel, by decide +kernel, by decide +kernel, by decide +kernel,
            by decide +kernel, by decide +kernel⟩,
    ⟨(fs [(F.PMU_PAD_HOLD_HOLD,0x3400),(F.PMU_DSTATE0_STATE,0x08000000)]), .cp, by decide +kernel, by decide +kernel⟩,
    ⟨(fs [(F.PMU_STATUS_LPMODE,1),(F.ENG_STATUS_STATE 4,4),(F.HPORT_CFG_I2C_ADDR,0x11)]), (Reg.ENG_STATUS 4),
            by decide +kernel, by decide +kernel, by decide +kernel, by decide +kernel, by decide +kernel⟩⟩

/-! ### Every command -/

theorem test_queueDiscipline_met :
    (∃ (s : State), s.pending = [] ∧ s.chip.bit F.RTC_CTRL_EN = false) ∧
    (∃ (s : State), s.pending = [] ∧ s.chip.bit F.RTC_CTRL_EN = true) :=
  ⟨
    ⟨(fs [(F.RTC_CTRL_EN, 0)]), by decide +kernel, by decide +kernel⟩,
    ⟨(fs [(F.RTC_CTRL_EN, 1)]), by decide +kernel, by decide +kernel⟩⟩

/-- The block after reset with a command in its queue. -/
def waiting : State := { State.reset with pending := [.alarmEn .secp 0x20] }

theorem test_stepRunsFrontCommand_met : ∃ (s : State) (i : Instr) (rest : List Instr), s.pending = i :: rest :=
  ⟨waiting, .alarmEn .secp 0x20, [], rfl⟩

theorem test_stepKeepsMemoryForm_met : ∃ (s t : State), Wf s ∧ steps s t := ⟨waiting, _, by unfold Wf; decide +kernel, rfl⟩

theorem test_fusesOnlyGrow_met : ∃ (s t : State), steps s t := ⟨waiting, _, rfl⟩

end Sys2Proof.Tests
end

section
/-! Scope (spec/00): what reset leaves, and the access codes of registers. -/

namespace Sys2Proof.Proofs

open Sys2Proof Sys2Proof.Machine

/-! ### Reset -/

/-- With nothing listed, a register reads the reset value of its row (R8). -/
theorem reset_reg (k : Nat) : State.reset.chip.reg k = Reg.resetOf k := rfl

/-- Addresses of the CP SRAM lie in memory 100. -/
theorem memNo_cpSram (k : Nat) : memNo (0x10000000 + k % 0x100000) = 100 := by
  have hk : k % 0x100000 < 0x100000 := Nat.mod_lt _ (by decide)
  unfold memNo
  rw [if_neg (by omega), if_neg (by omega), if_neg (by omega), if_pos (by omega)]

/-- A byte that nothing has written, in a memory that has never lost its content, reads 0, but for the SECP's ROM. -/
theorem unlisted_of_kept {lost : List (Nat × Nat)} {a : Nat} (hl : Tab.get (fun _ => 0) lost (memNo a) = 0)
    (hr : memNo a ≠ 102) : unlisted lost a = 0 := by
  simp [unlisted, hl, hr]

theorem reset_byte_cpSram (k : Nat) : State.reset.chip.byte (0x10000000 + k % 0x100000) = 0 :=
  unlisted_of_kept rfl (by rw [memNo_cpSram]; decide)

/-- Every engine is in RESET with its domain on, looked up in the register table. -/
theorem reset_engine : ∀ p < 10, State.reset.chip.engState p = 0 ∧ State.reset.chip.domOn p = true := by
  decide +kernel

theorem reset_tick_stopped : State.reset.chip.bit F.TICK_CTRL_RUN = false := by decide +kernel

/-- Settles O1: nothing is listed at reset, so each register reads its row's reset value and each byte what it reads as
unwritten. -/
theorem resetState : Obligations.resetState := by
  refine ⟨⟨?_, ?_, ?_, ?_⟩, fun k => ⟨reset_reg k, reset_byte_cpSram k⟩, reset_engine, reset_tick_stopped, ?_, ?_⟩
  · exact State.reset_pending
  · rfl
  · rfl
  · rfl
  · rfl
  · exact ⟨rfl, rfl, rfl⟩

/-! ### Register reads by the cores -/

theorem masterRead_secp (c : Chip) (a : Nat) : c.masterRead .secp a = (c.busRead Master.secp.id a 4).2.1.answer
    (if (c.busRead Master.secp.id a 4).2.2 then .busError else .data (c.busRead Master.secp.id a 4).1) := rfl

theorem masterRead_cp (c : Chip) (a : Nat) : c.masterRead .cp a = (c.busRead Master.cp.id a 4).2.1.answer
    (if (c.busRead Master.cp.id a 4).2.2 then .busError else .data (c.busRead Master.cp.id a 4).1) := rfl

/-- Outside the boot record's memory, a read of a register that master `id` reaches is that register's own read. -/
theorem busRead_reg {c : Chip} {id a : Nat} (h : isReg a = true) (hr : c.regReached id a = true)
    (hb : ¬(0x40121000 ≤ a ∧ a < 0x40121800)) :
    c.busRead id a 4 = ((c.regTake id a).1, (c.regTake id a).2, false) := by
  have ha : a / 4 * 4 = a := isReg_mul h
  unfold Chip.busRead
  rw [ha]
  dsimp only
  rw [place_reg c id h]
  dsimp only
  rw [if_neg (by simpa [Chip.placeOpen] using hr), if_pos ⟨rfl, by omega⟩, if_neg hb]

theorem masterRead_reg {c : Chip} {m : Master} {a : Nat} (hm : m = .secp ∨ m = .cp) (h : isReg a = true)
    (hr : c.regReached m.id a = true) (hb : ¬(0x40121000 ≤ a ∧ a < 0x40121800)) :
    c.masterRead m a = (c.regTake m.id a).2.answer (.data (c.regTake m.id a).1) := by
  rcases hm with rfl | rfl
  · rw [masterRead_secp, busRead_reg h hr hb, if_neg Bool.false_ne_true]
  · rw [masterRead_cp, busRead_reg h hr hb, if_neg Bool.false_ne_true]

/-- The register-table read of a semaphore is R338's. -/
theorem regTake_sem (c : Chip) (id : Nat) {k : Nat} (hk : k < 64) : c.regTake id (Reg.SEM k) = c.semRead k id := by
  have hix : (Reg.SEM k - Reg.SEM 0) / 4 = k := by simp only [Reg.SEM]; omega
  unfold Chip.regTake
  rw [if_neg (by simp only [Reg.SEM, Reg.STC_LO]; omega), if_neg (by simp only [Reg.SEM, Reg.RTC_CNT_LO]; omega),
    if_neg (by simp only [Reg.SEM, Reg.STRM_POS_LO]; omega), if_pos (by simp only [Reg.SEM]; omega), hix]

theorem isReg_peripheral {a : Nat} (h4 : a % 4 = 0) (hlo : 0x40000000 ≤ a) (hhi : a < 0x40150000) : isReg a = true := by
  simp [isReg, h4, hlo, hhi]

theorem isReg_sem {k : Nat} (hk : k < 64) : isReg (Reg.SEM k) = true := by
  unfold Reg.SEM
  exact isReg_peripheral (by omega) (by omega) (by omega)

/-- The block after master `id` has acquired semaphore `k` (R338). -/
def acquired (c : Chip) (k id : Nat) : Chip := (c.setFld (F.SEM_FREE k) 0).setFld (F.SEM_OWNER k) id

theorem semRead_of_free {c : Chip} {k id : Nat} (hf : c.bit (F.SEM_FREE k) = true) (hid : id ≠ mDbg) :
    c.semRead k id = (BitVec.ofNat 32 (2 ^ 31 + id), acquired c k id) := by
  simp [Chip.semRead, hf, hid, acquired]

theorem fld_owner_acquired (c : Chip) (k id : Nat) : (acquired c k id).fld (F.SEM_OWNER k) = id % 32 :=
  Chip.fld_setFld_same _ _ _ rfl

theorem reg_acquired_other (c : Chip) {k id j : Nat} (h : j ≠ Reg.SEM k) : (acquired c k id).reg j = c.reg j := by
  unfold acquired
  rw [Chip.reg_setFld_other _ _ _ h, Chip.reg_setFld_other _ _ _ h]

theorem exec_clearOnRead (m : Master) (a : BitVec 32) (s : State) :
    exec (.clearOnRead m a) s = run (fun c => c.masterRead m a.toNat) s := rfl

theorem answer_acquired_calm {c : Chip} (k id : Nat) (r : Resp) (hc : c.Calm) : ((acquired c k id).answer r).Calm := by
  obtain ⟨hmig, hwake, hfuse⟩ := hc
  exact ⟨by simp [acquired, hmig], by simp [acquired, hwake], by simp [acquired, hfuse]⟩

theorem answer_acquired_sec (c : Chip) (k id : Nat) (r : Resp) : ((acquired c k id).answer r).sec = c.sec := by
  simp [acquired]

/-- CLEAR_ON_READ of a free semaphore by a core acquires it (R338): beside FREE clearing, OWNER takes the core's ID. -/
theorem clearOnRead_free_sem {s : State} {m : Master} {a : BitVec 32} {k : Nat} (hc : s.chip.Calm)
    (hm : m = .secp ∨ m = .cp) (hk : k < 64) (ha : a.toNat = Reg.SEM k)
    (hr : s.begin_.chip.regReached m.id (Reg.SEM k) = true) (hf : s.begin_.chip.bit (F.SEM_FREE k) = true) :
    exec (.clearOnRead m a) s = .next { s with
      chip := (acquired s.begin_.chip k m.id).answer (.data (BitVec.ofNat 32 (2 ^ 31 + m.id))) } := by
  have hid : m.id ≠ mDbg := by rcases hm with rfl | rfl <;> decide
  have hread : s.begin_.chip.masterRead m a.toNat =
      (acquired s.begin_.chip k m.id).answer (.data (BitVec.ofNat 32 (2 ^ 31 + m.id))) := by
    rw [ha, masterRead_reg hm (isReg_sem hk) hr (by simp only [Reg.SEM]; omega), regTake_sem _ _ hk,
      semRead_of_free hf hid]
  have hne : ∀ j ∈ [Reg.TICK_STATUS, Reg.CLK_STATUS], j ≠ Reg.SEM k := by
    simp only [List.forall_mem_cons, Reg.SEM, Reg.TICK_STATUS, Reg.CLK_STATUS]
    exact ⟨by omega, by omega, by simp⟩
  rw [exec_clearOnRead, run_calm, hread]
  · rw [hread]
    exact answer_acquired_calm k m.id _ ⟨hc.1, hc.2.1, hc.2.2⟩
  · intro j hj
    rw [hread, Chip.answer_reg, reg_acquired_other _ (hne j hj)]
    rfl
  · rw [hread]
    exact answer_acquired_sec _ k m.id _

/-- Refutes O27: its read clause claims that a read of every register with RC fields clears those fields and nothing more,
but SEMk.FREE is RC and a read of a free semaphore also writes OWNER (R338). The CP's read of SEM0 right after reset
leaves OWNER 1, its ID, where the clause demands 0. -/
theorem not_registerAccess : ¬ Obligations.registerAccess := by
  rintro ⟨-, hread⟩
  obtain ⟨t, hexec, -, hreg, -⟩ := hread State.reset .cp (BitVec.ofNat 32 (Reg.SEM 0))
    { base := 0x40052000, count := 64, stride := 0x4, reset := 0x80000000, rc := 0x80000000, dom := .aon }
    (by decide) (.inr rfl) (by decide) (by decide +kernel) (by decide +kernel) (by decide) (by decide) (by decide +kernel)
  have hacq := clearOnRead_free_sem (s := State.reset) (m := .cp) (a := BitVec.ofNat 32 (Reg.SEM 0)) (k := 0)
    ⟨rfl, rfl, rfl⟩ (.inr rfl) (by decide) rfl (by decide +kernel) (by decide +kernel)
  obtain rfl := Host.Outcome.next.inj (hexec.symm.trans hacq)
  have howned : (acquired State.reset.begin_.chip 0 1).fld (F.SEM_OWNER 0) = 1 := fld_owner_acquired _ 0 1
  have hclear : (acquired State.reset.begin_.chip 0 1).reg (Reg.SEM 0) =
      State.reset.chip.reg (Reg.SEM 0) &&& ~~~BitVec.ofNat 32 0x80000000 := hreg
  have hreset : State.reset.chip.reg (Reg.SEM 0) = 0x80000000 := by decide +kernel
  rw [hreset] at hclear
  have hfree : (acquired State.reset.begin_.chip 0 1).fld (F.SEM_OWNER 0) = 0 := by
    unfold Chip.fld
    rw [show (F.SEM_OWNER 0).reg = Reg.SEM 0 from rfl, hclear]
    decide
  omega

end Sys2Proof.Proofs
end

section
/-! Events of phase-0 cycle 0 (spec/02, spec/12): the snap of a device that takes the drive token in the same cycle. -/

namespace Sys2Proof.Proofs

open Sys2Proof Sys2Proof.Machine

/-! ### The snap and the drive token -/

/-- A block between two ticks whose loop waits for a commanded snap (R282), in tandem operation (TLK_CFG.EN) and armed, with
TLK_DRIVE_IN low, though TLK_STATUS.STATE reads 0. -/
def armedWaitingSnap : State :=
  { chip := [(F.TICK_CTRL_RUN, 1), (F.CLK_STATUS_AUD_LOCK, 1), (F.TRK_STATUS_STATE, 5), (F.TRK_CTRL_RET, 3), (F.TLK_CFG_EN, 1),
      (F.TLK_STATUS_ARMED, 1)].foldl (fun c x => c.setFld x.1 x.2) { clk := { snapReq := true } } }

/-- An operation of phase 0 that does not take place leaves the block as it was (log entry 8). -/
theorem early_of_miss {c : Chip} {n : Nat} {hit : Chip → Chip → Bool}
    (h : hit c (c.p0To n false (c.bit F.TLK_STATUS_DRIVE_IN)) = false) : c.early n hit = c := by
  simp [Chip.early, h]

/-- In cycle 0 the block takes the token, so that its loop freewheels (R218, R222) and waits for the snap no longer: the
command makes no snap and leaves the block as it was. -/
theorem armedWaitingSnap_snap :
    exec .snap armedWaitingSnap = .next (concluded armedWaitingSnap armedWaitingSnap.begin_) := by
  have hmiss : armedWaitingSnap.begin_.chip.early 1 snapHit = armedWaitingSnap.begin_.chip :=
    early_of_miss (by decide +kernel)
  show finish armedWaitingSnap { armedWaitingSnap.begin_ with chip := armedWaitingSnap.begin_.chip.early 1 snapHit } = _
  rw [hmiss]
  rfl

theorem armedWaitingSnap_not_slewed : (concluded armedWaitingSnap armedWaitingSnap.begin_).chip.clk.slewed = false := by
  decide +kernel

/-- Refutes O5: its clause for SNAP excludes tandem operation by TLK_STATUS.STATE 0 alone, and not by TLK_CFG.EN. With EN 1
an armed device whose TLK_DRIVE_IN is low takes the token in cycle 0 before the loop's step; its loop then freewheels, the
snap that was due is not made, and `slewed` stays false where the clause demands true. -/
theorem not_cycle0Events : ¬ Obligations.cycle0Events := by
  rintro ⟨-, -, -, -, -, hsnap, -⟩
  obtain ⟨t, hexec, hslewed, -⟩ := hsnap armedWaitingSnap ⟨rfl, rfl, rfl⟩ (by decide +kernel) (by decide +kernel)
    (by decide +kernel) rfl (by decide +kernel) (by decide +kernel) rfl (.inl ⟨by decide +kernel, rfl⟩)
  obtain rfl := Host.Outcome.next.inj (hexec.symm.trans armedWaitingSnap_snap)
  rw [armedWaitingSnap_not_slewed] at hslewed
  cases hslewed

end Sys2Proof.Proofs
end

section
/-! The tick generator beside the units (spec/02): its state, the bits of its control and status that start, stop and pause
it, and the security block, which the operations of the units leave alone. First registers, events and memory. -/

namespace Sys2Proof.Proofs

open Sys2Proof Sys2Proof.Machine

/-! ### The view -/

/-- What the units' operations leave alone: the tick generator's state, RUN and ALARM_EN, RUNNING and PAUSED, and the state
of the fuse and security block. -/
structure TickSide where
  tick : Tick
  run : Bool
  alarmEn : Bool
  running : Bool
  paused : Bool
  sec : Sec

/-- The view of a block. -/
def tickSide (c : Chip) : TickSide :=
  ⟨c.tick, c.bit F.TICK_CTRL_RUN, c.bit F.TICK_CTRL_ALARM_EN, c.bit F.TICK_STATUS_RUNNING, c.bit F.TICK_STATUS_PAUSED, c.sec⟩

theorem bit_congr {c d : Chip} {f : Field} (h : d.reg f.reg = c.reg f.reg) : d.bit f = c.bit f := by
  simp [Chip.bit, Chip.fld, h]

/-- The view depends on the tick's state, two registers and the security block. -/
theorem tickSide_congr {c d : Chip} (ht : d.tick = c.tick) (hctrl : d.reg Reg.TICK_CTRL = c.reg Reg.TICK_CTRL)
    (hstat : d.reg Reg.TICK_STATUS = c.reg Reg.TICK_STATUS) (hsec : d.sec = c.sec) : tickSide d = tickSide c := by
  unfold tickSide
  rw [ht, hsec, bit_congr (f := F.TICK_CTRL_RUN) hctrl, bit_congr (f := F.TICK_CTRL_ALARM_EN) hctrl,
    bit_congr (f := F.TICK_STATUS_RUNNING) hstat, bit_congr (f := F.TICK_STATUS_PAUSED) hstat]

/-! ### Composition -/

@[simp] theorem tickSide_ite {p : Prop} {_ : Decidable p} (c d : Chip) :
    tickSide (if p then c else d) = if p then tickSide c else tickSide d := apply_ite tickSide p c d

@[simp] theorem tickSide_when (c : Chip) (b : Bool) (f : Chip → Chip) :
    tickSide (c.when b f) = if b then tickSide (f c) else tickSide c := apply_ite tickSide _ _ _

@[simp] theorem tickSide_foldl {α : Type} {f : Chip → α → Chip} (h : ∀ c a, tickSide (f c a) = tickSide c) (l : List α)
    (c : Chip) : tickSide (l.foldl f c) = tickSide c := by
  induction l generalizing c with
  | nil => rfl
  | cons a l ih => rw [List.foldl_cons, ih, h]

/-! ### Registers and events -/

@[simp] theorem tickSide_setReg {k : Nat} (hctrl : k ≠ 0x40030000) (hstat : k ≠ 0x40030014) (c : Chip) (v : Word) :
    tickSide (c.setReg k v) = tickSide c :=
  tickSide_congr rfl (Chip.reg_setReg_other _ _ hctrl.symm) (Chip.reg_setReg_other _ _ hstat.symm) rfl

/-- A register of an array above the tick generator's block. -/
@[simp] theorem tickSide_setReg_array {a : Nat} (h : 0x40030014 < a) (c : Chip) (b : Nat) (v : Word) :
    tickSide (c.setReg (a + b) v) = tickSide c := tickSide_setReg (by omega) (by omega) c v

/-- A register of engine `p`'s control region. -/
@[simp] theorem tickSide_setReg_engine {a : Nat} (h : 0x180000 ≤ a % 0x400000) (c : Chip) (p : Nat) (v : Word) :
    tickSide (c.setReg (a + p * 0x400000) v) = tickSide c := tickSide_setReg (by omega) (by omega) c v

@[simp] theorem tickSide_setFld (c : Chip) (f : Field) (v : Nat) :
    tickSide (c.setFld f v) = tickSide (c.setReg f.reg (f.put (c.reg f.reg) v)) := by rfl

@[simp] theorem tickSide_setFbit (c : Chip) (f : Field) (i : Nat) :
    tickSide (c.setFbit f i) = tickSide (c.setFld f (withBit (c.fld f) i)) := by rfl

@[simp] theorem tickSide_clrFbit (c : Chip) (f : Field) (i : Nat) :
    tickSide (c.clrFbit f i) = tickSide (c.setFld f (dropBit (c.fld f) i)) := by rfl

@[simp] theorem tickSide_bump (c : Chip) (f : Field) :
    tickSide (c.bump f) = tickSide (c.setFld f (min (c.fld f + 1) f.max)) := by rfl

/-- The fields of TICK_STATUS above PAUSED: counts and flags that stop nothing. -/
theorem tickSide_setFld_status {f : Field} (hreg : f.reg = Reg.TICK_STATUS) (hlo : 2 ≤ f.lo) (hok : f.ok = true) (c : Chip)
    (v : Nat) : tickSide (c.setFld f v) = tickSide c := by
  have hne : Reg.TICK_CTRL ≠ f.reg := by rw [hreg]; decide
  have hctrl : (c.setFld f v).reg Reg.TICK_CTRL = c.reg Reg.TICK_CTRL := Chip.reg_setFld_other _ _ _ hne
  have hrun : (c.setFld f v).bit F.TICK_STATUS_RUNNING = c.bit F.TICK_STATUS_RUNNING :=
    Chip.bit_setFld_other _ _ _ _ hok (by decide) (by simp [Field.apart, F.TICK_STATUS_RUNNING, show 0 < f.lo by omega])
  have hpause : (c.setFld f v).bit F.TICK_STATUS_PAUSED = c.bit F.TICK_STATUS_PAUSED :=
    Chip.bit_setFld_other _ _ _ _ hok (by decide) (by simp [Field.apart, F.TICK_STATUS_PAUSED, show 1 < f.lo by omega])
  unfold tickSide
  rw [hrun, hpause, bit_congr (f := F.TICK_CTRL_RUN) hctrl, bit_congr (f := F.TICK_CTRL_ALARM_EN) hctrl]
  rfl

@[simp] theorem tickSide_raise (c : Chip) (e : Nat) : tickSide (c.raise e) = tickSide c :=
  tickSide_setReg_array (a := 0x40040000) (by decide) (c.sumNews _) _ _

@[simp] theorem tickSide_sticky (c : Chip) (f : Field) (e : Nat) :
    tickSide (c.sticky f e) = if c.bit f then tickSide c else tickSide (c.setFld f 1) := by
  rw [Chip.sticky, tickSide_ite, tickSide_raise]

@[simp] theorem tickSide_stickyBit (c : Chip) (f : Field) (i e : Nat) :
    tickSide (c.stickyBit f i e) = if c.fbit f i then tickSide c else tickSide (c.setFbit f i) := by
  rw [Chip.stickyBit, tickSide_ite, tickSide_raise]

/-! ### The units' own state -/

@[simp] theorem tickSide_draw (c : Chip) : tickSide c.draw.2 = tickSide c := by rfl
@[simp] theorem tickSide_setCore (c : Chip) (k : Nat) (v : Core) : tickSide (c.setCore k v) = tickSide c := by rfl
@[simp] theorem tickSide_modCore (c : Chip) (k : Nat) (f : Core → Core) : tickSide (c.modCore k f) = tickSide c := by rfl
@[simp] theorem tickSide_setAux (c : Chip) (k : Nat) (v : Aux) : tickSide (c.setAux k v) = tickSide c := by rfl
@[simp] theorem tickSide_modAux (c : Chip) (k : Nat) (f : Aux → Aux) : tickSide (c.modAux k f) = tickSide c := by rfl
@[simp] theorem tickSide_modClk (c : Chip) (f : Clk → Clk) : tickSide (c.modClk f) = tickSide c := by rfl
@[simp] theorem tickSide_modTlk (c : Chip) (f : Tlk → Tlk) : tickSide (c.modTlk f) = tickSide c := by rfl
@[simp] theorem tickSide_modRtr (c : Chip) (f : Rtr → Rtr) : tickSide (c.modRtr f) = tickSide c := by rfl
@[simp] theorem tickSide_modSense (c : Chip) (f : Sense → Sense) : tickSide (c.modSense f) = tickSide c := by rfl
@[simp] theorem tickSide_modSpare (c : Chip) (f : Spare → Spare) : tickSide (c.modSpare f) = tickSide c := by rfl
@[simp] theorem tickSide_modUsb (c : Chip) (f : Usb → Usb) : tickSide (c.modUsb f) = tickSide c := by rfl
@[simp] theorem tickSide_setSap (c : Chip) (k : Nat) (v : Sap) : tickSide (c.setSap k v) = tickSide c := by rfl
@[simp] theorem tickSide_modSap (c : Chip) (k : Nat) (f : Sap → Sap) : tickSide (c.modSap k f) = tickSide c := by rfl
@[simp] theorem tickSide_setAsrc (c : Chip) (k : Nat) (v : AsrcRamp) : tickSide (c.setAsrc k v) = tickSide c := by rfl
@[simp] theorem tickSide_modAct (c : Chip) (k : Nat) (f : ActCh → ActCh) : tickSide (c.modAct k f) = tickSide c := by rfl
@[simp] theorem tickSide_setStream (c : Chip) (k : Nat) (v : Stream) : tickSide (c.setStream k v) = tickSide c := by rfl
@[simp] theorem tickSide_modStream (c : Chip) (k : Nat) (f : Stream → Stream) :
    tickSide (c.modStream k f) = tickSide c := by rfl
@[simp] theorem tickSide_setGlide (c : Chip) (k : Nat) (v : Glide) : tickSide (c.setGlide k v) = tickSide c := by rfl
@[simp] theorem tickSide_setSlot (c : Chip) (k : Nat) (v : SwapSlot) : tickSide (c.setSlot k v) = tickSide c := by rfl
@[simp] theorem tickSide_clearDirty (c : Chip) (l : Nat) : tickSide (c.clearDirty l) = tickSide c := by rfl
@[simp] theorem tickSide_setFlash (c : Chip) (a : Nat) (b : Byte) : tickSide (c.setFlash a b) = tickSide c := by rfl
@[simp] theorem tickSide_setByte (c : Chip) (a : Nat) (b : Byte) : tickSide (c.setByte a b) = tickSide c := by rfl
@[simp] theorem tickSide_setEcc (c : Chip) (a n : Nat) : tickSide (c.setEcc a n) = tickSide c := by rfl
@[simp] theorem tickSide_lose (c : Chip) (n : Nat) : tickSide (c.lose n) = tickSide c := by rfl
@[simp] theorem tickSide_tagWords (c : Chip) (p first n : Nat) : tickSide (c.tagWords p first n) = tickSide c := by rfl

/-! ### Memory -/

@[simp] theorem tickSide_setRaw (c : Chip) (a : Nat) (w : Word) : tickSide (c.setRaw a w) = tickSide c := by
  simp [Chip.setRaw]

@[simp] theorem tickSide_untag (c : Chip) (a : Nat) : tickSide (c.untag a) = tickSide c := by
  rw [Chip.untag, tickSide_when]
  exact ite_self _

@[simp] theorem tickSide_breakSeal (c : Chip) (a : Nat) : tickSide (c.breakSeal a) = tickSide c := by
  simp [Chip.breakSeal, F.SEC_REC_CTRL_VALID, Reg.SEC_REC_CTRL]

@[simp] theorem tickSide_poke (c : Chip) (a mask : Nat) (v : Word) : tickSide (c.poke a mask v) = tickSide c := by
  simp [Chip.poke]

@[simp] theorem tickSide_pokeW (c : Chip) (a : Nat) (v : Word) :
    tickSide (c.pokeW a v) = tickSide c := tickSide_poke c a 15 v

end Sys2Proof.Proofs
end

section
/-! The tick generator beside the ports, the analogue side, the clocks, the link, the router and the meters. -/

namespace Sys2Proof.Proofs

open Sys2Proof Sys2Proof.Machine

/-! ### Serial ports, sample-rate conversion and USB (spec/10, spec/13) -/

@[simp] theorem tickSide_asrcRamping (c : Chip) (g : Nat) : tickSide (c.asrcRamping g) = tickSide c := by
  unfold Chip.asrcRamping F.ASRC_GSTATUS_RAMPING Reg.ASRC_GSTATUS
  simp

@[simp] theorem tickSide_asrcUnsettle (c : Chip) (g i : Nat) : tickSide (c.asrcUnsettle g i) = tickSide c := by
  unfold Chip.asrcUnsettle Chip.asrcFlag F.ASRC_GSTATUS_SETTLED Reg.ASRC_GSTATUS
  simp

@[simp] theorem tickSide_asrcUnsettleAll (c : Chip) : tickSide c.asrcUnsettleAll = tickSide c := by
  unfold Chip.asrcUnsettleAll
  simp

@[simp] theorem tickSide_asrcPortLost (c : Chip) (k : Nat) : tickSide (c.asrcPortLost k) = tickSide c := by
  unfold Chip.asrcPortLost
  simp

@[simp] theorem tickSide_sapRemeasure (c : Chip) (k : Nat) : tickSide (c.sapRemeasure k) = tickSide c := by
  unfold Chip.sapRemeasure F.SAP_STATUS_MUTED F.SAP_STATUS_RUNNING Reg.SAP_STATUS
  simp

@[simp] theorem tickSide_sapOff (c : Chip) (k : Nat) : tickSide (c.sapOff k) = tickSide c := by
  unfold Chip.sapOff F.SAP_STATUS_RUNNING F.SAP_STATUS_MUTED F.SAP_STATUS_SUBST_ACT Reg.SAP_STATUS
  simp

@[simp] theorem tickSide_sapFlag (c : Chip) (k i : Nat) : tickSide (c.sapFlag k i) = tickSide c := by
  unfold Chip.sapFlag Reg.SAP_STATUS
  simp

@[simp] theorem tickSide_sapNewFmt (c : Chip) (k : Nat) : tickSide (c.sapNewFmt k) = tickSide c := by
  unfold Chip.sapNewFmt Reg.SAP_FMT
  simp

@[simp] theorem tickSide_portsCadence (c : Chip) : tickSide c.portsCadence = tickSide c := by
  unfold Chip.portsCadence
  simp

@[simp] theorem tickSide_portsPause (c : Chip) : tickSide c.portsPause = tickSide c := by
  unfold Chip.portsPause F.SAP_STATUS_RUNNING F.MCLK_CTRL_RUNNING F.WCLK_CTRL_RUNNING Reg.SAP_STATUS Reg.MCLK_CTRL
    Reg.WCLK_CTRL
  simp

@[simp] theorem tickSide_sapLive (c : Chip) (k : Nat) (w : List Word) : tickSide (c.sapLive k w) = tickSide c := by rfl

@[simp] theorem tickSide_sapSubst (c : Chip) (k : Nat) : tickSide (c.sapSubst k) = tickSide c := by rfl

@[simp] theorem tickSide_rateCheck (c : Chip) : tickSide c.rateCheck = tickSide c := by
  unfold Chip.rateCheck F.USB_STATUS_RATE Reg.USB_STATUS
  simp

@[simp] theorem tickSide_usbCadence (c : Chip) : tickSide c.usbCadence = tickSide c := by
  unfold Chip.usbCadence
  simp

@[simp] theorem tickSide_usbTake (c : Chip) : tickSide c.usbTake = tickSide c := by
  unfold Chip.usbTake F.USB_STATUS_UNDERRUN F.USB_AS_CNT_UNDER_CNT Reg.USB_STATUS Reg.USB_AS_CNT
  split
  · split <;> simp
  · simp

/-! ### Sense (spec/14) -/

@[simp] theorem tickSide_setPoint (c : Chip) (p : Nat) (x : SPoint) : tickSide (c.setPoint p x) = tickSide c := by
  unfold Chip.setPoint Reg.SENSE_PT_STAT
  simp

@[simp] theorem tickSide_allPoints (c : Chip) (f : Nat → SPoint → SPoint) : tickSide (c.allPoints f) = tickSide c := by
  unfold Chip.allPoints
  simp

@[simp] theorem tickSide_senseHush (c : Chip) : tickSide c.senseHush = tickSide c := by
  unfold Chip.senseHush
  simp

@[simp] theorem tickSide_senseStart (c : Chip) : tickSide c.senseStart = tickSide c := by
  unfold Chip.senseStart F.SENSE_STATUS_RUNNING Reg.SENSE_STATUS
  simp

/-! ### Actuators (spec/15) -/

@[simp] theorem tickSide_actOff (c : Chip) (k : Nat) : tickSide (c.actOff k) = tickSide c := by
  unfold Chip.actOff F.ACT_OUT_DUTY F.ACT_OUT_DIR F.ACT_OUT_OFF Reg.ACT_OUT
  simp

@[simp] theorem tickSide_actTrip (c : Chip) (k cause : Nat) : tickSide (c.actTrip k cause) = tickSide c := by
  unfold Chip.actTrip Chip.causeOf F.ACT_TRIP_TRIP Reg.ACT_TRIP Reg.ACT_CAUSE
  simp

@[simp] theorem tickSide_csCheck (c : Chip) : tickSide c.csCheck = tickSide c := by
  unfold Chip.csCheck
  simp

@[simp] theorem tickSide_actBegin (c : Chip) (k : Nat) : tickSide (c.actBegin k) = tickSide c := by
  unfold Chip.actBegin F.ACT_OUT_DUTY F.ACT_OUT_DIR F.ACT_OUT_OFF Reg.ACT_OUT
  simp

@[simp] theorem tickSide_actEdge (c : Chip) : tickSide c.actEdge = tickSide c := by
  unfold Chip.actEdge
  simp

@[simp] theorem tickSide_actHalt (c : Chip) : tickSide c.actHalt = tickSide c := by
  unfold Chip.actHalt
  simp

@[simp] theorem tickSide_senseStop (c : Chip) (pause : Bool) : tickSide (c.senseStop pause) = tickSide c := by
  unfold Chip.senseStop F.SENSE_STATUS_RUNNING F.SENSE_STATUS_READY Reg.SENSE_STATUS
  simp

@[simp] theorem tickSide_senseTick (c : Chip) : tickSide c.senseTick = tickSide c := by
  unfold Chip.senseTick F.SENSE_STATUS_READY Reg.SENSE_STATUS
  dsimp only
  split
  · rfl
  · rw [tickSide_ite, tickSide_allPoints, ite_self]
    split
    · simp
    · split <;> simp

/-! ### Tandem link (spec/08) -/

@[simp] theorem tickSide_tlkEvt (c : Chip) (k : Nat) : tickSide (c.tlkEvt k) = tickSide c := by
  unfold Chip.tlkEvt F.TLK_EVT_EVT Reg.TLK_EVT
  simp

@[simp] theorem tickSide_setTlkState (c : Chip) (v : Nat) : tickSide (c.setTlkState v) = tickSide c := by
  unfold Chip.setTlkState F.TLK_STATUS_STATE Reg.TLK_STATUS
  simp

@[simp] theorem tickSide_rejoinAbort (c : Chip) (reason : Nat) : tickSide (c.rejoinAbort reason) = tickSide c := by
  unfold Chip.rejoinAbort F.TLK_REJOIN_STATUS_PHASE F.TLK_REJOIN_STATUS_REASON F.TLK_REJOIN_STATUS_ABORTED
    Reg.TLK_REJOIN_STATUS
  simp

@[simp] theorem tickSide_diverged (c : Chip) (m : Nat) : tickSide (c.diverged m) = tickSide c := by
  unfold Chip.diverged F.TLK_DIV_CNT_COUNT F.TLK_STATUS_ARMED Reg.TLK_DIV_CNT Reg.TLK_STATUS Reg.TLK_DIV_TICK_LO
  simp

@[simp] theorem tickSide_digestCompare (c : Chip) : tickSide c.digestCompare = tickSide c := by
  unfold Chip.digestCompare Reg.TLK_DIGEST_OWN Reg.TLK_DIGEST_PART
  dsimp only
  split
  · rfl
  · split
    · split
      · rfl
      · split <;> simp
    · rfl

@[simp] theorem tickSide_qdepth (c : Chip) : tickSide c.qdepth = tickSide c := by
  unfold Chip.qdepth F.TLK_LDG_CMD_QDEPTH Reg.TLK_LDG_CMD
  simp

@[simp] theorem tickSide_tokenRelease (c : Chip) : tickSide c.tokenRelease = tickSide c := by
  unfold Chip.tokenRelease F.TLK_STATUS_TOKEN F.TLK_STATUS_LEADER F.TLK_STATUS_ARMED Reg.TLK_STATUS
  simp

/-! ### Clocks and tracking (spec/11) -/

@[simp] theorem tickSide_setC (c : Chip) (v : Int) : tickSide (c.setC v) = tickSide c := by
  unfold Chip.setC F.TRK_CVAL_C Reg.TRK_CVAL Reg.AUD_FRAC Reg.SYS_FRAC
  simp

@[simp] theorem tickSide_setTrk (c : Chip) (v : Nat) : tickSide (c.setTrk v) = tickSide c := by
  unfold Chip.setTrk F.TRK_STATUS_STATE Reg.TRK_STATUS
  simp

@[simp] theorem tickSide_gateSlaved (c : Chip) : tickSide c.gateSlaved = tickSide c := by
  unfold Chip.gateSlaved F.TRK_STATUS_GATED F.WCLK_CTRL_RUNNING F.MCLK_CTRL_RUNNING Reg.TRK_STATUS Reg.WCLK_CTRL
    Reg.MCLK_CTRL
  simp

@[simp] theorem tickSide_trkLoss (c : Chip) (why : Nat) : tickSide (c.trkLoss why) = tickSide c := by
  unfold Chip.trkLoss F.TRK_CVAL_C_HOLD F.TRK_STATUS_LOSS F.TRK_STATUS_FREEWHEEL Reg.TRK_CVAL Reg.TRK_STATUS
  simp

@[simp] theorem tickSide_freewheel (c : Chip) : tickSide c.freewheel = tickSide c := by
  unfold Chip.freewheel
  simp

@[simp] theorem tickSide_tokenTake (c : Chip) : tickSide c.tokenTake = tickSide c := by
  unfold Chip.tokenTake F.TLK_STATUS_TOKEN F.TLK_STATUS_ARMED F.TLK_STATUS_LEADER Reg.TLK_STATUS
  simp

@[simp] theorem tickSide_tokenCycle0 (c : Chip) (driveIn : Bool) : tickSide (c.tokenCycle0 driveIn) = tickSide c := by
  unfold Chip.tokenCycle0 F.TLK_STATUS_DRIVE_IN Reg.TLK_STATUS
  simp

@[simp] theorem tickSide_cDecay (c : Chip) : tickSide c.cDecay = tickSide c := by
  unfold Chip.cDecay
  simp

@[simp] theorem tickSide_slewComplete (c : Chip) : tickSide c.slewComplete = tickSide c := by
  unfold Chip.slewComplete
  simp

@[simp] theorem tickSide_trkSnap (c : Chip) : tickSide c.trkSnap = tickSide c := by
  unfold Chip.trkSnap F.TRK_STATUS_SNAPPED F.TRK_STATUS_PERR F.WCLK_CTRL_RUNNING F.MCLK_CTRL_RUNNING Reg.TRK_STATUS
    Reg.WCLK_CTRL Reg.MCLK_CTRL
  simp

@[simp] theorem tickSide_outputsStart (c : Chip) : tickSide c.outputsStart = tickSide c := by
  unfold Chip.outputsStart F.WCLK_CTRL_RUNNING F.MCLK_CTRL_RUNNING Reg.WCLK_CTRL Reg.MCLK_CTRL
  simp

@[simp] theorem tickSide_trkTick (c : Chip) : tickSide c.trkTick = tickSide c := by
  unfold Chip.trkTick F.TRK_STATUS_PERR Reg.TRK_STATUS
  split <;> simp

/-! ### Phase 0 of the ports and the sources (spec/10) -/

@[simp] theorem tickSide_sapPhase0 (c : Chip) (k : Nat) : tickSide (c.sapPhase0 k) = tickSide c := by
  unfold Chip.sapPhase0 F.SAP_CNT_SLIP_IN_CNT F.SAP_STATUS_RUNNING F.SAP_STATUS_SUBST_ACT Reg.SAP_CNT Reg.SAP_STATUS
  dsimp only
  rw [tickSide_setFld, tickSide_setReg_array (by decide)]
  split
  · split
    · rfl
    · split
      · rfl
      · split <;> simp
  · rfl
  · rfl
  · rfl
  · split <;> simp
  · simp
  · rfl

@[simp] theorem tickSide_portsPhase0 (c : Chip) : tickSide c.portsPhase0 = tickSide c := by
  unfold Chip.portsPhase0
  simp

@[simp] theorem tickSide_asrcSample (c : Chip) (ch : Nat) : tickSide (c.asrcSample ch).2 = tickSide c := by
  unfold Chip.asrcSample
  dsimp only
  split <;> rfl

@[simp] theorem tickSide_asrcNext (c : Chip) (ch : Nat) : tickSide (c.asrcNext ch) = tickSide c := by
  unfold Chip.asrcNext
  split <;> rfl

/-- A run over a list that carries words beside the block. -/
theorem tickSide_foldl_fst {α β : Type} {f : Chip × β → α → Chip × β} (h : ∀ p a, tickSide (f p a).1 = tickSide p.1)
    (l : List α) (p : Chip × β) : tickSide (l.foldl f p).1 = tickSide p.1 := by
  induction l generalizing p with
  | nil => rfl
  | cons a l ih => rw [List.foldl_cons, ih, h]

@[simp] theorem tickSide_asrcTick (c : Chip) : tickSide c.asrcTick.1 = tickSide c := by
  unfold Chip.asrcTick
  dsimp only
  rw [tickSide_foldl tickSide_asrcRamping, tickSide_foldl_fst]
  intro p ch
  rw [tickSide_asrcNext]
  split
  · exact tickSide_asrcSample p.1 ch
  · rfl

@[simp] theorem tickSide_latchSources (c : Chip) : tickSide c.latchSources = tickSide c := by
  unfold Chip.latchSources
  dsimp only
  split <;> simp

/-! ### Router and meters (spec/12) -/

@[simp] theorem tickSide_rtrCapture (c : Chip) (n : Nat) (law : Bool) : tickSide (c.rtrCapture n law) = tickSide c := by
  unfold Chip.rtrCapture F.RTR_COMMIT_PENDING Reg.RTR_COMMIT
  simp

@[simp] theorem tickSide_rtrCycle0 (c : Chip) : tickSide c.rtrCycle0 = tickSide c := by
  unfold Chip.rtrCycle0 F.RTR_STATUS_LATE F.RTR_STATUS_STEP F.RTR_STATUS_FADING F.RTR_STATUS_DONE Reg.RTR_STATUS
  simp
  split <;> simp

@[simp] theorem tickSide_meterTake (c : Chip) (k : Nat) (x : Int) : tickSide (c.meterTake k x) = tickSide c := by
  unfold Chip.meterTake F.MTR_PEAK_PEAK Reg.MTR_PEAK Reg.MTR_MS Reg.MTR_OVER Reg.SIL_STATE Reg.SIL_CHG
  simp

@[simp] theorem tickSide_meterSources (c : Chip) (l : List Nat) (p : Nat → Bool) :
    tickSide (c.meterSources l p) = tickSide c := by
  unfold Chip.meterSources
  simp

@[simp] theorem tickSide_mixed (c : Chip) (sum : Int) : tickSide (c.mixed sum).2 = tickSide c := by
  unfold Chip.mixed F.RTR_STATUS_CLIP F.RTR_STATUS_CLIP_CNT Reg.RTR_STATUS
  simp

@[simp] theorem tickSide_meterSinks (c : Chip) (l : List Nat) (post : Bool) (code : Nat) (x : Int) :
    tickSide (c.meterSinks l post code x) = tickSide c := by
  unfold Chip.meterSinks
  simp

@[simp] theorem tickSide_passA (c : Chip) : tickSide c.passA = tickSide c := by
  unfold Chip.passA
  simp

end Sys2Proof.Proofs
end

section
/-! The tick generator beside the streams, the engines and the panels, and at the end of every command. -/

namespace Sys2Proof.Proofs

open Sys2Proof Sys2Proof.Machine

/-! ### Streams (spec/16) -/

@[simp] theorem tickSide_strmShift (c : Chip) (s : Nat) : tickSide (c.strmShift s) = tickSide c := by rfl

@[simp] theorem tickSide_strmPlace (c : Chip) (s : Nat) : tickSide (c.strmPlace s) = tickSide c := by
  unfold Chip.strmPlace F.STRM_STATUS_OFFCLAMP Reg.STRM_STATUS
  simp

@[simp] theorem tickSide_strmMiss (c : Chip) (s : Nat) : tickSide (c.strmMiss s) = tickSide c := by
  unfold Chip.strmMiss F.STRM_MISS_TOTAL_COUNT F.STRM_STATUS_MISS Reg.STRM_MISS_TOTAL Reg.STRM_STATUS Reg.STRM_LAST_MISS
  simp

@[simp] theorem tickSide_strmCheck (c : Chip) (s : Nat) : tickSide (c.strmCheck s) = tickSide c := by
  unfold Chip.strmCheck
  simp

@[simp] theorem tickSide_strmHead (c : Chip) (s : Nat) : tickSide (c.strmHead s) = tickSide c := by
  unfold Chip.strmHead F.STRM_STATUS_WR_OVR Reg.STRM_STATUS
  dsimp only
  split
  · rw [tickSide_ite, tickSide_sticky, tickSide_setFld, tickSide_setReg (by decide) (by decide), ite_self]
    exact ite_self _
  · rfl

@[simp] theorem tickSide_strmPhase0 (c : Chip) : tickSide c.strmPhase0 = tickSide c := by
  unfold Chip.strmPhase0
  simp

/-! ### Engines, the spare and the panels (spec/04 to spec/07) -/

@[simp] theorem tickSide_setEngState (c : Chip) (p v : Nat) : tickSide (c.setEngState p v) = tickSide c := by
  unfold Chip.setEngState F.ENG_STATUS_STATE Reg.ENG_STATUS
  simp

@[simp] theorem tickSide_setPhys (c : Chip) (l p : Nat) : tickSide (c.setPhys l p) = tickSide c := by
  unfold Chip.setPhys Reg.ENG_MAP_LO Reg.ENG_MAP_HI
  simp

@[simp] theorem tickSide_leaveTick (c : Chip) (p : Nat) : tickSide (c.leaveTick p) = tickSide c := by
  unfold Chip.leaveTick
  simp

@[simp] theorem tickSide_migSwap (c : Chip) : tickSide c.migSwap = tickSide c := by
  unfold Chip.migSwap F.SPARE_CFG_SPARE F.MIG_STATUS_PHASE F.MIG_STATUS_DONE Reg.SPARE_CFG Reg.MIG_STATUS
  split
  · rfl
  · split
    · simp
    · rfl

@[simp] theorem tickSide_applyLength (c : Chip) (p i : Nat) : tickSide (c.applyLength p i) = tickSide c := by
  unfold Chip.applyLength
  dsimp only
  split
  · rfl
  · simp

@[simp] theorem tickSide_applyLengths (c : Chip) (p : Nat) : tickSide (c.applyLengths p) = tickSide c := by
  unfold Chip.applyLengths
  simp

@[simp] theorem tickSide_decrementHeads (c : Chip) (p : Nat) : tickSide (c.decrementHeads p) = tickSide c := by
  unfold Chip.decrementHeads
  simp

@[simp] theorem tickSide_swapEngine (c : Chip) (l : Nat) : tickSide (c.swapEngine l) = tickSide c := by
  unfold Chip.swapEngine F.PAN_ROLE_FRONT Reg.PAN_ROLE
  simp

@[simp] theorem tickSide_swapRun (c : Chip) (k : Nat) : tickSide (c.swapRun k) = tickSide c := by
  unfold Chip.swapRun F.SWAP_CTRL_ARMED F.SWAP_CTRL_SWAPPED F.SWAP_CTRL_LATE F.SWAP_CTRL_DONE F.PAN_STATUS_CF_BUSY
    Reg.SWAP_CTRL Reg.PAN_STATUS
  simp

@[simp] theorem tickSide_shadowCopy (c : Chip) (p : Nat) : tickSide (c.shadowCopy p) = tickSide c := by
  unfold Chip.shadowCopy
  split <;> rfl

@[simp] theorem tickSide_migShadow (c : Chip) : tickSide c.migShadow = tickSide c := by
  unfold Chip.migShadow F.MIG_STATUS_PHASE F.ENG_CTRL_TICK_EN Reg.MIG_STATUS Reg.ENG_CTRL
  split
  · rfl
  · split
    · simp
    · rfl

theorem tickSide_withTags (c : Chip) (t : List (Nat × Bool)) : tickSide { c with tags := t } = tickSide c := by rfl

@[simp] theorem tickSide_copyEngine (c : Chip) (p q : Nat) : tickSide (c.copyEngine p q) = tickSide c := by
  unfold Chip.copyEngine F.PAN_ROLE_FRONT Reg.PAN_ROLE
  rw [tickSide_ite, tickSide_clrFbit, tickSide_setFbit, tickSide_setFld, tickSide_setReg (by decide) (by decide),
    tickSide_setFld, tickSide_setReg (by decide) (by decide), ite_self]
  refine (tickSide_withTags _ _).trans ?_
  simp

@[simp] theorem tickSide_mirror (c : Chip) : tickSide c.mirror = tickSide c := by
  unfold Chip.mirror
  split
  · rw [tickSide_ite, tickSide_copyEngine, ite_self]
  · rfl

@[simp] theorem tickSide_glideAdopt (c : Chip) (ch : Nat) : tickSide (c.glideAdopt ch) = tickSide c := by
  unfold Chip.glideAdopt
  dsimp only
  split
  · split <;> rfl
  · rfl

@[simp] theorem tickSide_glideWrite (c : Chip) (ch : Nat) : tickSide (c.glideWrite ch) = tickSide c := by
  unfold Chip.glideWrite F.GLD_STATUS_GSLIP Reg.GLD_STATUS
  split
  · rfl
  · simp

@[simp] theorem tickSide_groupsDone (c : Chip) (was : Nat) : tickSide (c.groupsDone was) = tickSide c := by
  unfold Chip.groupsDone F.GLD_STATUS_GRP_DONE Reg.GLD_STATUS
  simp

@[simp] theorem tickSide_glidePhase0 (c : Chip) (was : Nat) : tickSide (c.glidePhase0 was) = tickSide c := by
  unfold Chip.glidePhase0
  simp

/-! ### Input relays and holds (spec/02, spec/05) -/

/-- The sense relay into every engine that is on. -/
theorem tickSide_senseRelay (c : Chip) (w : Nat → Word) :
    tickSide ((List.range 10).foldl (fun c p => c.when (c.domOn p) fun c =>
    (List.range 1024).foldl (fun c i => c.pokeW (senseAddr p i) (w i)) c) c) = tickSide c := by
  simp

@[simp] theorem tickSide_relaysIn (c : Chip) : tickSide c.relaysIn = tickSide c := by
  unfold Chip.relaysIn
  dsimp only
  split
  · split
    · rw [tickSide_senseRelay, tickSide_modTlk]
      simp
    · rfl
  · rw [tickSide_senseRelay, tickSide_passA]

@[simp] theorem tickSide_engHold (c : Chip) (p : Nat) : tickSide (c.engHold p) = tickSide c := by
  unfold Chip.engHold
  rw [tickSide_raise, tickSide_setFld_status rfl (by decide) rfl]
  unfold F.TICK_HOLD_HELD Reg.TICK_HOLD
  simp

@[simp] theorem tickSide_checkHold (c : Chip) (p : Nat) : tickSide (c.checkHold p) = tickSide c := by
  unfold Chip.checkHold
  simp

@[simp] theorem tickSide_checkHolds (c : Chip) : tickSide c.checkHolds = tickSide c := by
  exact tickSide_foldl tickSide_checkHold _ c

@[simp] theorem tickSide_joinTick (c : Chip) (p : Nat) : tickSide (c.joinTick p) = tickSide c := by
  unfold Chip.joinTick
  simp

@[simp] theorem tickSide_rehold (c : Chip) : tickSide c.rehold = tickSide c := by
  unfold Chip.rehold F.TICK_HOLD_HELD Reg.TICK_HOLD
  simp

@[simp] theorem tickSide_refreshBudget (c : Chip) : tickSide c.refreshBudget = tickSide c := by
  unfold Chip.refreshBudget F.TICK_BUDGET_BUDGET F.TICK_BUDGET_BUDGET_NEXT F.TICK_PERIOD_PERIOD Reg.TICK_BUDGET
    Reg.TICK_PERIOD
  simp

@[simp] theorem tickSide_cadenceFollow (c0 c : Chip) : tickSide (c0.cadenceFollow c) = tickSide c := by
  unfold Chip.cadenceFollow
  simp

/-! ### What every command ends with -/

@[simp] theorem tickSide_follow (c0 c : Chip) : tickSide (c0.follow c) = tickSide c := by
  unfold Chip.follow
  simp

@[simp] theorem tickSide_loseEngine (c : Chip) (p : Nat) : tickSide (c.loseEngine p) = tickSide c := by
  unfold Chip.loseEngine
  simp

@[simp] theorem tickSide_migFail (c : Chip) (reason : Nat) : tickSide (c.migFail reason) = tickSide c := by
  unfold Chip.migFail F.MIG_STATUS_ABORTED F.MIG_STATUS_REASON Reg.MIG_STATUS
  simp

@[simp] theorem tickSide_migAbort (c : Chip) (reason : Nat) : tickSide (c.migAbort reason) = tickSide c := by
  unfold Chip.migAbort F.MIG_STATUS_PHASE Reg.MIG_STATUS
  split
  · rfl
  · simp

@[simp] theorem tickSide_migCheck (c : Chip) : tickSide c.migCheck = tickSide c := by
  unfold Chip.migCheck
  split
  · rfl
  · simp

theorem tickSide_withPmu (c : Chip) (x : Pmu) : tickSide { c with pmu := x } = tickSide c := by rfl

@[simp] theorem tickSide_wakeAsk (c : Chip) (doms banks : Nat) : tickSide (c.wakeAsk doms banks) = tickSide c := by
  unfold Chip.wakeAsk F.PMU_STATUS_BUSY Reg.PMU_STATUS
  dsimp only
  split
  · rfl
  · refine (tickSide_withPmu _ _).trans ?_
    simp

@[simp] theorem tickSide_entryAbort (c : Chip) : tickSide c.entryAbort = tickSide c := by
  unfold Chip.entryAbort F.PMU_STATUS_ENTRY_ABORT F.PMU_STATUS_PREP F.PMU_STATUS_BUSY F.PMU_STATUS_LPMODE
    Reg.PMU_STATUS
  rw [tickSide_wakeAsk]
  refine (tickSide_withPmu _ _).trans ?_
  simp

@[simp] theorem tickSide_wakeFrom (c : Chip) (src doms banks : Nat) (level : Bool) (at_ : WakeAt) :
    tickSide (c.wakeFrom src doms banks level at_) = tickSide c := by
  unfold Chip.wakeFrom F.PMU_WAKE_SRC_SRC F.PMU_STATUS_EDGE_LOST Reg.PMU_WAKE_SRC Reg.PMU_STATUS
  simp

@[simp] theorem tickSide_mbWakeTake (c : Chip) : tickSide c.mbWakeTake = tickSide c := by
  unfold Chip.mbWakeTake
  split
  · rfl
  · exact tickSide_wakeFrom c _ _ _ _ _

@[simp] theorem tickSide_fuseLoad (c : Chip) (o : Otp) (mask : Nat) : tickSide (c.fuseLoad o mask) = tickSide c := by
  unfold Chip.fuseLoad Chip.lower F.PROT_FUSE_LIM_CEIL F.PROT_FUSE_DC_CEIL F.PROT_LIM_CEIL F.PROT_DC_THR
    F.ACT_FUSE_A_DUTY_CEIL F.ACT_FUSE_A_ILIM_CEIL F.ACT_FUSE_B_EMAX_CEIL F.ACT_FUSE_C_LEAK_CEIL F.ACT_LIM_DUTY_MAX
    F.ACT_CS_ILIM F.ACT_EMAX_EMAX F.ACT_LIM_LEAK F.ID_LIFECYCLE_STATE Reg.PROT_FUSE Reg.PROT_LIM Reg.PROT_DC
    Reg.ACT_FUSE_A Reg.ACT_FUSE_B Reg.ACT_FUSE_C Reg.ACT_LIM Reg.ACT_CS Reg.ACT_EMAX Reg.ID_LIFECYCLE Reg.FUSE_STATE
    Reg.FUSE_SLOT
  simp

@[simp] theorem tickSide_fuseSettle (c : Chip) (o : Otp) : tickSide (c.fuseSettle o) = tickSide c := by
  unfold Chip.fuseSettle
  split
  · rfl
  · exact tickSide_fuseLoad c o _

@[simp] theorem tickSide_conclude (c0 c : Chip) (o : Otp) : tickSide (c0.conclude c o) = tickSide c := by
  simp [Chip.conclude]

theorem tickSide_cut (o : Otp) (c0 c : Chip) : tickSide (o.cut c0 c).2 = tickSide c := by
  unfold Otp.cut
  split <;> rfl

theorem tickSide_ospiCut (c0 c : Chip) : tickSide (c0.ospiCut c) = tickSide c := by
  unfold Chip.ospiCut
  split
  · simp
  · rfl

/-- What every command ends with leaves the tick generator alone. -/
theorem tickSide_concluded (s t : State) : tickSide (concluded s t).chip = tickSide t.chip := by
  unfold concluded
  rw [tickSide_conclude, tickSide_cut, tickSide_ospiCut]

end Sys2Proof.Proofs
end

section
/-! The phases of a tick (spec/02): how far phase 0 has come, the STC and RUNNING, through the four steps of phase 0, and
the end of the tick. -/

namespace Sys2Proof.Proofs

open Sys2Proof Sys2Proof.Machine

/-! ### Where in the tick the generator is -/

/-- The phase and how far phase 0 has come, the STC and its pending load, RUNNING, and the state of the fuse and security
block. -/
structure Place where
  phase : Phase
  stage : Nat
  stc : BitVec 64
  load : Option (BitVec 64)
  running : Bool
  sec : Sec

def place (c : Chip) : Place :=
  ⟨c.tick.phase, c.tick.stage, c.tick.stc, c.tick.load, c.bit F.TICK_STATUS_RUNNING, c.sec⟩

/-- The place is part of what the units leave alone. -/
theorem place_of_tickSide {c d : Chip} (h : tickSide d = tickSide c) : place d = place c :=
  congrArg (fun t : TickSide => (⟨t.tick.phase, t.tick.stage, t.tick.stc, t.tick.load, t.running, t.sec⟩ : Place)) h

theorem place_when (c : Chip) (b : Bool) (f : Chip → Chip) : place (c.when b f) = if b then place (f c) else place c :=
  apply_ite place _ _ _

/-- A field apart from RUNNING. -/
theorem place_setFld {f : Field} (hok : f.ok = true) (hap : f.apart F.TICK_STATUS_RUNNING = true) (c : Chip) (v : Nat) :
    place (c.setFld f v) = place c := by
  unfold place
  rw [Chip.bit_setFld_other c f _ v hok (by decide) hap]
  rfl

theorem place_setRunning (c : Chip) (v : Nat) :
    place (c.setFld F.TICK_STATUS_RUNNING v) = { place c with running := v % 2 == 1 } := by
  unfold place
  rw [Chip.bit, Chip.fld_setFld_same _ _ _ (by decide)]
  simp [F.TICK_STATUS_RUNNING]

theorem place_modTick (c : Chip) (f : Tick → Tick) : place (c.modTick f) =
    { place c with phase := (f c.tick).phase, stage := (f c.tick).stage, stc := (f c.tick).stc, load := (f c.tick).load } := by
  rfl

/-- Tick state beside the place. -/
theorem place_modTick_beside (c : Chip) {f : Tick → Tick}
    (h : (f c.tick).phase = c.tick.phase ∧ (f c.tick).stage = c.tick.stage ∧ (f c.tick).stc = c.tick.stc ∧
      (f c.tick).load = c.tick.load) : place (c.modTick f) = place c := by
  obtain ⟨hphase, hstage, hstc, hload⟩ := h
  rw [place_modTick, hphase, hstage, hstc, hload]
  rfl

theorem place_raise (c : Chip) (e : Nat) : place (c.raise e) = place c := place_of_tickSide (tickSide_raise c e)

/-! ### The changes due in cycle 0 -/

theorem place_alarmCheck (c : Chip) : place c.alarmCheck = place c := by
  unfold Chip.alarmCheck
  split
  · rw [place_when, place_setFld (by decide) (by decide), ite_self, place_raise, place_setFld (by decide) (by decide)]
  · rfl

theorem place_chgLate (c : Chip) : place c.chgLate = place c := by
  rw [Chip.chgLate, place_raise, place_setFld (by decide) (by decide)]

theorem place_cadenceTake (c : Chip) (code : Nat) : place (c.cadenceTake code) = place c := by
  rw [Chip.cadenceTake, place_modTick_beside _ ⟨rfl, rfl, rfl, rfl⟩, place_setFld (by decide) (by decide),
    place_setFld (by decide) (by decide)]

theorem place_eclkTake (c : Chip) (code : Nat) : place (c.eclkTake code) = place c := by
  rw [Chip.eclkTake, place_modTick_beside _ ⟨rfl, rfl, rfl, rfl⟩, place_setFld (by decide) (by decide),
    place_setFld (by decide) (by decide)]

theorem place_changesDue (c : Chip) : place c.changesDue = place c := by
  unfold Chip.changesDue
  extract_lets c1 c2 c3 changed
  have h1 : place c1 = place c := by
    unfold c1
    split
    · rw [place_modTick_beside _ ⟨rfl, rfl, rfl, rfl⟩, place_setFld (by decide) (by decide),
        place_setFld (by decide) (by decide)]
    · rfl
  have h2 : place c2 = place c1 := by
    unfold c2
    split
    · split
      · rw [place_when, place_chgLate, place_cadenceTake, ite_self]
      · rfl
    · rfl
  have h3 : place c3 = place c2 := by
    unfold c3
    split
    · split
      · rw [place_when, place_chgLate, place_eclkTake, ite_self]
      · rfl
    · rfl
  rw [place_when, place_of_tickSide (tickSide_checkHolds _), place_of_tickSide (tickSide_refreshBudget _), ite_self, h3, h2, h1]

/-! ### The four steps of phase 0 -/

theorem place_stcStep (c : Chip) :
    place c.stcStep = { place c with stc := c.tick.load.getD (c.tick.stc + 1), load := none } := by
  unfold Chip.stcStep
  dsimp only
  rw [place_modTick]
  cases c.tick.load <;> rfl

/-- A step of phase 0 that ends at stage `n`. -/
theorem place_modTick_stage (c : Chip) {f : Tick → Tick} {n : Nat} (h : (f c.tick).phase = c.tick.phase ∧ (f c.tick).stage = n ∧
    (f c.tick).stc = c.tick.stc ∧ (f c.tick).load = c.tick.load) : place (c.modTick f) = { place c with stage := n } := by
  obtain ⟨hphase, hstage, hstc, hload⟩ := h
  rw [place_modTick, hphase, hstage, hstc, hload]
  rfl

theorem place_setSpare (c : Chip) (x : Spare) : place { c with spare := x } = place c := by rfl

/-- Cycle 0 begins the tick with the next STC or the pending load (R41, R43); what else happens in it leaves that place. -/
theorem place_cycle0 {c : Chip} (hcatch : c.catching = false) (deferred driveIn : Bool) :
    place (c.cycle0 deferred driveIn) = ⟨.p0, 1, c.tick.load.getD (c.tick.stc + 1), none, true, c.sec⟩ := by
  unfold Chip.cycle0
  extract_lets c0 skip c1 d c2 c3 c4 c5 c6 mask c7 sp
  have h0 : tickSide (c0.when deferred (·.bump F.TICK_STATUS_DEFER_CNT)) = tickSide c := by
    rw [tickSide_when, tickSide_bump, tickSide_setFld_status rfl (by decide) (by decide), ite_self]
    simp [c0, hcatch]
  have h1 : place c1 = ⟨.p0, 1, c.tick.load.getD (c.tick.stc + 1), none, true, c.sec⟩ := by
    have htick := congrArg TickSide.tick h0
    have hsec := congrArg TickSide.sec h0
    dsimp only [tickSide] at htick hsec
    unfold c1
    rw [place_setRunning, place_modTick]
    generalize c0.when deferred (·.bump F.TICK_STATUS_DEFER_CNT) = b at htick hsec ⊢
    have hb := place_stcStep b
    have hstc := congrArg Place.stc hb
    have hload := congrArg Place.load hb
    have hkeep := congrArg Place.sec hb
    dsimp only [place] at hstc hload hkeep ⊢
    rw [hstc, hload, hkeep, htick, hsec]
    rfl
  clear_value c1
  have hd : place d = place c1 := place_modTick_beside c1 ⟨rfl, rfl, rfl, rfl⟩
  clear_value d
  have h2 : place c2 = place d := by
    unfold c2
    rw [place_when, place_of_tickSide (tickSide_modTlk _ _), place_setFld (by decide) (by decide), ite_self]
  clear_value c2
  have h3 : place c3 = place c2 := by
    unfold c3
    rw [place_of_tickSide (tickSide_rehold _), place_of_tickSide (tickSide_cadenceFollow _ _), place_changesDue,
      place_alarmCheck]
  clear_value c3
  have h6 : place c6 = place c3 := place_of_tickSide (by simp [c6, c5, c4])
  clear_value c6 mask
  have h7 : place c7 = place c6 := by
    unfold c7
    rw [place_of_tickSide (tickSide_foldl (fun c p => tickSide_modAux c p _) _ _)]
    exact place_modTick_beside _ ⟨rfl, rfl, rfl, rfl⟩
  clear_value c7
  rw [place_of_tickSide (tickSide_strmPhase0 _), place_of_tickSide (tickSide_latchSources _)]
  exact (place_setSpare c7 _).trans (by rw [h7, h6, h3, h2, hd, h1])

theorem place_cycle1 (c : Chip) : place c.cycle1 = { place c with stage := 2 } := by
  unfold Chip.cycle1
  extract_lets c1
  have h1 : place c1 = place c := place_of_tickSide (by simp [c1])
  clear_value c1
  rw [place_modTick_stage c1 ⟨rfl, rfl, rfl, rfl⟩, h1]

theorem place_swapDue (c : Chip) (k : Nat) : place (c.swapDue k) = place c := by
  unfold Chip.swapDue
  split
  · extract_lets c1
    exact place_of_tickSide (d := c1) (tickSide_swapRun c k)
  · rfl

theorem place_swapsDue (l : List Nat) (c : Chip) : place (l.foldl Chip.swapDue c) = place c := by
  induction l generalizing c with
  | nil => rfl
  | cons k l ih => rw [List.foldl_cons, ih, place_swapDue]

theorem place_cycle2 (c : Chip) : place c.cycle2 = { place c with stage := 3 } := by
  rw [Chip.cycle2, place_modTick_stage _ ⟨rfl, rfl, rfl, rfl⟩, place_swapsDue]

theorem place_cycle3 (c : Chip) : place c.cycle3 = { place c with stage := 0 } := by
  unfold Chip.cycle3
  extract_lets c1 c2 c3 c4
  have h2 : place c2 = place c := place_of_tickSide (by simp [c2, c1])
  clear_value c2
  have h3 : place c3 = place c2 := by
    unfold c3
    rw [place_of_tickSide (tickSide_relaysIn _)]
    exact place_modTick_beside c2 ⟨rfl, rfl, rfl, rfl⟩
  clear_value c3
  have h4 : place c4 = { place c3 with stage := 0 } := by
    unfold c4
    rw [place_modTick_stage _ ⟨rfl, rfl, rfl, rfl⟩, place_of_tickSide (c := c3) (by simp)]
  clear_value c4
  calc place { c4 with tlk := { c4.tlk with sense := [] } } = place c4 := by rfl
    _ = { place c with stage := 0 } := by rw [h4, h3, h2]

/-! ### Phase 0 as a whole -/

theorem stage_of_place {c : Chip} {p : Place} (h : place c = p) : c.tick.phase = p.phase ∧ c.tick.stage = p.stage := by
  rw [← h]
  exact ⟨rfl, rfl⟩

/-- A step of phase 0 whose stage has come runs. -/
theorem when_stage {c : Chip} {n k : Nat} (hphase : c.tick.phase = .p0) (hstage : c.tick.stage = n) (hk : k ≤ 4)
    (f : Chip → Chip) : c.when (c.tick.phase == .p0 && c.tick.stage == n && decide (k ≤ 4)) f = f c := by
  rw [hphase, hstage, beq_self_eq_true, beq_self_eq_true, decide_eq_true hk]
  rfl

/-- Phase 0 from its beginning to its end is its four steps. -/
theorem p0To_begin {c : Chip} (hbegin : c.mayBegin = true) (hcatch : c.catching = false) (deferred driveIn : Bool) :
    c.p0To 4 deferred driveIn = (c.cycle0 deferred driveIn).cycle1.cycle2.cycle3 := by
  have hidle : (c.tick.phase == .idle) = true := by
    simp only [Chip.mayBegin, Bool.and_eq_true] at hbegin
    exact hbegin.1.1.2
  have h1 := place_cycle0 hcatch deferred driveIn
  unfold Chip.p0To
  rw [if_pos hidle, if_pos hbegin]
  generalize c.cycle0 deferred driveIn = a at h1 ⊢
  have h2 := place_cycle1 a
  have h3 := place_cycle2 a.cycle1
  rw [h1] at h2
  rw [h2] at h3
  obtain ⟨hp1, hs1⟩ := stage_of_place h1
  obtain ⟨hp2, hs2⟩ := stage_of_place h2
  obtain ⟨hp3, hs3⟩ := stage_of_place h3
  dsimp only
  rw [when_stage hp1 hs1 (by decide)]
  generalize a.cycle1 = b at hp2 hs2 hp3 hs3 ⊢
  rw [when_stage hp2 hs2 (by decide)]
  generalize b.cycle2 = e at hp3 hs3 ⊢
  rw [when_stage hp3 hs3 (by decide)]

/-- Where phase 0 has come to its end: the STC has gone on and the generator runs. -/
theorem place_p0To_begin {c : Chip} (hbegin : c.mayBegin = true) (hcatch : c.catching = false) (deferred driveIn : Bool) :
    place (c.p0To 4 deferred driveIn) = ⟨.p0, 0, c.tick.load.getD (c.tick.stc + 1), none, true, c.sec⟩ := by
  rw [p0To_begin hbegin hcatch, place_cycle3, place_cycle2, place_cycle1, place_cycle0 hcatch]

/-- Phase 0 that is done stays as it is. -/
theorem p0To_done {c : Chip} (hphase : c.tick.phase = .p0) (hstage : c.tick.stage = 0) (n : Nat) (deferred driveIn : Bool) :
    c.p0To n deferred driveIn = c := by
  simp [Chip.p0To, Chip.when, hphase, hstage]

/-! ### The end of phase 2 -/

/-- No tick is in progress and no engine waits in one. -/
def AtRest (t : Tick) : Prop := t.phase = .idle ∧ t.held = 0

theorem tick_of_tickSide {c d : Chip} (h : tickSide d = tickSide c) : d.tick = c.tick := congrArg TickSide.tick h

theorem when_tick (c : Chip) (b : Bool) (f : Chip → Chip) : (c.when b f).tick = if b then (f c).tick else c.tick :=
  apply_ite Chip.tick _ _ _

/-- A run over a list that keeps the generator at rest. -/
theorem atRest_foldl {α : Type} {f : Chip → α → Chip} (h : ∀ c a, AtRest c.tick → AtRest (f c a).tick) (l : List α) {c : Chip}
    (hc : AtRest c.tick) : AtRest (l.foldl f c).tick := by
  induction l generalizing c with
  | nil => exact hc
  | cons a l ih => exact ih (h c a hc)

/-- A unit that loses its state leaves the generator as it was, or stopped with its STC. -/
theorem atRest_clearUnit {c : Chip} (hc : AtRest c.tick) (d : Nat) (keep : Bool) : AtRest (c.clearUnit d keep).tick := by
  unfold Chip.clearUnit
  split
  · dsimp only
    split
    · exact hc
    · split <;> exact hc
  · split
    case h_6 => exact ⟨rfl, rfl⟩
    all_goals exact hc

theorem setDomState_tick (c : Chip) (d st : Nat) : (c.setDomState d st).tick = c.tick := by
  unfold Chip.setDomState
  split <;> rw [Chip.setFld_tick]

theorem atRest_domDown {c : Chip} (hc : AtRest c.tick) (d st : Nat) : AtRest (c.domDown d st).tick := by
  unfold Chip.domDown
  extract_lets keep was c1 c2 self src c3
  have h1 : c1.tick = c.tick := tick_of_tickSide (by simp [c1])
  have h2 : c2.tick = c1.tick := by
    unfold c2
    rw [when_tick]
    exact ite_self _
  have h3 : c3.tick = c2.tick := by
    unfold c3
    split <;> rfl
  rw [setDomState_tick]
  refine atRest_clearUnit ?_ d keep
  rw [h3, h2, h1]
  exact hc

theorem bankDown_tick (c : Chip) (b st : Nat) : (c.bankDown b st).tick = c.tick := by
  unfold Chip.bankDown Chip.setBankState
  split <;> rw [Chip.setFld_tick, when_tick] <;> exact ite_self _

@[simp] theorem tickSide_wakeLevels (c : Chip) : tickSide c.wakeLevels = tickSide c := by
  unfold Chip.wakeLevels
  simp

theorem sleepIn_tick (c : Chip) : c.sleepIn.tick = c.tick := by
  unfold Chip.sleepIn
  extract_lets c1
  show c1.tick = c.tick
  unfold c1
  rw [Chip.setFld_tick, Chip.setReg64_tick]

/-- A power entry that waited for the end of the tick leaves no tick in progress (R418). -/
theorem atRest_powerEntry {c : Chip} (hc : AtRest c.tick) (p : Chip.Plan) : AtRest (c.powerEntry p).tick := by
  unfold Chip.powerEntry
  extract_lets gone all doms banks c0 c1 down c2 c3 c4
  have h0 : c0.tick = c.tick := by
    unfold c0
    rw [when_tick]
    split
    · show ((c.setFld F.TLK_STATUS_TOKEN 0).tlkEvt 2).tick = c.tick
      rw [tick_of_tickSide (tickSide_tlkEvt _ _), Chip.setFld_tick]
    · rfl
  have h1 : c1.tick = c0.tick := by
    unfold c1
    rw [when_tick, sleepIn_tick, Chip.setFld_tick, ite_self]
  have h2 : AtRest c2.tick := by
    refine atRest_foldl ?_ _ (by rwa [h1, h0])
    intro e x he
    unfold down
    split
    · exact he
    · exact atRest_domDown he x.1 x.2
  have h3 : AtRest c3.tick := by
    refine atRest_foldl ?_ _ h2
    intro e x he
    split
    · exact he
    · rwa [bankDown_tick]
  have h4 : c4.tick = c3.tick := by
    unfold c4
    rw [Chip.setFld_tick, Chip.setFld_tick]
  clear_value c4
  rw [tick_of_tickSide (tickSide_wakeLevels _), tick_of_tickSide (tickSide_csCheck _)]
  show AtRest c4.tick
  rwa [h4]

theorem atRest_powerWaited {c : Chip} (hc : AtRest c.tick) : AtRest c.powerWaited.tick := by
  unfold Chip.powerWaited
  split
  · exact atRest_powerEntry hc _
  · exact hc

theorem atRest_familyPause {c : Chip} (hc : AtRest c.tick) : AtRest c.familyPause.tick := by
  unfold Chip.familyPause
  split
  · rw [tick_of_tickSide (tickSide_refreshBudget _), when_tick]
    simp only [Chip.chgLate, Chip.raise_tick, Chip.setFld_tick, Chip.modTick_tick, ite_self]
    exact hc
  · exact hc

theorem goBack_tick (c : Chip) : c.goBack.tick = c.tick := by
  unfold Chip.goBack
  rw [tick_of_tickSide (tickSide_checkHolds _), Chip.modClk_tick, Chip.sticky]
  split <;> simp only [Chip.raise_tick, Chip.setFld_tick]

/-- The tick's end leaves no tick in progress (R40). -/
theorem atRest_tickEnd (c : Chip) : AtRest c.tickEnd.tick := by
  unfold Chip.tickEnd
  extract_lets c1 c2 c3
  have h2 : AtRest c2.tick := ⟨rfl, rfl⟩
  clear_value c2
  have h3 : AtRest c3.tick := by
    unfold c3
    split
    · rwa [Chip.setFld_tick]
    · split
      · exact atRest_familyPause h2
      · split
        · rwa [Chip.setFld_tick]
        · exact h2
  refine atRest_powerWaited ?_
  rw [when_tick, goBack_tick, Chip.modClk_tick, ite_self]
  exact h3

/-! ### What settles the obligation -/

theorem place_concluded (s t : State) : place (concluded s t).chip = place t.chip :=
  place_of_tickSide (tickSide_concluded s t)

/-- A command that leaves the security block leaves the fuses: no operation of theirs is cut short. -/
theorem concluded_otp {s t : State} (h : t.chip.sec = s.chip.sec) : (concluded s t).otp = t.otp := by
  have hsec : (s.chip.ospiCut t.chip).sec = s.chip.sec := (congrArg TickSide.sec (tickSide_ospiCut s.chip t.chip)).trans h
  unfold concluded
  rw [Otp.cut_id]
  rw [hsec]
  cases s.chip.sec.fuseOp
  · exact .inl rfl
  · exact .inr rfl

/-- PHASE_0 where a tick may begin (R37, R41, R43, R50). -/
theorem phase0_begins (s : State) (deferred driveIn : Bool) (hbegin : s.chip.mayBegin = true) (hcatch : s.chip.catching = false) :
    ∃ t, exec (.phase0 deferred driveIn) s = .next t ∧ t.chip.tick.phase = .p0 ∧ t.chip.tick.stage = 0 ∧
      t.chip.tick.stc = s.chip.tick.load.getD (s.chip.tick.stc + 1) ∧ t.chip.tick.load = none ∧
      t.chip.bit F.TICK_STATUS_RUNNING = true ∧ t.otp = s.otp ∧ t.pending = s.pending := by
  have hplace : place (s.begin_.chip.p0To 4 deferred driveIn) = _ :=
    place_p0To_begin (c := s.begin_.chip) hbegin hcatch deferred driveIn
  generalize hd : s.begin_.chip.p0To 4 deferred driveIn = d at hplace
  refine ⟨concluded s { s with chip := d }, ?_, ?_⟩
  · rw [← hd]
    rfl
  · have hend := (place_concluded s { s with chip := d }).trans hplace
    refine ⟨congrArg Place.phase hend, congrArg Place.stage hend, congrArg Place.stc hend, congrArg Place.load hend,
      congrArg Place.running hend, concluded_otp (congrArg Place.sec hplace), rfl⟩

/-- A command that changes at most the state of the tick generator that no register holds. -/
theorem only_modTick (s : State) (hcalm : s.chip.Calm) (f : Tick → Tick) :
    run (·.modTick f) s = .next { s with chip := s.begin_.chip.modTick f } ∧
      Only [] s { s with chip := s.begin_.chip.modTick f } { s.chip with tick := f s.chip.tick } :=
  ⟨run_calm _ s hcalm (fun _ _ => rfl) rfl, rfl, rfl, fun _ _ => rfl, rfl⟩

/-- A command depends on what it makes of the block it finds. -/
theorem run_congr {f g : Chip → Chip} {s : State} (h : f s.begin_.chip = g s.begin_.chip) : run f s = run g s := by
  unfold run
  rw [h]

/-- PHASE_1 in phase 0 (R39). -/
theorem phase1_starts (s : State) (hcalm : s.chip.Calm) (hphase : s.chip.tick.phase = .p0) :
    ∃ t, exec .phase1 s = .next t ∧ t.chip.tick.phase = .p1 ∧
      (s.chip.tick.stage = 0 → Only [] s t { s.chip with tick := { s.chip.tick with phase := .p1 } }) := by
  by_cases hstage : s.chip.tick.stage = 0
  · obtain ⟨hrun, honly⟩ := only_modTick s hcalm fun x => { x with phase := .p1 }
    refine ⟨_, ?_, rfl, fun _ => honly⟩
    have hd : s.begin_.chip.phase1 = s.begin_.chip.modTick fun x => { x with phase := .p1 } := by
      unfold Chip.phase1
      rw [if_neg (by rw [not_not]; exact hphase), p0To_done (c := s.begin_.chip) hphase hstage]
    exact (run_congr (f := Chip.phase1) hd).trans hrun
  · refine ⟨concluded s { s with chip := s.begin_.chip.phase1 }, rfl, ?_, fun h => absurd h hstage⟩
    have hd : s.begin_.chip.phase1.tick.phase = .p1 := by
      unfold Chip.phase1
      rw [if_neg (by rw [not_not]; exact hphase)]
      rfl
    generalize s.begin_.chip.phase1 = d at hd ⊢
    rw [tick_of_tickSide (tickSide_concluded s _)]
    exact hd

/-- PHASE_2 in phase 1 (R40). -/
theorem phase2_ends (s : State) (hphase : s.chip.tick.phase = .p1) :
    ∃ t, exec .phase2 s = .next t ∧ t.chip.tick.phase = .idle ∧ t.chip.tick.held = 0 ∧ t.pending = s.pending := by
  have hrest : AtRest s.begin_.chip.phase2.tick := by
    unfold Chip.phase2
    rw [if_neg (by rw [not_not]; exact hphase)]
    exact atRest_tickEnd _
  generalize hd : s.begin_.chip.phase2 = d at hrest
  refine ⟨concluded s { s with chip := d }, ?_, ?_⟩
  · rw [← hd]
    rfl
  · have hend : (concluded s { s with chip := d }).chip.tick = d.tick := tick_of_tickSide (tickSide_concluded s _)
    rw [hend]
    exact ⟨hrest.1, hrest.2, rfl⟩

/-- PHASE_1 and PHASE_2 in another place of the tick. -/
theorem phases_elsewhere (s : State) (hcalm : s.chip.Calm) :
    (s.chip.tick.phase ≠ .p0 → ∃ t, exec .phase1 s = .next t ∧ Only [] s t s.chip) ∧
      (s.chip.tick.phase ≠ .p1 → ∃ t, exec .phase2 s = .next t ∧ Only [] s t s.chip) := by
  obtain ⟨hrun, honly⟩ := only_modTick s hcalm id
  refine ⟨fun hphase => ⟨_, ?_, honly⟩, fun hphase => ⟨_, ?_, honly⟩⟩
  · have hd : s.begin_.chip.phase1 = s.begin_.chip.modTick id := by
      unfold Chip.phase1
      exact if_pos hphase
    exact (run_congr (f := Chip.phase1) hd).trans hrun
  · have hd : s.begin_.chip.phase2 = s.begin_.chip.modTick id := by
      unfold Chip.phase2
      exact if_pos hphase
    exact (run_congr (f := Chip.phase2) hd).trans hrun

/-- Settles O4, by the place in the tick at which each step of phase 0 arrives. -/
theorem tickPhases : Obligations.tickPhases :=
  ⟨fun s deferred driveIn _ hbegin hcatch => phase0_begins s deferred driveIn hbegin hcatch, phase1_starts,
    fun s _ hphase => phase2_ends s hphase, phases_elsewhere⟩

end Sys2Proof.Proofs
end

section
/-! Registers and the tick's state alone: the frame of a write, and a master's way to the blocks of the clocks and the tick
generator. -/

namespace Sys2Proof.Proofs

open Sys2Proof Sys2Proof.Machine

/-! ### Registers and the tick's state alone -/

/-- `d` is `c` but for the registers `keys`, the state of the tick generator that no register holds, and the note that the
summary of events has news. -/
def Keeps (keys : List Nat) (c d : Chip) : Prop :=
  (∃ r t b, d = { c with regs := r, tick := t, usb := { c.usb with sumDue := b } }) ∧ ∀ k, k ∉ keys → d.reg k = c.reg k

section
variable {keys : List Nat} {c d e : Chip}

theorem keeps_refl (keys : List Nat) (c : Chip) : Keeps keys c c := ⟨⟨_, _, _, rfl⟩, fun _ _ => rfl⟩

theorem keeps_trans (h : Keeps keys c d) (g : Keeps keys d e) : Keeps keys c e := by
  obtain ⟨⟨_, _, _, rfl⟩, hd⟩ := h
  obtain ⟨⟨_, _, _, rfl⟩, he⟩ := g
  exact ⟨⟨_, _, _, rfl⟩, fun k hk => (he k hk).trans (hd k hk)⟩

theorem keeps_setFld {f : Field} (hf : f.reg ∈ keys) (h : Keeps keys c d) (v : Nat) : Keeps keys c (d.setFld f v) :=
  keeps_trans h ⟨⟨_, _, _, rfl⟩, fun _ hk => Chip.reg_setFld_other _ _ _ fun hc => hk (hc ▸ hf)⟩

theorem keeps_raise {n : Nat} (hn : Reg.EVT_PEND (n / 32) ∈ keys) (h : Keeps keys c d) : Keeps keys c (d.raise n) :=
  keeps_trans h ⟨⟨_, _, _, rfl⟩, fun _ hk => Chip.reg_raise_other _ _ fun hc => hk (hc ▸ hn)⟩

theorem keeps_modTick (h : Keeps keys c d) (f : Tick → Tick) : Keeps keys c (d.modTick f) :=
  keeps_trans h ⟨⟨_, _, _, rfl⟩, fun _ _ => rfl⟩

theorem keeps_ite {p : Prop} {_ : Decidable p} (hd : p → Keeps keys c d) (he : ¬p → Keeps keys c e) :
    Keeps keys c (if p then d else e) := by
  split
  · exact hd ‹p›
  · exact he ‹¬p›

theorem keeps_when {b : Bool} {f : Chip → Chip} (h : Keeps keys c d) (hf : b = true → Keeps keys d (f d)) :
    Keeps keys c (d.when b f) := keeps_ite (fun hb => keeps_trans h (hf hb)) fun _ => h

theorem keeps_foldl {α : Type} {f : Chip → α → Chip} {l : List α} (hf : ∀ d, ∀ a ∈ l, Keeps keys d (f d a))
    (h : Keeps keys c d) : Keeps keys c (l.foldl f d) := by
  induction l generalizing d with
  | nil => exact h
  | cons a l ih =>
    exact ih (fun d x hx => hf d x (List.mem_cons_of_mem a hx)) (keeps_trans h (hf d a List.mem_cons_self))

end

/-- A command that keeps the clocks' state is over with what it does itself, in a calm block. -/
theorem only_of_keeps {keys : List Nat} {s : State} {f : Chip → Chip} (hcalm : s.chip.Calm)
    (h : Keeps keys s.begin_.chip (f s.begin_.chip))
    (hp : (f s.begin_.chip).bit F.TICK_STATUS_PAUSED = true → s.chip.bit F.TICK_STATUS_PAUSED = true)
    (hr : s.chip.bit F.TICK_STATUS_RUNNING = true → (f s.begin_.chip).bit F.TICK_STATUS_RUNNING = true)
    (hs : Reg.CLK_STATUS ∉ keys) :
    run f s = .next { s with chip := f s.begin_.chip } ∧
      Only keys s { s with chip := f s.begin_.chip } { s.chip with tick := (f s.begin_.chip).tick } := by
  unfold run finish
  generalize f s.begin_.chip = d at h hp hr
  obtain ⟨⟨r, t, b, rfl⟩, hreg⟩ := h
  refine ⟨congrArg _ (concluded_calm s _ hcalm hp hr ?_ ?_ ?_), rfl, rfl, hreg, rfl⟩
  · have hclk := bit_congr (f := F.CLK_STATUS_SAFE) (hreg _ hs)
    exact fun hd => hclk.symm.trans hd
  · show _ = none ∨ s.chip.sec.fuseOp.isSome = true
    cases s.chip.sec.fuseOp
    · exact .inl rfl
    · exact .inr rfl
  · show _ = none ∨ s.chip.sec.ospi.isSome = true
    cases s.chip.sec.ospi
    · exact .inl rfl
    · exact .inr rfl

/-- The same where the status of the tick generator is kept whole. -/
theorem only_of_keeps_status {keys : List Nat} {s : State} {f : Chip → Chip} (hcalm : s.chip.Calm)
    (h : Keeps keys s.begin_.chip (f s.begin_.chip)) (ht : Reg.TICK_STATUS ∉ keys) (hs : Reg.CLK_STATUS ∉ keys) :
    run f s = .next { s with chip := f s.begin_.chip } ∧
      Only keys s { s with chip := f s.begin_.chip } { s.chip with tick := (f s.begin_.chip).tick } := by
  have hpause := bit_congr (f := F.TICK_STATUS_PAUSED) (h.2 _ ht)
  have hrun := bit_congr (f := F.TICK_STATUS_RUNNING) (h.2 _ ht)
  exact only_of_keeps hcalm h (fun hd => hpause.symm.trans hd) (fun hd => hrun.trans hd) hs

/-! ### Writes of the blocks of the tick generator and the clocks -/

theorem begin_writes (s : State) (m : Master) (a : Nat) : s.begin_.chip.writes m a = s.chip.writes m a := by
  cases m <;> rfl

/-- A master's write of a register of the tick generator. -/
theorem masterWrite_tick {c : Chip} {m : Master} {a : Nat} (v : Word) (h4 : a % 4 = 0) (hlo : 0x40030000 ≤ a)
    (hhi : a < 0x40040000) (hw : c.writes m a = true) : c.masterWrite m a v = c.writeTick a v := by
  have hput : c.regPut m.id a v = (c.writeTick a v, false) := by
    have hblock : a / 0x10000 - 0x4000 = 3 := by omega
    unfold Chip.regPut
    rw [if_neg (by omega), hblock]
    rfl
  rw [masterWrite_reg c m a v (isReg_peripheral h4 (by omega) (by omega)) hw (by rw [hput]), hput]

/-- A master's write of a register of the clock block. -/
theorem masterWrite_clk {c : Chip} {m : Master} {a : Nat} (v : Word) (h4 : a % 4 = 0) (hlo : 0x40020000 ≤ a)
    (hhi : a < 0x40030000) (hw : c.writes m a = true) : c.masterWrite m a v = c.writeClk a v := by
  have hput : c.regPut m.id a v = (c.writeClk a v, false) := by
    have hblock : a / 0x10000 - 0x4000 = 2 := by omega
    unfold Chip.regPut
    rw [if_neg (by omega), hblock]
    rfl
  rw [masterWrite_reg c m a v (isReg_peripheral h4 (by omega) (by omega)) hw (by rw [hput]), hput]

/-- A row that writes a field of TICK_CTRL. -/
theorem writeWith_tickCtrl {c : Chip} {m : Master} {f : Field} (hf : f.reg = Reg.TICK_CTRL) (x : Nat) (v : Word)
    (hw : c.writes m Reg.TICK_CTRL = true) : c.writeWith m f x v = c.writeTickCtrl (f.put v x).toNat := by
  unfold Chip.writeWith
  rw [hf, masterWrite_tick _ (by decide) (by decide) (by decide) hw]
  exact if_pos rfl

end Sys2Proof.Proofs
end

section
/-! TICK_CTRL, STC_LO and TICK_HOLD (spec/02, R42 to R44, R47, R50). -/

namespace Sys2Proof.Proofs

open Sys2Proof Sys2Proof.Machine

/-! ### A write of TICK_CTRL (R43, R44, R50) -/

/-- The tick's state after the alarm of a write of TICK_CTRL is armed (R44). -/
def armedTick (c : Chip) (w : Nat) : Tick :=
  if bitAt w 2 && !c.bit F.TICK_CTRL_ALARM_EN then
    let t := c.reg64 Reg.STC_ALARM_LO Reg.STC_ALARM_HI
    { c.tick with alarm := BitVec.ofNat 64 t, alarmLate := decide (t ≤ c.now) }
  else c.tick

/-- The tick's state after an STC load that a write of TICK_CTRL asks for (R43). -/
def loadedTick (c : Chip) (w : Nat) : Tick :=
  let t := armedTick c w
  let v := BitVec.ofNat 64 (c.reg64 Reg.STC_LOAD_LO Reg.STC_LOAD_HI)
  if bitAt w 3 then
    if c.halted && t.phase == .idle then { t with stc := v, load := none } else { t with load := some v }
  else t

theorem armedTick_phase (c : Chip) (w : Nat) : (armedTick c w).phase = c.tick.phase := by
  unfold armedTick
  split <;> rfl

theorem loadedTick_phase (c : Chip) (w : Nat) : (loadedTick c w).phase = c.tick.phase := by
  unfold loadedTick
  dsimp only
  split
  · split <;> exact armedTick_phase c w
  · exact armedTick_phase c w

/-- The block after a write of TICK_CTRL has armed the alarm, stored its bits and loaded the STC. -/
def ctrlStored (c : Chip) (w : Nat) : Chip :=
  ((c.setFld F.TICK_CTRL_ALARM_EN (bits w 2 2)).setFld F.TICK_CTRL_RUN (bits w 0 0)).modTick fun _ => loadedTick c w

theorem when_alarmArm (c : Chip) (w : Nat) : c.when (bitAt w 2 && !c.bit F.TICK_CTRL_ALARM_EN) Chip.alarmArm =
    c.modTick fun _ => armedTick c w := by
  unfold Chip.when armedTick
  split <;> rfl

theorem reg64_congr {c d : Chip} {lo hi : Nat} (hlo : d.reg lo = c.reg lo) (hhi : d.reg hi = c.reg hi) :
    d.reg64 lo hi = c.reg64 lo hi := by
  rw [Chip.reg64, hlo, hhi]
  rfl

theorem setFld_modTick (c : Chip) (t : Tick → Tick) (f : Field) (v : Nat) :
    (c.modTick t).setFld f v = (c.setFld f v).modTick t := rfl

/-- The STC load in a block whose tick state has just been written. -/
theorem stcLoad_modTick (c : Chip) (t : Tick) : (c.modTick fun _ => t).stcLoad = c.modTick fun _ =>
    if c.halted && t.phase == .idle then
      { t with stc := BitVec.ofNat 64 (c.reg64 Reg.STC_LOAD_LO Reg.STC_LOAD_HI), load := none }
    else { t with load := some (BitVec.ofNat 64 (c.reg64 Reg.STC_LOAD_LO Reg.STC_LOAD_HI)) } := by
  have hhalted : (c.modTick fun _ => t).halted = c.halted := rfl
  have hload : (c.modTick fun _ => t).reg64 Reg.STC_LOAD_LO Reg.STC_LOAD_HI = c.reg64 Reg.STC_LOAD_LO Reg.STC_LOAD_HI := rfl
  unfold Chip.stcLoad
  rw [hhalted, hload, Chip.modTick_tick]
  split <;> rfl

theorem writeTickCtrl_eq (c : Chip) (w : Nat) : c.writeTickCtrl w = (ctrlStored c w).when (!bitAt w 0) Chip.runStop := by
  unfold Chip.writeTickCtrl
  dsimp only
  rw [when_alarmArm, setFld_modTick, setFld_modTick]
  unfold ctrlStored
  have hkeeps : Keeps [Reg.TICK_CTRL] c ((c.setFld F.TICK_CTRL_ALARM_EN (bits w 2 2)).setFld F.TICK_CTRL_RUN (bits w 0 0)) :=
    keeps_setFld (by decide) (keeps_setFld (by decide) (keeps_refl _ c) _) _
  generalize (c.setFld F.TICK_CTRL_ALARM_EN (bits w 2 2)).setFld F.TICK_CTRL_RUN (bits w 0 0) = d at hkeeps ⊢
  have hhalted : d.halted = c.halted := by
    have hstat := hkeeps.2 Reg.TICK_STATUS (by decide)
    rw [Chip.halted, bit_congr hstat, bit_congr (f := F.TICK_STATUS_PAUSED) hstat]
    rfl
  have hload : d.reg64 Reg.STC_LOAD_LO Reg.STC_LOAD_HI = c.reg64 Reg.STC_LOAD_LO Reg.STC_LOAD_HI :=
    reg64_congr (hkeeps.2 _ (by decide)) (hkeeps.2 _ (by decide))
  have hstored : (d.modTick fun _ => armedTick c w).when (bitAt w 3) Chip.stcLoad = d.modTick fun _ => loadedTick c w := by
    unfold Chip.when loadedTick
    rw [stcLoad_modTick, hhalted, hload]
    cases bitAt w 3 <;> rfl
  rw [hstored]

theorem ctrlStored_keeps (c : Chip) (w : Nat) : Keeps [Reg.TICK_CTRL] c (ctrlStored c w) :=
  keeps_modTick (keeps_setFld (by decide) (keeps_setFld (by decide) (keeps_refl _ c) _) _) _

theorem runStop_keeps (c : Chip) : Keeps [Reg.TICK_STATUS] c c.runStop :=
  keeps_ite (fun _ => keeps_setFld (by decide) (keeps_setFld (by decide) (keeps_refl _ c) _) _) fun _ => keeps_refl _ c

theorem keeps_mono {keys keys' : List Nat} {c d : Chip} (hsub : keys ⊆ keys') (h : Keeps keys c d) : Keeps keys' c d :=
  ⟨h.1, fun k hk => h.2 k fun hc => hk (hsub hc)⟩

theorem writeTickCtrl_keeps (c : Chip) (w : Nat) : Keeps [Reg.TICK_CTRL, Reg.TICK_STATUS] c (c.writeTickCtrl w) := by
  rw [writeTickCtrl_eq]
  exact keeps_when (keeps_mono (by simp) (ctrlStored_keeps c w)) fun _ => keeps_mono (by simp) (runStop_keeps _)

theorem ctrlStored_tick (c : Chip) (w : Nat) : (ctrlStored c w).tick = loadedTick c w := by
  rw [ctrlStored, Chip.modTick_tick]

/-- With RUN written 1, or in a tick, the generator's status stays. -/
theorem writeTickCtrl_running {c : Chip} {w : Nat} (h : bitAt w 0 = true ∨ c.tick.phase ≠ .idle) :
    c.writeTickCtrl w = ctrlStored c w := by
  rw [writeTickCtrl_eq]
  unfold Chip.when Chip.runStop
  rw [ctrlStored_tick, loadedTick_phase]
  rcases h with h | h
  · rw [h]
    rfl
  · rw [if_neg h, ite_self]

theorem writeTickCtrl_running_keeps {c : Chip} {w : Nat} (h : bitAt w 0 = true ∨ c.tick.phase ≠ .idle) :
    Keeps [Reg.TICK_CTRL] c (c.writeTickCtrl w) := by
  rw [writeTickCtrl_running h]
  exact ctrlStored_keeps c w

/-- With RUN written 0 outside a tick the generator stops at once. -/
theorem writeTickCtrl_stopped {c : Chip} {w : Nat} (hrun : bitAt w 0 = false) (hidle : c.tick.phase = .idle) :
    (c.writeTickCtrl w).bit F.TICK_STATUS_RUNNING = false ∧ (c.writeTickCtrl w).bit F.TICK_STATUS_PAUSED = false := by
  have hstop : c.writeTickCtrl w = ((ctrlStored c w).setFld F.TICK_STATUS_RUNNING 0).setFld F.TICK_STATUS_PAUSED 0 := by
    rw [writeTickCtrl_eq, hrun]
    exact if_pos ((congrArg Tick.phase (ctrlStored_tick c w)).trans ((loadedTick_phase c w).trans hidle))
  rw [hstop, Chip.bit_setFld_other _ F.TICK_STATUS_PAUSED F.TICK_STATUS_RUNNING _ (by decide) (by decide) (by decide), Chip.bit,
    Chip.bit, Chip.fld_setFld_same _ _ _ (by decide), Chip.fld_setFld_same _ _ _ (by decide)]
  exact ⟨rfl, rfl⟩

theorem runStop_tick (c : Chip) : c.runStop.tick = c.tick := by
  unfold Chip.runStop
  split
  · rw [Chip.setFld_tick, Chip.setFld_tick]
  · rfl

theorem writeTickCtrl_tick (c : Chip) (w : Nat) : (c.writeTickCtrl w).tick = loadedTick c w := by
  rw [writeTickCtrl_eq, when_tick, runStop_tick, ite_self, ctrlStored_tick]

theorem writeTickCtrl_bit {f : Field} (hf : f.reg = Reg.TICK_CTRL) (c : Chip) (w : Nat) :
    (c.writeTickCtrl w).bit f = (ctrlStored c w).bit f := by
  rw [writeTickCtrl_eq]
  have hkeep := (keeps_when (keeps_refl [Reg.TICK_STATUS] (ctrlStored c w)) (b := !bitAt w 0) fun _ => runStop_keeps _).2
  exact bit_congr (hkeep f.reg (by rw [hf]; decide))

/-- A one-bit field that takes a bit of the word written. -/
theorem bit_setFld_bits (c : Chip) {f : Field} (w : Nat) (hok : f.ok = true) (hbit : f.hi = f.lo) :
    (c.setFld f (bits w f.lo f.lo)).bit f = bitAt w f.lo := by
  have hlt : bits w f.lo f.lo < 2 ^ (f.lo + 1 - f.lo) := bits_lt w f.lo f.lo
  rw [Chip.bit, Chip.fld_setFld_same _ _ _ hok, hbit, Nat.mod_eq_of_lt hlt, bitAt_eq_bits]
  rw [Nat.add_sub_cancel_left, Nat.pow_one] at hlt
  interval_cases bits w f.lo f.lo <;> rfl

theorem writeTickCtrl_run (c : Chip) (w : Nat) : (c.writeTickCtrl w).bit F.TICK_CTRL_RUN = bitAt w 0 := by
  rw [writeTickCtrl_bit rfl]
  show ((c.setFld F.TICK_CTRL_ALARM_EN (bits w 2 2)).setFld F.TICK_CTRL_RUN (bits w 0 0)).bit F.TICK_CTRL_RUN = _
  exact bit_setFld_bits (f := F.TICK_CTRL_RUN) _ w (by decide) rfl

theorem writeTickCtrl_alarmEn (c : Chip) (w : Nat) : (c.writeTickCtrl w).bit F.TICK_CTRL_ALARM_EN = bitAt w 2 := by
  rw [writeTickCtrl_bit rfl]
  show ((c.setFld F.TICK_CTRL_ALARM_EN (bits w 2 2)).setFld F.TICK_CTRL_RUN (bits w 0 0)).bit F.TICK_CTRL_ALARM_EN = _
  rw [Chip.bit_setFld_other _ _ _ _ (by decide) (by decide) (by decide)]
  exact bit_setFld_bits (f := F.TICK_CTRL_ALARM_EN) _ w (by decide) rfl

/-! ### The rows that write TICK_CTRL -/

/-- A row that writes a field of TICK_CTRL. -/
theorem run_tickCtrl {s : State} {m : Master} {f : Field} (hf : f.reg = Reg.TICK_CTRL) (x : Nat) (v : Word)
    (hw : s.chip.writes m Reg.TICK_CTRL = true) :
    run (·.writeWith m f x v) s = run (·.writeTickCtrl (f.put v x).toNat) s :=
  run_congr (f := (·.writeWith m f x v)) (writeWith_tickCtrl hf x v ((begin_writes s m _).trans hw))

/-- The state after a write of TICK_CTRL. -/
def ctrlWritten (s : State) (w : Nat) : State := concluded s { s with chip := s.begin_.chip.writeTickCtrl w }

theorem ctrlWritten_tick (s : State) (w : Nat) : (ctrlWritten s w).chip.tick = loadedTick s.chip w :=
  (tick_of_tickSide (tickSide_concluded s _)).trans (writeTickCtrl_tick s.begin_.chip w)

theorem ctrlWritten_run (s : State) (w : Nat) : (ctrlWritten s w).chip.bit F.TICK_CTRL_RUN = bitAt w 0 :=
  (congrArg TickSide.run (tickSide_concluded s _)).trans (writeTickCtrl_run s.begin_.chip w)

theorem ctrlWritten_alarmEn (s : State) (w : Nat) : (ctrlWritten s w).chip.bit F.TICK_CTRL_ALARM_EN = bitAt w 2 :=
  (congrArg TickSide.alarmEn (tickSide_concluded s _)).trans (writeTickCtrl_alarmEn s.begin_.chip w)

theorem ctrlWritten_stopped {s : State} {w : Nat} (hrun : bitAt w 0 = false) (hidle : s.chip.tick.phase = .idle) :
    (ctrlWritten s w).chip.bit F.TICK_STATUS_RUNNING = false ∧ (ctrlWritten s w).chip.bit F.TICK_STATUS_PAUSED = false := by
  obtain ⟨hrunning, hpaused⟩ := writeTickCtrl_stopped (c := s.begin_.chip) hrun hidle
  exact ⟨(congrArg TickSide.running (tickSide_concluded s _)).trans hrunning,
    (congrArg TickSide.paused (tickSide_concluded s _)).trans hpaused⟩

/-- Where the generator's status stays, the write touches TICK_CTRL and the tick's state alone. -/
theorem ctrlWritten_only {s : State} {w : Nat} (hcalm : s.chip.Calm) (h : bitAt w 0 = true ∨ s.chip.tick.phase ≠ .idle) :
    Only [Reg.TICK_CTRL] s (ctrlWritten s w) { s.chip with tick := (ctrlWritten s w).chip.tick } := by
  obtain ⟨hrun, honly⟩ := only_of_keeps_status (f := (·.writeTickCtrl w)) hcalm
    (writeTickCtrl_running_keeps (c := s.begin_.chip) h) (by decide) (by decide)
  rw [show ctrlWritten s w = _ from Host.Outcome.next.inj hrun]
  exact honly

/-- The same with the status that a stop outside a tick clears, where the generator was not running. -/
theorem ctrlWritten_only_idle {s : State} {w : Nat} (hcalm : s.chip.Calm) (hrun : bitAt w 0 = false)
    (hidle : s.chip.tick.phase = .idle) (hwas : s.chip.bit F.TICK_STATUS_RUNNING = false) :
    Only [Reg.TICK_CTRL, Reg.TICK_STATUS] s (ctrlWritten s w) { s.chip with tick := (ctrlWritten s w).chip.tick } := by
  obtain ⟨-, hpaused⟩ := writeTickCtrl_stopped (c := s.begin_.chip) hrun hidle
  obtain ⟨hrun, honly⟩ := only_of_keeps (f := (·.writeTickCtrl w)) hcalm (writeTickCtrl_keeps s.begin_.chip w)
    (fun h => absurd (h.symm.trans hpaused) (by decide)) (fun h => absurd (h.symm.trans hwas) (by decide)) (by decide)
  rw [show ctrlWritten s w = _ from Host.Outcome.next.inj hrun]
  exact honly

theorem only_mono {keys keys' : List Nat} {s t : State} {c : Chip} (hsub : keys ⊆ keys') (h : Only keys s t c) :
    Only keys' s t c := ⟨h.otp, h.pending, fun k hk => h.regs k fun hc => hk (hsub hc), h.rest⟩

/-- TICK_RUN (R50). -/
theorem tickRun_runs (s : State) (m : Master) (v : Word) (hcalm : s.chip.Calm) (hw : s.chip.writes m Reg.TICK_CTRL = true) :
    ∃ t, exec (.tickRun m v) s = .next t ∧ t.chip.bit F.TICK_CTRL_RUN = true ∧
      Only [Reg.TICK_CTRL] s t { s.chip with tick := t.chip.tick } ∧
      (bitAt v.toNat 2 = false → bitAt v.toNat 3 = false → t.chip.tick = s.chip.tick) := by
  have hbit0 : bitAt (F.TICK_CTRL_RUN.put v 1).toNat 0 = true := bitAt_put_self v F.TICK_CTRL_RUN 1 (by decide) rfl
  refine ⟨ctrlWritten s (F.TICK_CTRL_RUN.put v 1).toNat, run_tickCtrl rfl 1 v hw, (ctrlWritten_run s _).trans hbit0,
    ctrlWritten_only hcalm (.inl hbit0), fun harm hload => ?_⟩
  rw [ctrlWritten_tick, loadedTick, armedTick, bitAt_put_apart v _ 1 2 (by decide) (by decide),
    bitAt_put_apart v _ 1 3 (by decide) (by decide), harm, hload]
  rfl

/-- TICK_STOP (R50). -/
theorem tickStop_stops (s : State) (m : Master) (v : Word) (hcalm : s.chip.Calm) (hw : s.chip.writes m Reg.TICK_CTRL = true) :
    ∃ t, exec (.tickStop m v) s = .next t ∧ t.chip.bit F.TICK_CTRL_RUN = false ∧
      (s.chip.tick.phase = .idle → t.chip.bit F.TICK_STATUS_RUNNING = false ∧ t.chip.bit F.TICK_STATUS_PAUSED = false) ∧
      (s.chip.tick.phase ≠ .idle ∨ s.chip.bit F.TICK_STATUS_RUNNING = false →
        Only [Reg.TICK_CTRL, Reg.TICK_STATUS] s t { s.chip with tick := t.chip.tick }) := by
  have hbit0 : bitAt (F.TICK_CTRL_RUN.put v 0).toNat 0 = false := bitAt_put_self v F.TICK_CTRL_RUN 0 (by decide) rfl
  refine ⟨ctrlWritten s (F.TICK_CTRL_RUN.put v 0).toNat, run_tickCtrl rfl 0 v hw, (ctrlWritten_run s _).trans hbit0,
    ctrlWritten_stopped hbit0, fun h => ?_⟩
  by_cases hidle : s.chip.tick.phase = .idle
  · exact ctrlWritten_only_idle hcalm hbit0 hidle (h.resolve_left (not_not.mpr hidle))
  · exact only_mono (by simp) (ctrlWritten_only hcalm (.inr hidle))

theorem armedTick_stc (c : Chip) (w : Nat) : (armedTick c w).stc = c.tick.stc := by
  unfold armedTick
  split <;> rfl

theorem loadedTick_alarm (c : Chip) (w : Nat) :
    (loadedTick c w).alarm = (armedTick c w).alarm ∧ (loadedTick c w).alarmLate = (armedTick c w).alarmLate := by
  unfold loadedTick
  dsimp only
  split
  · split <;> exact ⟨rfl, rfl⟩
  · exact ⟨rfl, rfl⟩

/-- STC_LOAD (R43). -/
theorem stcLoad_loads (s : State) (m : Master) (v : Word) (hcalm : s.chip.Calm) (hw : s.chip.writes m Reg.TICK_CTRL = true) :
    ∃ t, exec (.stcLoad m v) s = .next t ∧
      (let x := BitVec.ofNat 64 (s.chip.reg64 Reg.STC_LOAD_LO Reg.STC_LOAD_HI)
        if s.chip.halted = true ∧ s.chip.tick.phase = .idle then t.chip.tick.stc = x ∧ t.chip.tick.load = none
        else t.chip.tick.stc = s.chip.tick.stc ∧ t.chip.tick.load = some x) ∧
      (bitAt v.toNat 0 = true → Only [Reg.TICK_CTRL] s t { s.chip with tick := t.chip.tick }) := by
  have hbit3 : bitAt (F.TICK_CTRL_STC_LOAD.put v 1).toNat 3 = true :=
    bitAt_put_self v F.TICK_CTRL_STC_LOAD 1 (by decide) rfl
  refine ⟨ctrlWritten s (F.TICK_CTRL_STC_LOAD.put v 1).toNat, run_tickCtrl rfl 1 v hw, ?_, fun hrun => ?_⟩
  · dsimp only
    rw [ctrlWritten_tick, loadedTick, hbit3, armedTick_phase]
    by_cases h : s.chip.halted = true ∧ s.chip.tick.phase = .idle
    · rw [if_pos h]
      simp [h.1, h.2]
    · rw [if_neg h]
      have hnot : ¬(s.chip.halted && s.chip.tick.phase == .idle) = true := by simpa using h
      simp [hnot, armedTick_stc]
  · exact ctrlWritten_only hcalm (.inl ((bitAt_put_apart v _ 1 0 (by decide) (by decide)).trans hrun))

/-- ALARM_EN (R44). -/
theorem alarmEn_arms (s : State) (m : Master) (v : Word) (hcalm : s.chip.Calm) (hw : s.chip.writes m Reg.TICK_CTRL = true) :
    ∃ t, exec (.alarmEn m v) s = .next t ∧ t.chip.bit F.TICK_CTRL_ALARM_EN = true ∧
      (s.chip.bit F.TICK_CTRL_ALARM_EN = false →
        t.chip.tick.alarm = BitVec.ofNat 64 (s.chip.reg64 Reg.STC_ALARM_LO Reg.STC_ALARM_HI) ∧
        t.chip.tick.alarmLate = decide (s.chip.reg64 Reg.STC_ALARM_LO Reg.STC_ALARM_HI ≤ s.chip.now)) ∧
      (s.chip.bit F.TICK_CTRL_ALARM_EN = true → t.chip.tick.alarm = s.chip.tick.alarm) ∧
      (bitAt v.toNat 0 = true → Only [Reg.TICK_CTRL] s t { s.chip with tick := t.chip.tick }) := by
  have hbit2 : bitAt (F.TICK_CTRL_ALARM_EN.put v 1).toNat 2 = true :=
    bitAt_put_self v F.TICK_CTRL_ALARM_EN 1 (by decide) rfl
  refine ⟨ctrlWritten s (F.TICK_CTRL_ALARM_EN.put v 1).toNat, run_tickCtrl rfl 1 v hw, (ctrlWritten_alarmEn s _).trans hbit2,
    fun hoff => ?_, fun hon => ?_, fun hrun => ?_⟩
  · rw [ctrlWritten_tick, (loadedTick_alarm _ _).1, (loadedTick_alarm _ _).2, armedTick, hbit2, hoff]
    exact ⟨rfl, rfl⟩
  · rw [ctrlWritten_tick, (loadedTick_alarm _ _).1, armedTick, hon, Bool.not_true, Bool.and_false]
    rfl
  · exact ctrlWritten_only hcalm (.inl ((bitAt_put_apart v _ 1 0 (by decide) (by decide)).trans hrun))

/-! ### STC_LO and its shadow (R42) -/

/-- No host port's window reaches the registers of the clocks and the tick generator (R341). -/
theorem windowOf_none {c : Chip} {id a : Nat} (hlo : 0x40020000 ≤ a) (hhi : a < 0x40050000) : c.windowOf id a = none := by
  cases h : c.windowOf id a with
  | none => rfl
  | some off =>
    have hreg := windowOf_spec h
    simp only [Chip.windowReg, Reg.READY, Reg.PMU_CMD, Reg.PMU_STATUS] at hreg
    split at hreg
    · obtain ⟨b, -, hb⟩ := Option.map_eq_some_iff.mp hreg
      omega
    · split_ifs at hreg <;> simp only [Option.some.injEq] at hreg <;> omega

theorem masterRead_debug (c : Chip) (a : Nat) (h : c.debugReaches a = true) : c.masterRead .debug a =
    (c.busRead mDbg a 4).2.1.answer (if (c.busRead mDbg a 4).2.2 then .busError else .data (c.busRead mDbg a 4).1) := by
  show c.debugAccess a none = _
  unfold Chip.debugAccess
  rw [h]
  rfl

/-- A master that reads STC_LO does so over its bus. -/
theorem masterRead_stcLo {c : Chip} {m : Master} (h : c.reads m Reg.STC_LO = true) :
    c.masterRead m Reg.STC_LO = (c.readStcLo m.id).2.answer (.data (BitVec.ofNat 32 c.now)) := by
  have htake : ∀ id, c.regTake id Reg.STC_LO = c.readStcLo id := fun _ => if_pos rfl
  have hport : c.windowOf m.id Reg.STC_LO = none := windowOf_none (by decide) (by decide)
  cases m with
  | secp => rw [masterRead_reg (.inl rfl) (by decide) h (by decide), htake]; rfl
  | cp => rw [masterRead_reg (.inr rfl) (by decide) h (by decide), htake]; rfl
  | debug =>
    have hd : (c.debugReaches Reg.STC_LO && c.regReached mDbg Reg.STC_LO) = true := h
    rw [Bool.and_eq_true] at hd
    rw [masterRead_debug _ _ hd.1, busRead_reg (by decide) hd.2 (by decide), htake, if_neg Bool.false_ne_true]
    rfl
  | spi => exact absurd (h.symm.trans (congrArg Option.isSome hport)) (by decide)
  | i2c => exact absurd (h.symm.trans (congrArg Option.isSome hport)) (by decide)
  | usb => exact absurd (h.symm.trans (congrArg Option.isSome hport)) (by decide)

theorem begin_reads (s : State) (m : Master) (a : Nat) : s.begin_.chip.reads m a = s.chip.reads m a := by
  cases m <;> rfl

/-- STC_LO_READ (R42). -/
theorem stcLoRead_reads (s : State) (m : Master) (hcalm : s.chip.Calm) (hr : s.chip.reads m Reg.STC_LO = true) :
    ∃ t, exec (.stcLoRead m) s = .next t ∧ t.chip.resp = .data (BitVec.ofNat 32 s.chip.now) ∧
      t.chip.readStcHi m.id = BitVec.ofNat 32 (s.chip.now / 2 ^ 32) ∧
      (∀ j, j ≠ m.id → t.chip.readStcHi j = s.chip.readStcHi j) ∧
      Only [] s t { s.chip with tick := { s.chip.tick with shadows := t.chip.tick.shadows } } := by
  have hread := masterRead_stcLo ((begin_reads s m _).trans hr)
  have hrun : run (fun c => (c.readStcLo m.id).2.answer (.data (BitVec.ofNat 32 c.now))) s = _ :=
    run_calm _ s hcalm (fun _ _ => rfl) rfl
  exact ⟨_, (run_congr (f := (·.masterRead m Reg.STC_LO)) hread).trans hrun, rfl, Tab.get_set_same _ _ _ _,
    fun j hj => Tab.get_set_other _ _ _ hj, rfl, rfl, fun _ _ => rfl, rfl⟩

/-! ### TICK_HOLD (R47) -/

theorem dropBit_self (w i : Nat) : bitAt (dropBit w i) i = false := by
  unfold dropBit
  split
  case isTrue h =>
    simp only [bitAt, beq_iff_eq] at h
    have hdiv := Nat.sub_mul_div w (2 ^ i) 1
    rw [Nat.mul_one] at hdiv
    simp only [bitAt, hdiv, beq_eq_false_iff_ne]
    omega
  case isFalse h => exact Bool.eq_false_of_not_eq_true h

/-- A bit dropped and set again. -/
theorem withBit_dropBit {w i : Nat} (h : bitAt w i = true) : withBit (dropBit w i) i = w := by
  have hle : 2 ^ i ≤ w := by
    by_contra hlt
    simp [bitAt, Nat.div_eq_of_lt (show w < 2 ^ i by omega)] at h
  rw [withBit, dropBit_self, dropBit, if_pos h]
  exact Nat.sub_add_cancel hle

theorem dropBit_other (w i j : Nat) (h : j ≠ i) : bitAt (dropBit w i) j = bitAt w j := by
  cases hb : bitAt w i with
  | false => rw [dropBit, hb]; rfl
  | true => rw [← Chip.withBit_other (dropBit w i) i j h, withBit_dropBit hb]

theorem dropBit_le (w i : Nat) : dropBit w i ≤ w := by
  unfold dropBit
  split
  · exact Nat.sub_le _ _
  · exact Nat.le_refl _

/-- The registers of a release of held engines. -/
abbrev holdKeys : List Nat := Reg.TICK_HOLD :: (List.range 10).map Reg.ENG_STATUS

theorem mem_holdKeys {p : Nat} (hp : p < 10) : Reg.ENG_STATUS p ∈ holdKeys :=
  List.mem_cons_of_mem _ (List.mem_map_of_mem (List.mem_range.mpr hp))

theorem not_mem_holdKeys {k : Nat} (hk : k ≠ Reg.TICK_HOLD) (h : k < 0x30000000 ∨ 0x40000000 ≤ k ∨ k % 0x400000 ≠ 0x180004) :
    k ∉ holdKeys := by
  simp only [List.mem_cons, List.mem_map, List.mem_range, not_or, not_exists, not_and]
  refine ⟨hk, fun p hp hc => ?_⟩
  simp only [Reg.ENG_STATUS] at hc
  omega

theorem holdRelease_keeps (c : Chip) {p : Nat} (hp : p < 10) : Keeps holdKeys c (c.holdRelease p) := by
  have hclear : Keeps holdKeys c (c.clrFbit F.TICK_HOLD_HELD p) := keeps_setFld (by decide) (keeps_refl _ c) _
  exact keeps_ite (fun _ => keeps_setFld (mem_holdKeys hp) hclear 4) fun _ => hclear

/-- What decides whether a held engine is released: its length and the budget. -/
theorem release_congr {c d : Chip} (h : Keeps holdKeys c d) (p : Nat) : d.plen p = c.plen p ∧ d.budget = c.budget := by
  have hplen : d.reg (Reg.ENG_PLEN p) = c.reg (Reg.ENG_PLEN p) := h.2 _ (not_mem_holdKeys
    (by simp only [Reg.ENG_PLEN, Reg.TICK_HOLD]; omega) (by simp only [Reg.ENG_PLEN]; omega))
  have hcad : d.reg Reg.TICK_CADENCE = c.reg Reg.TICK_CADENCE := h.2 _ (not_mem_holdKeys (by decide) (by decide))
  have heclk : d.reg Reg.CLK_ECLK = c.reg Reg.CLK_ECLK := h.2 _ (not_mem_holdKeys (by decide) (by decide))
  constructor
  · simp only [Chip.plen, Chip.fld, F.ENG_PLEN_PLEN, hplen]
  · simp only [Chip.budget, Chip.rate, Chip.eclkDiv, Chip.fld, F.TICK_CADENCE_RATE, F.CLK_ECLK_DIV, hcad, heclk]

theorem holdRelease_held (c : Chip) (p q : Nat) :
    (c.holdRelease q).fbit F.TICK_HOLD_HELD p = (c.fbit F.TICK_HOLD_HELD p && p != q) := by
  have hclear : (c.clrFbit F.TICK_HOLD_HELD q).fbit F.TICK_HOLD_HELD p = (c.fbit F.TICK_HOLD_HELD p && p != q) := by
    have hlt : dropBit (c.fld F.TICK_HOLD_HELD) q < 2 ^ 10 := (dropBit_le _ q).trans_lt (bits_lt _ 9 0)
    rw [Chip.fbit, Chip.clrFbit, Chip.fld_setFld_same _ _ _ (by decide)]
    rw [show F.TICK_HOLD_HELD.hi + 1 - F.TICK_HOLD_HELD.lo = 10 from rfl, Nat.mod_eq_of_lt hlt]
    by_cases hpq : p = q
    · rw [hpq, dropBit_self, bne_self_eq_false, Bool.and_false]
    · rw [dropBit_other _ _ _ hpq, bne_iff_ne.mpr hpq, Bool.and_true]
      rfl
  have hstate (d : Chip) : (d.setEngState q 4).fbit F.TICK_HOLD_HELD p = d.fbit F.TICK_HOLD_HELD p := by
    rw [Chip.fbit, Chip.fbit, Chip.setEngState, Chip.fld, Chip.reg_setFld_other _ _ _ (by
      show Reg.TICK_HOLD ≠ Reg.ENG_STATUS q
      simp only [Reg.TICK_HOLD, Reg.ENG_STATUS]
      omega)]
    rfl
  unfold Chip.holdRelease
  dsimp only
  split
  · rw [hstate, hclear]
  · exact hclear

theorem holdRelease_engState (c : Chip) (p q : Nat) : (c.holdRelease q).engState p =
    if p = q ∧ c.engState p = 5 ∧ c.plen p ≤ c.budget then 4 else c.engState p := by
  have hclear : (c.clrFbit F.TICK_HOLD_HELD q).engState p = c.engState p := by
    refine Chip.fld_setFld_other c F.TICK_HOLD_HELD (F.ENG_STATUS_STATE p) _ (by decide) (by simp [F.ENG_STATUS_STATE]) ?_
    have hreg : Reg.TICK_HOLD ≠ Reg.ENG_STATUS p := by
      simp only [Reg.TICK_HOLD, Reg.ENG_STATUS]
      omega
    simp [Field.apart, F.ENG_STATUS_STATE, F.TICK_HOLD_HELD, hreg]
  unfold Chip.holdRelease
  dsimp only
  by_cases hpq : p = q
  · subst hpq
    by_cases hrel : c.engState p = 5 ∧ c.plen p ≤ c.budget
    · rw [if_pos hrel, if_pos ⟨rfl, hrel⟩]
      exact Chip.fld_setFld_same _ _ _ rfl
    · rw [if_neg hrel, if_neg fun h => hrel h.2, hclear]
  · have hother (d : Chip) : (d.setEngState q 4).engState p = d.engState p := by
      have hreg : Reg.ENG_STATUS p ≠ Reg.ENG_STATUS q := by
        simp only [Reg.ENG_STATUS]
        omega
      rw [Chip.engState, Chip.fld, Chip.setEngState, Chip.reg_setFld_other _ _ _ hreg]
      rfl
    rw [if_neg (c := p = q ∧ c.engState p = 5 ∧ c.plen p ≤ c.budget) fun h => hpq h.1]
    split
    · rw [hother, hclear]
    · exact hclear

/-- A release of a list of engines. -/
theorem holdReleases (l : List Nat) (hl : ∀ q ∈ l, q < 10) (c : Chip) : Keeps holdKeys c (l.foldl Chip.holdRelease c) ∧
    ∀ p, (l.foldl Chip.holdRelease c).fbit F.TICK_HOLD_HELD p = (c.fbit F.TICK_HOLD_HELD p && !l.contains p) ∧
      (l.foldl Chip.holdRelease c).engState p =
        if p ∈ l ∧ c.engState p = 5 ∧ c.plen p ≤ c.budget then 4 else c.engState p := by
  refine ⟨keeps_foldl (fun d q hq => holdRelease_keeps d (hl q hq)) (keeps_refl _ c), fun p => ?_⟩
  induction l generalizing c with
  | nil => simp
  | cons q l ih =>
    obtain ⟨hheld, hstate⟩ := ih (fun r hr => hl r (List.mem_cons_of_mem q hr)) (c.holdRelease q)
    obtain ⟨hplen, hbudget⟩ := release_congr (holdRelease_keeps c (hl q List.mem_cons_self)) p
    rw [List.foldl_cons, hheld, hstate, holdRelease_held, holdRelease_engState, hplen, hbudget]
    constructor
    · rw [List.contains_cons, Bool.not_or, Bool.and_assoc, bne]
    · by_cases hpq : p = q
      · by_cases hrel : c.engState p = 5 ∧ c.plen p ≤ c.budget
        · simp [hpq ▸ hrel, hpq]
        · simp [hpq ▸ hrel, hpq]
      · simp [hpq]

theorem holdReleases_tick (l : List Nat) (c : Chip) : (l.foldl Chip.holdRelease c).tick = c.tick := by
  induction l generalizing c with
  | nil => rfl
  | cons q l ih =>
    rw [List.foldl_cons, ih, Chip.holdRelease]
    split
    · rw [Chip.setEngState_tick, Chip.clrFbit_tick]
    · rw [Chip.clrFbit_tick]

/-- HOLD_RELEASE (R47). -/
theorem holdRelease_releases (s : State) (m : Master) (v : Word) (hcalm : s.chip.Calm)
    (hw : s.chip.writes m Reg.TICK_HOLD = true) : ∃ t, exec (.holdRelease m v) s = .next t ∧
      (∀ p, p < 10 → t.chip.fbit F.TICK_HOLD_HELD p = (s.chip.fbit F.TICK_HOLD_HELD p && !bitAt v.toNat p) ∧
        t.chip.engState p = if bitAt v.toNat p = true ∧ s.chip.engState p = 5 ∧ s.chip.plen p ≤ s.chip.budget then 4
          else s.chip.engState p) ∧
      Only (Reg.TICK_HOLD :: (List.range 10).map Reg.ENG_STATUS) s t s.chip := by
  have hwrite : s.begin_.chip.masterWrite m Reg.TICK_HOLD v =
      ((List.range 10).filter (bitAt v.toNat ·)).foldl Chip.holdRelease s.begin_.chip := by
    rw [masterWrite_tick v (by decide) (by decide) (by decide) ((begin_writes s m _).trans hw)]
    rfl
  obtain ⟨hkeeps, heffect⟩ := holdReleases ((List.range 10).filter (bitAt v.toNat ·))
    (fun q hq => List.mem_range.mp (List.mem_of_mem_filter hq)) s.begin_.chip
  obtain ⟨hrun, honly⟩ := only_of_keeps_status
    (f := fun c => ((List.range 10).filter (bitAt v.toNat ·)).foldl Chip.holdRelease c) hcalm hkeeps (by decide) (by decide)
  refine ⟨_, (run_congr (f := (·.masterWrite m Reg.TICK_HOLD v)) hwrite).trans hrun, fun p hp => ?_, ?_⟩
  · obtain ⟨hheld, hstate⟩ := heffect p
    have hmem : p ∈ (List.range 10).filter (bitAt v.toNat ·) ↔ bitAt v.toNat p = true := by
      simp [hp]
    have hcontains : ((List.range 10).filter (bitAt v.toNat ·)).contains p = bitAt v.toNat p := by
      rw [Bool.eq_iff_iff, List.contains_iff_mem, hmem]
    refine ⟨hheld.trans (by rw [hcontains]; rfl), hstate.trans ?_⟩
    simp only [hmem]
    rfl
  · rw [holdReleases_tick] at honly
    exact honly

/-- Settles O2, by what a write of TICK_CTRL stores and, for TICK_HOLD, by induction on the engines released. -/
theorem tickControl : Obligations.tickControl :=
  ⟨tickRun_runs, tickStop_stops, stcLoad_loads, stcLoRead_reads, alarmEn_arms, holdRelease_releases⟩

end Sys2Proof.Proofs
end

section
/-! TICK_CADENCE and CLK_ECLK (spec/02, spec/11: R45, R48, R275). -/

namespace Sys2Proof.Proofs

open Sys2Proof Sys2Proof.Machine

/-! ### What a change of the cadence or of ECLK writes -/

/-- The registers of a commit or a cancel of a cadence change. -/
abbrev cadenceKeys : List Nat := [Reg.TICK_CADENCE, Reg.TICK_BUDGET, Reg.TICK_PERIOD]

/-- The registers of a commit or a cancel of an ECLK change. -/
abbrev eclkKeys : List Nat := [Reg.CLK_ECLK, Reg.TICK_BUDGET, Reg.TICK_PERIOD]

theorem refreshBudget_keeps {keys : List Nat} {c d : Chip} (hbudget : Reg.TICK_BUDGET ∈ keys) (hperiod : Reg.TICK_PERIOD ∈ keys)
    (h : Keeps keys c d) : Keeps keys c d.refreshBudget :=
  keeps_setFld hperiod (keeps_setFld hbudget (keeps_setFld hbudget h _) _) _

theorem refreshBudget_reg (c : Chip) {k : Nat} (hbudget : k ≠ Reg.TICK_BUDGET) (hperiod : k ≠ Reg.TICK_PERIOD) :
    c.refreshBudget.reg k = c.reg k :=
  (refreshBudget_keeps (keys := [Reg.TICK_BUDGET, Reg.TICK_PERIOD]) (by decide) (by decide) (keeps_refl _ c)).2 k (by
    simp [hbudget, hperiod])

theorem fld_congr {c d : Chip} {f : Field} (h : d.reg f.reg = c.reg f.reg) : d.fld f = c.fld f := by
  rw [Chip.fld, h]
  rfl

theorem refreshBudget_tick (c : Chip) : c.refreshBudget.tick = c.tick := tick_of_tickSide (tickSide_refreshBudget c)

/-- The block with a change of the tick's state, a field of PENDING put, and the budgets refreshed: what every commit and
cancel leaves. -/
def pended (c : Chip) (t : Tick → Tick) (f : Field) (v : Nat) : Chip := ((c.modTick t).setFld f v).refreshBudget

theorem pended_tick (c : Chip) (t : Tick → Tick) (f : Field) (v : Nat) : (pended c t f v).tick = t c.tick := by
  rw [pended, refreshBudget_tick, Chip.setFld_tick, Chip.modTick_tick]

theorem pended_keeps {keys : List Nat} {c d : Chip} {f : Field} (hbudget : Reg.TICK_BUDGET ∈ keys)
    (hperiod : Reg.TICK_PERIOD ∈ keys) (hf : f.reg ∈ keys) (h : Keeps keys c d) (t : Tick → Tick) (v : Nat) :
    Keeps keys c (pended d t f v) :=
  refreshBudget_keeps hbudget hperiod (keeps_setFld hf (keeps_modTick h t) v)

/-- The PENDING bit itself. -/
theorem pended_bit (c : Chip) (t : Tick → Tick) {f : Field} (v : Nat) (hok : f.ok = true) (hbudget : f.reg ≠ Reg.TICK_BUDGET)
    (hperiod : f.reg ≠ Reg.TICK_PERIOD) : (pended c t f v).bit f = (v % 2 ^ (f.hi + 1 - f.lo) != 0) := by
  rw [pended, bit_congr (refreshBudget_reg _ hbudget hperiod), Chip.bit, Chip.fld_setFld_same _ _ _ hok]

/-- Another field, outside the budgets. -/
theorem pended_fld (c : Chip) (t : Tick → Tick) {f g : Field} (v : Nat) (hok : f.ok = true) (hg : g.lo ≤ g.hi)
    (hap : f.apart g = true) (hbudget : g.reg ≠ Reg.TICK_BUDGET) (hperiod : g.reg ≠ Reg.TICK_PERIOD) :
    (pended c t f v).fld g = c.fld g := by
  rw [pended, fld_congr (refreshBudget_reg _ hbudget hperiod), Chip.fld_setFld_other _ _ _ _ hok hg hap]
  rfl

/-- A command that comes to a commit or a cancel of a block whose fields it has stored. -/
theorem run_pended {keys : List Nat} {s : State} {g : Chip → Chip} {d : Chip} {t : Tick → Tick} {f : Field} {v : Nat}
    (hcalm : s.chip.Calm) (hg : g s.begin_.chip = pended d t f v) (hd : Keeps keys s.begin_.chip d) (htick : d.tick = s.chip.tick)
    (hf : f.reg ∈ keys) (hbudget : Reg.TICK_BUDGET ∈ keys) (hperiod : Reg.TICK_PERIOD ∈ keys) (hstat : Reg.TICK_STATUS ∉ keys)
    (hclk : Reg.CLK_STATUS ∉ keys) : run g s = .next { s with chip := pended d t f v } ∧
      Only keys s { s with chip := pended d t f v } { s.chip with tick := t s.chip.tick } := by
  have hkeeps : Keeps keys s.begin_.chip (g s.begin_.chip) := by
    rw [hg]
    exact pended_keeps hbudget hperiod hf hd t v
  have hend := only_of_keeps_status hcalm hkeeps hstat hclk
  rw [hg, pended_tick, htick] at hend
  exact hend

/-- A row that writes a field of TICK_CADENCE. -/
theorem run_cadence {s : State} {m : Master} {f : Field} (hf : f.reg = Reg.TICK_CADENCE) (x : Nat) (v : Word)
    (hw : s.chip.writes m Reg.TICK_CADENCE = true) :
    run (·.writeWith m f x v) s = run (·.writeCadence (f.put v x).toNat) s := by
  refine run_congr (f := (·.writeWith m f x v)) ?_
  unfold Chip.writeWith
  rw [hf, masterWrite_tick _ (by decide) (by decide) (by decide) ((begin_writes s m _).trans hw)]
  rfl

/-- A row that writes a field of CLK_ECLK. -/
theorem run_eclk {s : State} {m : Master} {f : Field} (hf : f.reg = Reg.CLK_ECLK) (x : Nat) (v : Word)
    (hw : s.chip.writes m Reg.CLK_ECLK = true) :
    run (·.writeWith m f x v) s = run (·.writeClkEclk (f.put v x).toNat) s := by
  refine run_congr (f := (·.writeWith m f x v)) ?_
  unfold Chip.writeWith
  rw [hf, masterWrite_clk _ (by decide) (by decide) (by decide) ((begin_writes s m _).trans hw)]
  rfl

/-! ### TICK_CADENCE (R48) -/

/-- The block after a write of TICK_CADENCE has stored its fields. -/
def cadenceStored (c : Chip) (w : Nat) : Chip :=
  (c.setFld F.TICK_CADENCE_AT_MODE (bits w 30 30)).setFld F.TICK_CADENCE_RATE_NEXT (bits w 2 0)

theorem cadenceStored_keeps (c : Chip) (w : Nat) : Keeps cadenceKeys c (cadenceStored c w) :=
  keeps_setFld (by decide) (keeps_setFld (by decide) (keeps_refl _ c) _) _

theorem cadenceStored_tick (c : Chip) (w : Nat) : (cadenceStored c w).tick = c.tick := by
  rw [cadenceStored, Chip.setFld_tick, Chip.setFld_tick]

theorem cadenceStored_next (c : Chip) (w : Nat) : (cadenceStored c w).fld F.TICK_CADENCE_RATE_NEXT = bits w 2 0 :=
  (Chip.fld_setFld_same _ _ _ (by decide)).trans (Nat.mod_eq_of_lt (bits_lt w 2 0))

theorem cadenceStored_atMode (c : Chip) (w : Nat) : (cadenceStored c w).bit F.TICK_CADENCE_AT_MODE = bitAt w 30 := by
  rw [cadenceStored, Chip.bit_setFld_other _ _ _ _ (by decide) (by decide) (by decide)]
  exact bit_setFld_bits (f := F.TICK_CADENCE_AT_MODE) c w (by decide) rfl

theorem cadenceStored_fld (c : Chip) (w : Nat) {g : Field} (hg : g.lo ≤ g.hi) (hmode : F.TICK_CADENCE_AT_MODE.apart g = true)
    (hnext : F.TICK_CADENCE_RATE_NEXT.apart g = true) : (cadenceStored c w).fld g = c.fld g := by
  rw [cadenceStored, Chip.fld_setFld_other _ _ _ _ (by decide) hg hnext, Chip.fld_setFld_other _ _ _ _ (by decide) hg hmode]

theorem writeCadence_commit {c : Chip} {w : Nat} (hpause : c.bit F.TICK_STATUS_PAUSED = false) (hcancel : bitAt w 28 = false)
    (hcommit : bitAt w 29 = true) : c.writeCadence w = (cadenceStored c w).cadenceCommit := by
  unfold Chip.writeCadence cadenceStored
  dsimp only
  rw [hpause, hcancel, hcommit, if_neg Bool.false_ne_true, Chip.when_false]
  exact if_pos rfl

theorem writeCadence_cancel {c : Chip} {w : Nat} (hpause : c.bit F.TICK_STATUS_PAUSED = false) (hcancel : bitAt w 28 = true)
    (hcommit : bitAt w 29 = false) : c.writeCadence w = (cadenceStored c w).cadenceCancel := by
  unfold Chip.writeCadence cadenceStored
  dsimp only
  rw [hpause, hcancel, hcommit, if_neg Bool.false_ne_true, Chip.when_false]
  exact if_pos rfl

/-- What a commit of `code` makes pending (R48, R275): the code, the tick T, in phase 0 the next tick where T is 0, and
whether it is late. -/
def commitOf (c : Chip) (code : Nat) (atMode : Bool) (lo hi : Nat) : Nat × Nat × Bool :=
  let x := c.commitAt atMode lo hi
  (code, if x.1 = 0 ∧ c.tick.phase = .p0 then c.now + 1 else x.1, x.2)

/-- A commit that no pause of a family change follows. -/
theorem cadenceCommit_pends {c : Chip} (hnone : c.bit F.TICK_CADENCE_PENDING = false)
    (hstay : c.tick.phase ≠ .idle ∨ c.fld F.TICK_CADENCE_RATE_NEXT % 2 = c.rate % 2) :
    c.cadenceCommit = pended c (fun x => { x with cadence := some (commitOf c (c.fld F.TICK_CADENCE_RATE_NEXT)
      (c.bit F.TICK_CADENCE_AT_MODE) Reg.TICK_CHANGE_AT_LO Reg.TICK_CHANGE_AT_HI) }) F.TICK_CADENCE_PENDING 1 := by
  unfold Chip.cadenceCommit
  rw [hnone, if_neg Bool.false_ne_true]
  generalize hp : pended c (fun x => { x with cadence := some (commitOf c (c.fld F.TICK_CADENCE_RATE_NEXT)
      (c.bit F.TICK_CADENCE_AT_MODE) Reg.TICK_CHANGE_AT_LO Reg.TICK_CHANGE_AT_HI) }) F.TICK_CADENCE_PENDING 1 = p
  have hdue : (p.tick.phase == .idle && p.familyDue) = false := by
    have hrate : p.rate = c.rate := by
      rw [← hp]
      exact pended_fld _ _ _ (by decide) (by decide) (by decide) (by decide) (by decide)
    rcases hstay with hphase | hfamily
    · rw [← hp, pended_tick]
      simp [hphase]
    · have hcadence : p.tick.cadence = some (commitOf c (c.fld F.TICK_CADENCE_RATE_NEXT) (c.bit F.TICK_CADENCE_AT_MODE)
          Reg.TICK_CHANGE_AT_LO Reg.TICK_CHANGE_AT_HI) := by
        rw [← hp, pended_tick]
      have hother : p.otherFamily (c.fld F.TICK_CADENCE_RATE_NEXT) = false := by
        rw [Chip.otherFamily, hrate, hfamily, bne_self_eq_false]
      rw [Chip.familyDue, hcadence]
      show (_ && (p.otherFamily (c.fld F.TICK_CADENCE_RATE_NEXT) && _)) = false
      rw [hother, Bool.false_and, Bool.and_false]
  have hwhen : p.when (p.tick.phase == .idle && p.familyDue) Chip.familyPause = p := by
    rw [hdue, Chip.when_false]
  rw [← hp] at hwhen ⊢
  exact hwhen

/-- What a commit makes pending, from the block and the word written. -/
theorem commitOf_cadenceStored (c : Chip) (w : Nat) :
    commitOf (cadenceStored c w) ((cadenceStored c w).fld F.TICK_CADENCE_RATE_NEXT)
      ((cadenceStored c w).bit F.TICK_CADENCE_AT_MODE) Reg.TICK_CHANGE_AT_LO Reg.TICK_CHANGE_AT_HI =
    commitOf c (bits w 2 0) (bitAt w 30) Reg.TICK_CHANGE_AT_LO Reg.TICK_CHANGE_AT_HI := by
  have hkeeps := (cadenceStored_keeps c w).2
  rw [cadenceStored_next, cadenceStored_atMode, commitOf, commitOf, Chip.commitAt, Chip.commitAt, Chip.now, Chip.now,
    cadenceStored_tick, reg64_congr (hkeeps _ (by decide)) (hkeeps _ (by decide))]

/-- CADENCE_COMMIT (R48). -/
theorem cadenceCommit_commits (s : State) (m : Master) (v : Word) (hcalm : s.chip.Calm)
    (hw : s.chip.writes m Reg.TICK_CADENCE = true) (hpause : s.chip.bit F.TICK_STATUS_PAUSED = false)
    (hnone : s.chip.bit F.TICK_CADENCE_PENDING = false) (hcancel : bitAt v.toNat 28 = false)
    (hstay : s.chip.tick.phase ≠ .idle ∨ bits v.toNat 2 0 % 2 = s.chip.rate % 2) :
    ∃ t, exec (.cadenceCommit m v) s = .next t ∧ t.chip.bit F.TICK_CADENCE_PENDING = true ∧ t.chip.rate = s.chip.rate ∧
      t.chip.tick.cadence = some (commitOf s.chip (bits v.toNat 2 0) (bitAt v.toNat 30) Reg.TICK_CHANGE_AT_LO
        Reg.TICK_CHANGE_AT_HI) ∧
      Only cadenceKeys s t { s.chip with tick := { s.chip.tick with cadence := t.chip.tick.cadence } } := by
  generalize hword : (F.TICK_CADENCE_COMMIT.put v 1).toNat = w
  have hnext : bits w 2 0 = bits v.toNat 2 0 := hword ▸ Field.bits_put_apart v _ 1 2 0 (by decide) (by decide) (by decide)
  have hmode : bitAt w 30 = bitAt v.toNat 30 := hword ▸ bitAt_put_apart v _ 1 30 (by decide) (by decide)
  have h28 : bitAt w 28 = false := by
    rw [← hword]
    exact (bitAt_put_apart v _ 1 28 (by decide) (by decide)).trans hcancel
  have h29 : bitAt w 29 = true := hword ▸ bitAt_put_self v F.TICK_CADENCE_COMMIT 1 (by decide) rfl
  have hrate : (cadenceStored s.begin_.chip w).rate = s.chip.rate :=
    cadenceStored_fld s.begin_.chip w (by decide) (by decide) (by decide)
  have hd := (writeCadence_commit (c := s.begin_.chip) hpause h28 h29).trans (cadenceCommit_pends
    (by rw [Chip.bit, cadenceStored_fld _ _ (by decide) (by decide) (by decide)]; exact hnone)
    (by rw [cadenceStored_tick, cadenceStored_next, hnext, hrate]; exact hstay))
  rw [commitOf_cadenceStored, hnext, hmode] at hd
  obtain ⟨hrun, honly⟩ := run_pended (g := (·.writeCadence w)) hcalm hd (cadenceStored_keeps _ w) (cadenceStored_tick _ w)
    (by decide) (by decide) (by decide) (by decide) (by decide)
  refine ⟨_, (run_cadence rfl 1 v hw).trans (by rw [hword]; exact hrun), ?_, ?_, ?_, ?_⟩
  · exact pended_bit _ _ 1 (by decide) (by decide) (by decide)
  · exact (pended_fld _ _ 1 (by decide) (by decide) (by decide) (by decide) (by decide)).trans hrate
  · rw [pended_tick]
    rfl
  · rw [pended_tick]
    exact honly

/-- CADENCE_CANCEL (R48). -/
theorem cadenceCancel_cancels (s : State) (m : Master) (v : Word) (hcalm : s.chip.Calm)
    (hw : s.chip.writes m Reg.TICK_CADENCE = true) (hpause : s.chip.bit F.TICK_STATUS_PAUSED = false)
    (hcommit : bitAt v.toNat 29 = false) :
    ∃ t, exec (.cadenceCancel m v) s = .next t ∧ t.chip.bit F.TICK_CADENCE_PENDING = false ∧ t.chip.tick.cadence = none ∧
      t.chip.rate = s.chip.rate ∧ Only cadenceKeys s t { s.chip with tick := { s.chip.tick with cadence := none } } := by
  generalize hword : (F.TICK_CADENCE_CANCEL.put v 1).toNat = w
  have h28 : bitAt w 28 = true := hword ▸ bitAt_put_self v F.TICK_CADENCE_CANCEL 1 (by decide) rfl
  have h29 : bitAt w 29 = false := by
    rw [← hword]
    exact (bitAt_put_apart v _ 1 29 (by decide) (by decide)).trans hcommit
  have hd : s.begin_.chip.writeCadence w = pended (cadenceStored s.begin_.chip w) (fun x => { x with cadence := none })
    F.TICK_CADENCE_PENDING 0 := writeCadence_cancel (c := s.begin_.chip) hpause h28 h29
  obtain ⟨hrun, honly⟩ := run_pended (g := (·.writeCadence w)) hcalm hd (cadenceStored_keeps _ w) (cadenceStored_tick _ w)
    (by decide) (by decide) (by decide) (by decide) (by decide)
  refine ⟨_, (run_cadence rfl 1 v hw).trans (by rw [hword]; exact hrun), ?_, ?_, ?_, honly⟩
  · exact pended_bit _ _ 0 (by decide) (by decide) (by decide)
  · rw [pended_tick]
  · exact (pended_fld _ _ 0 (by decide) (by decide) (by decide) (by decide) (by decide)).trans
      (cadenceStored_fld s.begin_.chip w (by decide) (by decide) (by decide))

/-! ### CLK_ECLK (R275) -/

/-- The block after a write of CLK_ECLK has stored its fields. -/
def eclkStored (c : Chip) (w : Nat) : Chip :=
  (c.setFld F.CLK_ECLK_AT_MODE (bits w 30 30)).setFld F.CLK_ECLK_DIV_NEXT (bits w 1 0)

theorem eclkStored_keeps (c : Chip) (w : Nat) : Keeps eclkKeys c (eclkStored c w) :=
  keeps_setFld (by decide) (keeps_setFld (by decide) (keeps_refl _ c) _) _

theorem eclkStored_tick (c : Chip) (w : Nat) : (eclkStored c w).tick = c.tick := by
  rw [eclkStored, Chip.setFld_tick, Chip.setFld_tick]

theorem eclkStored_next (c : Chip) (w : Nat) : (eclkStored c w).fld F.CLK_ECLK_DIV_NEXT = bits w 1 0 :=
  (Chip.fld_setFld_same _ _ _ (by decide)).trans (Nat.mod_eq_of_lt (bits_lt w 1 0))

theorem eclkStored_fld (c : Chip) (w : Nat) {g : Field} (hg : g.lo ≤ g.hi) (hmode : F.CLK_ECLK_AT_MODE.apart g = true)
    (hnext : F.CLK_ECLK_DIV_NEXT.apart g = true) : (eclkStored c w).fld g = c.fld g := by
  rw [eclkStored, Chip.fld_setFld_other _ _ _ _ (by decide) hg hnext, Chip.fld_setFld_other _ _ _ _ (by decide) hg hmode]

theorem writeClkEclk_commit {c : Chip} {w : Nat} (hcancel : bitAt w 28 = false) (hcommit : bitAt w 29 = true) :
    c.writeClkEclk w = (eclkStored c w).eclkCommit := by
  unfold Chip.writeClkEclk eclkStored
  dsimp only
  rw [hcancel, hcommit, Chip.when_false]
  exact if_pos rfl

theorem writeClkEclk_cancel {c : Chip} {w : Nat} (hcancel : bitAt w 28 = true) (hcommit : bitAt w 29 = false) :
    c.writeClkEclk w = (eclkStored c w).eclkCancel := by
  unfold Chip.writeClkEclk eclkStored
  dsimp only
  rw [hcancel, hcommit, Chip.when_false]
  exact if_pos rfl

/-- While the tick runs, or in a tick, a commit becomes pending. -/
theorem eclkCommit_pends {c : Chip} (hnone : c.bit F.CLK_ECLK_PENDING = false)
    (hrun : c.bit F.TICK_STATUS_RUNNING = true ∨ c.tick.phase ≠ .idle) :
    c.eclkCommit = pended c (fun x => { x with eclk := some (commitOf c (c.fld F.CLK_ECLK_DIV_NEXT)
      (c.bit F.CLK_ECLK_AT_MODE) Reg.CLK_ECLK_AT_LO Reg.CLK_ECLK_AT_HI) }) F.CLK_ECLK_PENDING 1 := by
  have hnot : ¬((!c.bit F.TICK_STATUS_RUNNING) = true ∧ c.tick.phase = .idle) := by
    rintro ⟨hstopped, hidle⟩
    rcases hrun with h | h
    · rw [h] at hstopped
      cases hstopped
    · exact h hidle
  unfold Chip.eclkCommit
  dsimp only
  rw [hnone, if_neg Bool.false_ne_true, if_neg hnot]
  rfl

/-- While the tick is stopped, a commit takes effect at once. -/
theorem eclkCommit_takes {c : Chip} (hnone : c.bit F.CLK_ECLK_PENDING = false) (hrun : c.bit F.TICK_STATUS_RUNNING = false)
    (hidle : c.tick.phase = .idle) : c.eclkCommit = (c.eclkTake (c.fld F.CLK_ECLK_DIV_NEXT)).refreshBudget.checkHolds := by
  unfold Chip.eclkCommit
  dsimp only
  rw [hnone, if_neg Bool.false_ne_true, hrun]
  exact if_pos ⟨rfl, hidle⟩

/-- The registers of a check of installed lengths: a held engine raises event 53. -/
abbrev heldKeys : List Nat := Reg.TICK_STATUS :: Reg.EVT_PEND 1 :: holdKeys

theorem checkHolds_keeps (c : Chip) : Keeps heldKeys c c.checkHolds := by
  refine keeps_foldl (fun d p hp => ?_) (keeps_refl _ c)
  have heng : Reg.ENG_STATUS p ∈ heldKeys :=
    List.mem_cons_of_mem _ (List.mem_cons_of_mem _ (mem_holdKeys (List.mem_range.mp hp)))
  exact keeps_ite (fun _ => keeps_raise (by decide) (keeps_setFld (by decide) (keeps_setFld (by decide)
    (keeps_setFld heng (keeps_refl _ d) _) _) _)) fun _ => keeps_refl _ d

theorem eclkTake_keeps {c d : Chip} (h : Keeps eclkKeys c d) (code : Nat) : Keeps eclkKeys c (d.eclkTake code) :=
  keeps_modTick (keeps_setFld (by decide) (keeps_setFld (by decide) h _) _) _

theorem eclkTake_fields (c : Chip) {code : Nat} (hcode : code < 4) :
    (c.eclkTake code).refreshBudget.checkHolds.eclkDiv = code ∧
      (c.eclkTake code).refreshBudget.checkHolds.bit F.CLK_ECLK_PENDING = false := by
  have hreg : (c.eclkTake code).refreshBudget.checkHolds.reg Reg.CLK_ECLK =
      ((c.setFld F.CLK_ECLK_DIV code).setFld F.CLK_ECLK_PENDING 0).reg Reg.CLK_ECLK := by
    rw [(checkHolds_keeps _).2 _ (by decide), refreshBudget_reg _ (by decide) (by decide), Chip.eclkTake,
      Chip.modTick_reg]
  generalize (c.eclkTake code).refreshBudget.checkHolds = x at hreg ⊢
  constructor
  · rw [Chip.eclkDiv, fld_congr (f := F.CLK_ECLK_DIV) hreg,
      Chip.fld_setFld_other _ _ _ _ (by decide) (by decide) (by decide), Chip.fld_setFld_same _ _ _ (by decide)]
    exact Nat.mod_eq_of_lt hcode
  · rw [bit_congr (f := F.CLK_ECLK_PENDING) hreg, Chip.bit, Chip.fld_setFld_same _ _ _ (by decide)]
    rfl

/-- A command that comes to a change of ECLK at once is over with it. -/
theorem run_eclkTake {s : State} {g : Chip → Chip} {d : Chip} {code : Nat} (hcalm : s.chip.Calm)
    (hg : g s.begin_.chip = (d.eclkTake code).refreshBudget.checkHolds) (hd : Keeps eclkKeys s.begin_.chip d) :
    run g s = .next { s with chip := (d.eclkTake code).refreshBudget.checkHolds } := by
  have htaken : Keeps eclkKeys s.begin_.chip (d.eclkTake code).refreshBudget :=
    refreshBudget_keeps (by decide) (by decide) (eclkTake_keeps hd code)
  generalize (d.eclkTake code).refreshBudget = e at hg htaken ⊢
  have hside := tickSide_checkHolds e
  have hheld := checkHolds_keeps e
  generalize e.checkHolds = x at hg hside hheld ⊢
  have hpaused := (congrArg TickSide.paused hside).trans (bit_congr (f := F.TICK_STATUS_PAUSED) (htaken.2 _ (by decide)))
  have hrunning := (congrArg TickSide.running hside).trans (bit_congr (f := F.TICK_STATUS_RUNNING) (htaken.2 _ (by decide)))
  have hkeeps : Keeps (eclkKeys ++ heldKeys) s.begin_.chip x :=
    keeps_trans (keeps_mono (List.subset_append_left _ _) htaken) (keeps_mono (List.subset_append_right _ _) hheld)
  subst hg
  exact (only_of_keeps hcalm hkeeps (fun h => hpaused.symm.trans h) (fun h => hrunning.trans h) (by decide)).1

/-- CLK_ECLK_COMMIT (R275). -/
theorem clkEclkCommit_commits (s : State) (m : Master) (v : Word) (hcalm : s.chip.Calm)
    (hw : s.chip.writes m Reg.CLK_ECLK = true) (hnone : s.chip.bit F.CLK_ECLK_PENDING = false)
    (hcancel : bitAt v.toNat 28 = false) : ∃ t, exec (.clkEclkCommit m v) s = .next t ∧
      (s.chip.bit F.TICK_STATUS_RUNNING = false ∧ s.chip.tick.phase = .idle → t.chip.eclkDiv = bits v.toNat 1 0 ∧
        t.chip.bit F.CLK_ECLK_PENDING = false) ∧
      (s.chip.bit F.TICK_STATUS_RUNNING = true ∨ s.chip.tick.phase ≠ .idle → t.chip.eclkDiv = s.chip.eclkDiv ∧
        t.chip.bit F.CLK_ECLK_PENDING = true ∧ (t.chip.tick.eclk.map fun x => x.1) = some (bits v.toNat 1 0) ∧
        Only eclkKeys s t { s.chip with tick := { s.chip.tick with eclk := t.chip.tick.eclk } }) := by
  generalize hword : (F.CLK_ECLK_COMMIT.put v 1).toNat = w
  have hnext : bits w 1 0 = bits v.toNat 1 0 := hword ▸ Field.bits_put_apart v _ 1 1 0 (by decide) (by decide) (by decide)
  have h29 : bitAt w 29 = true := hword ▸ bitAt_put_self v F.CLK_ECLK_COMMIT 1 (by decide) rfl
  have h28 : bitAt w 28 = false := by
    rw [← hword]
    exact (bitAt_put_apart v _ 1 28 (by decide) (by decide)).trans hcancel
  have hcommit := writeClkEclk_commit (c := s.begin_.chip) h28 h29
  have hkeeps := eclkStored_keeps s.begin_.chip w
  have hpending : (eclkStored s.begin_.chip w).bit F.CLK_ECLK_PENDING = false := by
    rw [Chip.bit, eclkStored_fld _ _ (by decide) (by decide) (by decide)]
    exact hnone
  have hrunning : (eclkStored s.begin_.chip w).bit F.TICK_STATUS_RUNNING = s.chip.bit F.TICK_STATUS_RUNNING :=
    bit_congr (hkeeps.2 _ (by decide))
  have hdiv : (eclkStored s.begin_.chip w).eclkDiv = s.chip.eclkDiv :=
    eclkStored_fld s.begin_.chip w (by decide) (by decide) (by decide)
  by_cases h : s.chip.bit F.TICK_STATUS_RUNNING = false ∧ s.chip.tick.phase = .idle
  · have hd := hcommit.trans (eclkCommit_takes hpending (hrunning.trans h.1)
      ((congrArg Tick.phase (eclkStored_tick s.begin_.chip w)).trans h.2))
    rw [eclkStored_next, hnext] at hd
    have hrun := run_eclkTake (g := (·.writeClkEclk w)) hcalm hd hkeeps
    have hfields := eclkTake_fields (eclkStored s.begin_.chip w) (code := bits v.toNat 1 0) (bits_lt _ 1 0)
    generalize ((eclkStored s.begin_.chip w).eclkTake (bits v.toNat 1 0)).refreshBudget.checkHolds = x at hrun hfields
    refine ⟨{ s with chip := x }, (run_eclk rfl 1 v hw).trans (by rw [hword]; exact hrun), fun _ => hfields, fun hgoes => ?_⟩
    rcases hgoes with hgoes | hgoes
    · exact absurd (hgoes.symm.trans h.1) (by decide)
    · exact absurd h.2 hgoes
  · have hgoes : s.chip.bit F.TICK_STATUS_RUNNING = true ∨ s.chip.tick.phase ≠ .idle := by
      cases hr : s.chip.bit F.TICK_STATUS_RUNNING
      · exact .inr fun hidle => h ⟨hr, hidle⟩
      · exact .inl rfl
    have hd := hcommit.trans (eclkCommit_pends hpending (by rw [hrunning, eclkStored_tick]; exact hgoes))
    rw [eclkStored_next, hnext] at hd
    obtain ⟨hrun, honly⟩ := run_pended (g := (·.writeClkEclk w)) hcalm hd hkeeps (eclkStored_tick _ w)
      (by decide) (by decide) (by decide) (by decide) (by decide)
    refine ⟨_, (run_eclk rfl 1 v hw).trans (by rw [hword]; exact hrun), fun hstops => absurd hstops h, fun _ => ⟨?_, ?_, ?_, ?_⟩⟩
    · exact (pended_fld _ _ 1 (by decide) (by decide) (by decide) (by decide) (by decide)).trans hdiv
    · exact pended_bit _ _ 1 (by decide) (by decide) (by decide)
    · rw [pended_tick]
      rfl
    · rw [pended_tick]
      exact honly

/-- CLK_ECLK_CANCEL (R275). -/
theorem clkEclkCancel_cancels (s : State) (m : Master) (v : Word) (hcalm : s.chip.Calm)
    (hw : s.chip.writes m Reg.CLK_ECLK = true) (hcommit : bitAt v.toNat 29 = false) :
    ∃ t, exec (.clkEclkCancel m v) s = .next t ∧ t.chip.eclkDiv = s.chip.eclkDiv ∧
      t.chip.bit F.CLK_ECLK_PENDING = false ∧ t.chip.tick.eclk = none ∧
      Only eclkKeys s t { s.chip with tick := { s.chip.tick with eclk := none } } := by
  generalize hword : (F.CLK_ECLK_CANCEL.put v 1).toNat = w
  have h28 : bitAt w 28 = true := hword ▸ bitAt_put_self v F.CLK_ECLK_CANCEL 1 (by decide) rfl
  have h29 : bitAt w 29 = false := by
    rw [← hword]
    exact (bitAt_put_apart v _ 1 29 (by decide) (by decide)).trans hcommit
  have hd : s.begin_.chip.writeClkEclk w = pended (eclkStored s.begin_.chip w) (fun x => { x with eclk := none })
    F.CLK_ECLK_PENDING 0 := writeClkEclk_cancel (c := s.begin_.chip) h28 h29
  obtain ⟨hrun, honly⟩ := run_pended (g := (·.writeClkEclk w)) hcalm hd (eclkStored_keeps _ w) (eclkStored_tick _ w)
    (by decide) (by decide) (by decide) (by decide) (by decide)
  refine ⟨_, (run_eclk rfl 1 v hw).trans (by rw [hword]; exact hrun), ?_, ?_, ?_, honly⟩
  · exact (pended_fld _ _ 0 (by decide) (by decide) (by decide) (by decide) (by decide)).trans
      (eclkStored_fld s.begin_.chip w (by decide) (by decide) (by decide))
  · exact pended_bit _ _ 0 (by decide) (by decide) (by decide)
  · rw [pended_tick]

/-- Settles O3, by what each write of TICK_CADENCE and CLK_ECLK comes to: a change of the tick's state, PENDING and the
budgets. -/
theorem cadenceCommands : Obligations.cadenceCommands := by
  refine ⟨fun s m v hcalm hw hpause hnone hcancel hstay => ?_, cadenceCancel_cancels, clkEclkCommit_commits,
    clkEclkCancel_cancels⟩
  obtain ⟨t, hexec, hpending, hrate, hcadence, honly⟩ := cadenceCommit_commits s m v hcalm hw hpause hnone hcancel hstay
  refine ⟨t, hexec, hpending, hrate, ?_, honly⟩
  rw [hcadence, commitOf, Chip.commitAt]
  cases bitAt v.toNat 30 <;> simp

end Sys2Proof.Proofs
end
